-- ==== Sys2Proof/Word.lean ====
section
/-!
DEFINITION. Word.lean: the machine's word types and their plainest arithmetic (R2, R6).
-/
namespace Sys2Proof

/-- A byte of addressed storage (R2). -/
abbrev Byte := BitVec 8

/-- A 32-bit parcel of program text (R60). -/
abbrev Parcel := BitVec 32

/-- A 64-bit register or memory word. -/
abbrev Word := BitVec 64

/-- A 64-byte row, byte 0 in bits 7:0 (R2). -/
abbrev Row := BitVec 512

/-- A capability image (R119). -/
abbrev Cap := BitVec 128

/-- Bits `h:l` of a natural number, as an unsigned integer (R5 `x<h:l>`). -/
def bits (x h l : Nat) : Nat := (x >>> l) % 2 ^ (h + 1 - l)

/-- Two's-complement value of the low `w` bits of `x` (R6 `sext`). -/
def sextN (x w : Nat) : Int :=
  let y := x % 2 ^ w
  if y < 2 ^ (w - 1) then (y : Int) else (y : Int) - (2 ^ w : Nat)

/-- The `w`-bit pattern congruent to `x` (R6 `wrap`), as a natural number. -/
def wrapN (x : Int) (w : Nat) : Nat := (x % ((2 ^ w : Nat) : Int)).toNat

end Sys2Proof
end

