-- ==== Sys2Proof/Syntax.lean ====
section
/-!
DEFINITION. Syntax.lean: the instructions and events of the package, one constructor per row of the
table of operations and events (R67 to R76, R84 to R94; the events of "What each step holds").
-/
namespace Sys2Proof

/-- The fields of a V word beside tag and opcode (R69, R70, R74). -/
structure VWord where
  /-- guard negate bit N -/
  neg : Bool
  /-- guard mask register G -/
  g : BitVec 4
  /-- format code of R19 -/
  ty : BitVec 5
  /-- valid-count register -/
  nsel : BitVec 3
  /-- repeat count; 0 means 64 -/
  rep : BitVec 6
  /-- operand descriptors: mode 17:16, base 15:6, stride 5:0 -/
  d0 : BitVec 18
  d1 : BitVec 18
  d2 : BitVec 18
  /-- auxiliary field: 9:8 reserved, 7 SAT, 6:5 RM, 4 RO, 3:0 MD2 -/
  aux : BitVec 10
deriving DecidableEq, Repr

/-- The fields of an M word beside tag and opcode (R76). -/
structure MWord where
  t : BitVec 4
  acc : Bool
  byp : Bool
  nsel : BitVec 3
  rowA : BitVec 15
  strideA : BitVec 15
  rowB : BitVec 15
  strideB : BitVec 15
  /-- K positions; 0 means 4,096 -/
  kdepth : BitVec 12
  ge : Bool
  rowG : BitVec 15
  se : Bool
  rowS : BitVec 15
  aq : Bool
  dq : Bool
  rowC : BitVec 15
deriving DecidableEq, Repr

/-- The fields of an S word beside tag and opcode (R75). -/
structure SWord where
  h : BitVec 4
  o : BitVec 2
  nsel : BitVec 3
  q : BitVec 4
  qe : Bool
  xq : Bool
  rowX : BitVec 15
  rowY : BitVec 15
  rowZ : BitVec 15
  /-- chunk length in steps; 0 means 65,536 -/
  clen : BitVec 16
deriving DecidableEq, Repr

/-- The forms of a translated access (R141, R338, R345). -/
inductive Form where
  | load | store | ldq | stq | ldv | atomic | ring | copyRead | copyWrite | fetch
deriving DecidableEq, Repr

/-- Every operation and event of the table. -/
inductive Instr where
  /-- ADD (R104). -/
  | add (t : BitVec 1) (n : BitVec 1) (g : BitVec 4) (d : BitVec 5) (a : BitVec 5) (b : BitVec 5)
  /-- SUB (R104). -/
  | sub (t : BitVec 1) (n : BitVec 1) (g : BitVec 4) (d : BitVec 5) (a : BitVec 5) (b : BitVec 5)
  /-- MUL (R104). -/
  | mul (t : BitVec 1) (n : BitVec 1) (g : BitVec 4) (d : BitVec 5) (a : BitVec 5) (b : BitVec 5)
  /-- MULH (R105). -/
  | mulh (t : BitVec 1) (n : BitVec 1) (g : BitVec 4) (d : BitVec 5) (a : BitVec 5) (b : BitVec 5) (s : BitVec 2)
  /-- DIV (R106). -/
  | div (t : BitVec 1) (n : BitVec 1) (g : BitVec 4) (d : BitVec 5) (a : BitVec 5) (b : BitVec 5) (s : BitVec 2)
  /-- REM (R106). -/
  | rem (t : BitVec 1) (n : BitVec 1) (g : BitVec 4) (d : BitVec 5) (a : BitVec 5) (b : BitVec 5) (s : BitVec 2)
  /-- AND (R104). -/
  | and (t : BitVec 1) (n : BitVec 1) (g : BitVec 4) (d : BitVec 5) (a : BitVec 5) (b : BitVec 5)
  /-- OR (R104). -/
  | or (t : BitVec 1) (n : BitVec 1) (g : BitVec 4) (d : BitVec 5) (a : BitVec 5) (b : BitVec 5)
  /-- XOR (R104). -/
  | xor (t : BitVec 1) (n : BitVec 1) (g : BitVec 4) (d : BitVec 5) (a : BitVec 5) (b : BitVec 5)
  /-- ANDN (R104). -/
  | andn (t : BitVec 1) (n : BitVec 1) (g : BitVec 4) (d : BitVec 5) (a : BitVec 5) (b : BitVec 5)
  /-- SHL (R104). -/
  | shl (t : BitVec 1) (n : BitVec 1) (g : BitVec 4) (d : BitVec 5) (a : BitVec 5) (b : BitVec 5)
  /-- SHR (R104). -/
  | shr (t : BitVec 1) (n : BitVec 1) (g : BitVec 4) (d : BitVec 5) (a : BitVec 5) (b : BitVec 5)
  /-- SRA (R104). -/
  | sra (t : BitVec 1) (n : BitVec 1) (g : BitVec 4) (d : BitVec 5) (a : BitVec 5) (b : BitVec 5)
  /-- ROT (R104). -/
  | rot (t : BitVec 1) (n : BitVec 1) (g : BitVec 4) (d : BitVec 5) (a : BitVec 5) (b : BitVec 5)
  /-- MIN (R104). -/
  | min (t : BitVec 1) (n : BitVec 1) (g : BitVec 4) (d : BitVec 5) (a : BitVec 5) (b : BitVec 5)
  /-- MAX (R104). -/
  | max (t : BitVec 1) (n : BitVec 1) (g : BitVec 4) (d : BitVec 5) (a : BitVec 5) (b : BitVec 5)
  /-- MINZ (R104). -/
  | minz (t : BitVec 1) (n : BitVec 1) (g : BitVec 4) (d : BitVec 5) (a : BitVec 5) (b : BitVec 5)
  /-- MAXZ (R104). -/
  | maxz (t : BitVec 1) (n : BitVec 1) (g : BitVec 4) (d : BitVec 5) (a : BitVec 5) (b : BitVec 5)
  /-- CLZ (R104). -/
  | clz (t : BitVec 1) (n : BitVec 1) (g : BitVec 4) (d : BitVec 5) (a : BitVec 5)
  /-- POPC (R104). -/
  | popc (t : BitVec 1) (n : BitVec 1) (g : BitVec 4) (d : BitVec 5) (a : BitVec 5)
  /-- ADDI (R107). -/
  | addi (t : BitVec 1) (n : BitVec 1) (g : BitVec 4) (d : BitVec 5) (a : BitVec 5) (i : BitVec 7)
  /-- ANDI (R107). -/
  | andi (t : BitVec 1) (n : BitVec 1) (g : BitVec 4) (d : BitVec 5) (a : BitVec 5) (i : BitVec 7)
  /-- ORI (R107). -/
  | ori (t : BitVec 1) (n : BitVec 1) (g : BitVec 4) (d : BitVec 5) (a : BitVec 5) (i : BitVec 7)
  /-- XORI (R107). -/
  | xori (t : BitVec 1) (n : BitVec 1) (g : BitVec 4) (d : BitVec 5) (a : BitVec 5) (i : BitVec 7)
  /-- SHLI (R107). -/
  | shli (t : BitVec 1) (n : BitVec 1) (g : BitVec 4) (d : BitVec 5) (a : BitVec 5) (i : BitVec 6)
  /-- SHRI (R107). -/
  | shri (t : BitVec 1) (n : BitVec 1) (g : BitVec 4) (d : BitVec 5) (a : BitVec 5) (i : BitVec 6)
  /-- LI (R107). -/
  | li (t : BitVec 1) (n : BitVec 1) (g : BitVec 4) (d : BitVec 5) (i : BitVec 12)
  /-- LIU (R107). -/
  | liu (t : BitVec 1) (n : BitVec 1) (g : BitVec 4) (d : BitVec 5) (i : BitVec 12)
  /-- PLOGIC (R109). -/
  | plogic (t : BitVec 1) (n : BitVec 1) (g : BitVec 4) (d : BitVec 4) (a : BitVec 4) (b : BitVec 4) (f : BitVec 4)
  /-- QPOP (R110). -/
  | qpop (t : BitVec 1) (n : BitVec 1) (g : BitVec 4) (d : BitVec 5) (q : BitVec 4)
  /-- QSEND (R110). -/
  | qsend (t : BitVec 1) (n : BitVec 1) (g : BitVec 4) (q : BitVec 4) (a : BitVec 5)
  /-- RDCYC (R111). -/
  | rdcyc (t : BitVec 1) (n : BitVec 1) (g : BitVec 4) (d : BitVec 5)
  /-- RDID (R112). -/
  | rdid (t : BitVec 1) (n : BitVec 1) (g : BitVec 4) (d : BitVec 5) (s : BitVec 2)
  /-- WAITD (R113). -/
  | waitd (t : BitVec 1) (n : BitVec 1) (g : BitVec 4) (e : BitVec 2) (c : BitVec 3) (k : BitVec 10)
  /-- SEL (R104). -/
  | sel (t : BitVec 1) (n : BitVec 1) (g : BitVec 4) (p : BitVec 4) (d : BitVec 5) (a : BitVec 5) (b : BitVec 5)
  /-- CMP (R108). -/
  | cmp (t : BitVec 1) (n : BitVec 1) (g : BitVec 4) (c : BitVec 3) (d : BitVec 4) (e : BitVec 4) (a : BitVec 5) (b : BitVec 5)
  /-- CMPI (R108). -/
  | cmpi (t : BitVec 1) (n : BitVec 1) (g : BitVec 4) (c : BitVec 3) (d : BitVec 4) (e : BitVec 4) (a : BitVec 5) (i : BitVec 5)
  /-- FMTQ (R114). -/
  | fmtq (n : BitVec 1) (g : BitVec 4) (a : BitVec 5)
  /-- SETN_REG (R115). -/
  | setnReg (n : BitVec 1) (g : BitVec 4) (k : BitVec 3) (a : BitVec 5)
  /-- SETN_IMM (R115). -/
  | setnImm (n : BitVec 1) (g : BitVec 4) (k : BitVec 3) (i : BitVec 12)
  /-- SLIP (R116). -/
  | slip (n : BitVec 1) (g : BitVec 4) (i : BitVec 12)
  /-- BRL (R117). -/
  | brl (n : BitVec 1) (g : BitVec 4) (o : BitVec 17)
  /-- RET (R117). -/
  | ret (n : BitVec 1) (g : BitVec 4)
  /-- JMPR (R117). -/
  | jmpr (n : BitVec 1) (g : BitVec 4) (a : BitVec 5)
  /-- SRD (R238). -/
  | srd (n : BitVec 1) (g : BitVec 4) (d : BitVec 5) (r : BitVec 12)
  /-- SWR (R238). -/
  | swr (n : BitVec 1) (g : BitVec 4) (a : BitVec 5) (r : BitVec 12)
  /-- TRAP (R239). -/
  | trap (n : BitVec 1) (g : BitVec 4) (i : BitVec 12)
  /-- TRAPRET (R243). -/
  | trapret (n : BitVec 1) (g : BitVec 4)
  /-- TRAPINSTALL (R244). -/
  | trapinstall (n : BitVec 1) (g : BitVec 4) (a : BitVec 5) (b : BitVec 5)
  /-- LAUNCH (R250). -/
  | launch (n : BitVec 1) (g : BitVec 4) (a : BitVec 5) (b : BitVec 5)
  /-- PQUIESCE (R251). -/
  | pquiesce (n : BitVec 1) (g : BitVec 4) (a : BitVec 5)
  /-- PSTATUS (R251). -/
  | pstatus (n : BitVec 1) (g : BitVec 4) (d : BitVec 5) (a : BitVec 5)
  /-- PBOUND (R252). -/
  | pbound (n : BitVec 1) (g : BitVec 4) (a : BitVec 5) (b : BitVec 5)
  /-- TLBSHOOT (R253). -/
  | tlbshoot (n : BitVec 1) (g : BitVec 4) (a : BitVec 5) (b : BitVec 5) (s : BitVec 2)
  /-- DBG (R255). -/
  | dbg (n : BitVec 1) (g : BitVec 4) (i : BitVec 12)
  /-- SUSPEND (R254). -/
  | suspend (n : BitVec 1) (g : BitVec 4) (a : BitVec 5)
  /-- LDQ (R133). -/
  | ldq (n : BitVec 1) (g : BitVec 4) (q : BitVec 4) (k : BitVec 5) (b : BitVec 5) (z : BitVec 2)
  /-- LDV (R136). -/
  | ldv (n : BitVec 1) (g : BitVec 4) (c : BitVec 5) (k : BitVec 5) (b : BitVec 5)
  /-- STQ (R135). -/
  | stq (n : BitVec 1) (g : BitVec 4) (q : BitVec 4) (k : BitVec 5) (b : BitVec 5)
  /-- WAITSIG (R143). -/
  | waitsig (n : BitVec 1) (g : BitVec 4) (d : BitVec 5) (k : BitVec 5) (b : BitVec 5) (z : BitVec 1)
  /-- FENCE (R144). -/
  | fence (n : BitVec 1) (g : BitVec 4) (k : BitVec 2) (s : BitVec 3)
  /-- KEEP (R152). -/
  | keep (n : BitVec 1) (g : BitVec 4) (c : BitVec 5) (k : BitVec 5) (b : BitVec 5)
  /-- UNKEEP (R152). -/
  | unkeep (n : BitVec 1) (g : BitVec 4) (c : BitVec 5) (k : BitVec 5) (b : BitVec 5)
  /-- CWAIT (R151). -/
  | cwait (n : BitVec 1) (g : BitVec 4) (d : BitVec 5) (k : BitVec 5) (b : BitVec 5)
  /-- KSET (R122). -/
  | kset (n : BitVec 1) (g : BitVec 4) (d : BitVec 5) (a : BitVec 5) (b : BitVec 5)
  /-- KOFF (R122). -/
  | koff (n : BitVec 1) (g : BitVec 4) (d : BitVec 5) (a : BitVec 5) (b : BitVec 5)
  /-- KLIM (R122). -/
  | klim (n : BitVec 1) (g : BitVec 4) (d : BitVec 5) (a : BitVec 5) (b : BitVec 5)
  /-- KRIGHTS (R122). -/
  | krights (n : BitVec 1) (g : BitVec 4) (d : BitVec 5) (a : BitVec 5) (b : BitVec 5)
  /-- KMOV (R122). -/
  | kmov (n : BitVec 1) (g : BitVec 4) (d : BitVec 5) (a : BitVec 5)
  /-- KLD (R124). -/
  | kld (n : BitVec 1) (g : BitVec 4) (d : BitVec 5) (a : BitVec 5) (b : BitVec 5)
  /-- KST (R125). -/
  | kst (n : BitVec 1) (g : BitVec 4) (c : BitVec 5) (a : BitVec 5) (b : BitVec 5)
  /-- KTEST (R123). -/
  | ktest (n : BitVec 1) (g : BitVec 4) (d : BitVec 5) (a : BitVec 5) (b : BitVec 5)
  /-- LD_Z (R130). -/
  | ldZ (n : BitVec 1) (g : BitVec 4) (d : BitVec 5) (k : BitVec 5) (b : BitVec 5) (z : BitVec 2)
  /-- LD_S (R130). -/
  | ldS (n : BitVec 1) (g : BitVec 4) (d : BitVec 5) (k : BitVec 5) (b : BitVec 5) (z : BitVec 2)
  /-- LD_ACQ_Z (R130). -/
  | ldAcqZ (n : BitVec 1) (g : BitVec 4) (d : BitVec 5) (k : BitVec 5) (b : BitVec 5) (z : BitVec 2)
  /-- LD_ACQ_S (R130). -/
  | ldAcqS (n : BitVec 1) (g : BitVec 4) (d : BitVec 5) (k : BitVec 5) (b : BitVec 5) (z : BitVec 2)
  /-- ST (R131). -/
  | st (n : BitVec 1) (g : BitVec 4) (c : BitVec 5) (k : BitVec 5) (b : BitVec 5) (z : BitVec 2)
  /-- ST_REL (R131). -/
  | stRel (n : BitVec 1) (g : BitVec 4) (c : BitVec 5) (k : BitVec 5) (b : BitVec 5) (z : BitVec 2)
  /-- ST_SIG (R131). -/
  | stSig (n : BitVec 1) (g : BitVec 4) (c : BitVec 5) (k : BitVec 5) (b : BitVec 5) (z : BitVec 2)
  /-- ST_REL_SIG (R131). -/
  | stRelSig (n : BitVec 1) (g : BitVec 4) (c : BitVec 5) (k : BitVec 5) (b : BitVec 5) (z : BitVec 2)
  /-- ATOM (R138). -/
  | atom (n : BitVec 1) (g : BitVec 4) (d : BitVec 5) (k : BitVec 5) (o : BitVec 5) (z : BitVec 1) (s : BitVec 1)
  /-- RED (R139). -/
  | red (n : BitVec 1) (g : BitVec 4) (c : BitVec 5) (k : BitVec 5) (o : BitVec 5) (z : BitVec 1) (s : BitVec 1)
  /-- RCLAIM (R146). -/
  | rclaim (n : BitVec 1) (g : BitVec 4) (d : BitVec 5) (k : BitVec 5) (b : BitVec 5)
  /-- RCOMMIT (R146). -/
  | rcommit (n : BitVec 1) (g : BitVec 4) (k : BitVec 5) (b : BitVec 5)
  /-- RWAITF (R146). -/
  | rwaitf (n : BitVec 1) (g : BitVec 4) (d : BitVec 5) (k : BitVec 5) (b : BitVec 5)
  /-- RWAITE (R146). -/
  | rwaite (n : BitVec 1) (g : BitVec 4) (d : BitVec 5) (k : BitVec 5) (b : BitVec 5)
  /-- RRELEASE (R146). -/
  | rrelease (n : BitVec 1) (g : BitVec 4) (k : BitVec 5) (b : BitVec 5)
  /-- BARINIT (R147). -/
  | barinit (n : BitVec 1) (g : BitVec 4) (k : BitVec 5) (b : BitVec 5)
  /-- BARARRIVE (R147). -/
  | bararrive (n : BitVec 1) (g : BitVec 4) (k : BitVec 5) (b : BitVec 5)
  /-- BARWAIT (R147). -/
  | barwait (n : BitVec 1) (g : BitVec 4) (k : BitVec 5) (b : BitVec 5)
  /-- COPY (R148). -/
  | copy (n : BitVec 1) (g : BitVec 4) (d : BitVec 5) (a : BitVec 5) (c : BitVec 5)
  /-- COPYMC (R148). -/
  | copymc (n : BitVec 1) (g : BitVec 4) (d : BitVec 5) (a : BitVec 5) (c : BitVec 5)
  /-- GATHER (R148). -/
  | gather (n : BitVec 1) (g : BitVec 4) (d : BitVec 5) (a : BitVec 5) (c : BitVec 5)
  /-- SCATTER (R148). -/
  | scatter (n : BitVec 1) (g : BitVec 4) (d : BitVec 5) (a : BitVec 5) (c : BitVec 5)
  /-- NOP (R245). -/
  | nop (n : BitVec 1) (g : BitVec 4)
  /-- BR (R245). -/
  | br (n : BitVec 1) (g : BitVec 4) (o : BitVec 17)
  /-- LOOP (R245). -/
  | loop (n : BitVec 1) (g : BitVec 4) (o : BitVec 17)
  /-- NOTIFY (R249). -/
  | notify (n : BitVec 1) (g : BitVec 4)
  /-- NOTIFY_CONT (R275). -/
  | notifyCont (n : BitVec 1) (g : BitVec 4)
  /-- YIELD (R248). -/
  | yield (n : BitVec 1) (g : BitVec 4) (l : BitVec 12)
  /-- PHASE (R247). -/
  | phase (n : BitVec 1) (g : BitVec 4) (p : BitVec 12)
  /-- CBAR (R246). -/
  | cbar (n : BitVec 1) (g : BitVec 4)
  /-- VADD (R159). -/
  | vadd (w : VWord)
  /-- VSUB (R159). -/
  | vsub (w : VWord)
  /-- VMUL (R159). -/
  | vmul (w : VWord)
  /-- VFMA (R159). -/
  | vfma (w : VWord)
  /-- VFMS (R159). -/
  | vfms (w : VWord)
  /-- VABS (R159). -/
  | vabs (w : VWord)
  /-- VMIN (R159). -/
  | vmin (w : VWord)
  /-- VMAX (R159). -/
  | vmax (w : VWord)
  /-- VRCP (R160). -/
  | vrcp (w : VWord)
  /-- VRSQ (R160). -/
  | vrsq (w : VWord)
  /-- VSQRT (R160). -/
  | vsqrt (w : VWord)
  /-- VEXP2 (R160). -/
  | vexp2 (w : VWord)
  /-- VLOG2 (R160). -/
  | vlog2 (w : VWord)
  /-- VIADD (R161). -/
  | viadd (w : VWord)
  /-- VISUB (R161). -/
  | visub (w : VWord)
  /-- VIMUL (R161). -/
  | vimul (w : VWord)
  /-- VSHL (R161). -/
  | vshl (w : VWord)
  /-- VSHR (R161). -/
  | vshr (w : VWord)
  /-- VAND (R161). -/
  | vand (w : VWord)
  /-- VOR (R161). -/
  | vor (w : VWord)
  /-- VXOR (R161). -/
  | vxor (w : VWord)
  /-- VIMIN (R161). -/
  | vimin (w : VWord)
  /-- VIMAX (R161). -/
  | vimax (w : VWord)
  /-- VCMP_EQ (R162). -/
  | vcmpEq (w : VWord)
  /-- VCMP_NE (R162). -/
  | vcmpNe (w : VWord)
  /-- VCMP_LT (R162). -/
  | vcmpLt (w : VWord)
  /-- VCMP_LE (R162). -/
  | vcmpLe (w : VWord)
  /-- VCMP_GT (R162). -/
  | vcmpGt (w : VWord)
  /-- VCMP_GE (R162). -/
  | vcmpGe (w : VWord)
  /-- VCMP_UO (R162). -/
  | vcmpUo (w : VWord)
  /-- VCLASS (R163). -/
  | vclass (w : VWord)
  /-- VSEL (R164). -/
  | vsel (w : VWord)
  /-- VPERM (R165). -/
  | vperm (w : VWord)
  /-- VROTM (R166). -/
  | vrotm (w : VWord)
  /-- VBCAST (R167). -/
  | vbcast (w : VWord)
  /-- VZIP (R168). -/
  | vzip (w : VWord)
  /-- VUNZIP (R168). -/
  | vunzip (w : VWord)
  /-- VMOV (R169). -/
  | vmov (w : VWord)
  /-- VCVT (R170). -/
  | vcvt (src : BitVec 5) (w : VWord)
  /-- VPACK (R171). -/
  | vpack (w : VWord)
  /-- VUNPACK (R172). -/
  | vunpack (w : VWord)
  /-- VRSUM (R173). -/
  | vrsum (w : VWord)
  /-- VRMAX (R173). -/
  | vrmax (w : VWord)
  /-- VRMIN (R173). -/
  | vrmin (w : VWord)
  /-- MLOGIC (R174). -/
  | mlogic (w : VWord)
  /-- MPOP (R175). -/
  | mpop (w : VWord)
  /-- MFIRST (R175). -/
  | mfirst (w : VWord)
  /-- RMUL (R227). -/
  | rmul (w : VWord)
  /-- RADD (R227). -/
  | radd (w : VWord)
  /-- RFMA (R227). -/
  | rfma (w : VWord)
  /-- RNAR (R227). -/
  | rnar (w : VWord)
  /-- RLRELU (R227). -/
  | rlrelu (w : VWord)
  /-- UNMUL (R231). -/
  | unmul (w : VWord)
  /-- UNADD (R231). -/
  | unadd (w : VWord)
  /-- UNFMA (R231). -/
  | unfma (w : VWord)
  /-- UNNAR (R231). -/
  | unnar (w : VWord)
  /-- UNLRELU (R231). -/
  | unlrelu (w : VWord)
  /-- RMARK (R232). -/
  | rmark (w : VWord)
  /-- RDROP (R233). -/
  | rdrop (w : VWord)
  /-- MSTEP (R185). -/
  | mstep (w : MWord)
  /-- MGATHER (R185). -/
  | mgather (w : MWord)
  /-- MZERO (R187). -/
  | mzero (w : MWord)
  /-- MLOADACC (R187). -/
  | mloadacc (w : MWord)
  /-- MDRAIN (R187). -/
  | mdrain (w : MWord)
  /-- MRDRAIN (R190). -/
  | mrdrain (w : MWord)
  /-- SLOAD (R202). -/
  | sload (w : SWord)
  /-- SSTORE (R202). -/
  | sstore (w : SWord)
  /-- SZERO (R202). -/
  | szero (w : SWord)
  /-- SREAD (R202). -/
  | sread (w : SWord)
  /-- SCAN (R207). -/
  | scan (w : SWord)
  /-- SAGG (R212). -/
  | sagg (w : SWord)
  /-- SNET (R213). -/
  | snet (w : SWord)
  /-- CSEND (R214). -/
  | csend (w : SWord)
  /-- CRECV (R214). -/
  | crecv (w : SWord)
  /-- SAPPLY (R215). -/
  | sapply (w : SWord)
  /-- STEP (R208). -/
  | step (w : SWord)
  /-- SOPSET_DIAG (R203). -/
  | sopsetDiag (w : SWord)
  /-- SOPSET_BD2 (R203). -/
  | sopsetBd2 (w : SWord)
  /-- SOPSET_BD4 (R203). -/
  | sopsetBd4 (w : SWord)
  /-- SOPSET_BD8 (R203). -/
  | sopsetBd8 (w : SWord)
  /-- SOPSET_MAXPLUS (R203). -/
  | sopsetMaxplus (w : SWord)
  /-- SOPSET_GSUM (R203). -/
  | sopsetGsum (w : SWord)
  /-- TRAP_TAKEN (R241). -/
  | trapTaken
  /-- CREW_END_BY_FAULT (R240). -/
  | crewEndByFault
  /-- MIGRATE_TRAP (R358). -/
  | migrateTrap
  /-- STALL_WATCHDOG (R269). -/
  | stallWatchdog
  /-- YIELD_SAVE (R248). -/
  | yieldSave
  /-- FORCED_SAVE (R356). -/
  | forcedSave
  /-- CONTEXT_RESTORE (R355). -/
  | contextRestore
  /-- CREW_RETIREMENT (R274). -/
  | crewRetirement
  /-- COMPLETION_INCREMENT (R150). -/
  | completionIncrement
  /-- COPY_ROW (R148). -/
  | copyRow
  /-- ENGINE_OPERATION_COMPLETE (R150). -/
  | engineOperationComplete
  /-- LOAD_DATA_RETURN (R130). -/
  | loadDataReturn
  /-- SPILL_BATCH (R223). -/
  | spillBatch
  /-- REFILL_BATCH (R223). -/
  | refillBatch
  /-- TRANSLATION_WALK (R338). -/
  | translationWalk
  /-- PAGE_FAULT_SWAP (R346). -/
  | pageFaultSwap
  /-- KEYED_UPDATE_APPLY (R57). -/
  | keyedUpdateApply
  /-- BANK_UPDATE (R55). -/
  | bankUpdate
  /-- WAITSIG_POLL (R143). -/
  | waitsigPoll
  /-- SCAN_NETWORK_CARRY (R213). -/
  | scanNetworkCarry
  /-- CARRY_PACKET_RECEIVE (R371). -/
  | carryPacketReceive
  /-- CARRY_ACKNOWLEDGEMENT (R370). -/
  | carryAcknowledgement
  /-- CARRY_CREDIT (R370). -/
  | carryCredit
  /-- CARRY_RESEND_REQUEST (R370). -/
  | carryResendRequest
  /-- CARRY_TIMEOUT (R372). -/
  | carryTimeout
  /-- CSEND_PORT_TIMEOUT (R372). -/
  | csendPortTimeout
  /-- RING_MESSAGE_RECEIVE (R375). -/
  | ringMessageReceive
  /-- FABRIC_RETRY (R376). -/
  | fabricRetry
  /-- REMOTE_ACKNOWLEDGEMENT (R374). -/
  | remoteAcknowledgement
  /-- VOID_REPLY (R378). -/
  | voidReply
  /-- LAUNCH_RECORD_ARRIVAL (R313). -/
  | launchRecordArrival
  /-- RECORD_READY (R314). -/
  | recordReady
  /-- CREW_PLACEMENT (R315). -/
  | crewPlacement
  /-- SCRUB_HOLD_END (R317). -/
  | scrubHoldEnd
  /-- CALENDAR_SWITCH (R320). -/
  | calendarSwitch
  /-- PIPELINE_ADD (R323). -/
  | pipelineAdd
  /-- PIPELINE_PARK (R323). -/
  | pipelinePark
  /-- PROGRESS_BOUND_MISSED (R321). -/
  | progressBoundMissed
  /-- LAUNCH_DIGEST (R361). -/
  | launchDigest
  /-- HOST_SUBMIT_LAUNCH (R433). -/
  | hostSubmitLaunch
  /-- HOST_COPY_TO_DEVICE (R433). -/
  | hostCopyToDevice
  /-- HOST_COPY_TO_HOST (R433). -/
  | hostCopyToHost
  /-- HOST_SUSPEND (R435). -/
  | hostSuspend
  /-- HOST_ECHO (R433). -/
  | hostEcho
  /-- DEVICE_EVENT (R433). -/
  | deviceEvent
  /-- HSQDB (R432). -/
  | hsqdb
  /-- HSQBASE (R434). -/
  | hsqbase
  /-- HSQCFG (R434). -/
  | hsqcfg
  /-- DEQBASE (R434). -/
  | deqbase
  /-- EQCFG (R419). -/
  | eqcfg
  /-- FQCFG (R345). -/
  | fqcfg
  /-- SET_OBJECT (R329). -/
  | setObject
  /-- INVAL_OBJECT (R329). -/
  | invalObject
  /-- SET_HOST_ENTRY (R337). -/
  | setHostEntry
  /-- INVAL_HOST_ENTRY (R329). -/
  | invalHostEntry
  /-- RESOLVE (R346). -/
  | resolve
  /-- ACTIVATE (R400). -/
  | activate
  /-- RESET (R408). -/
  | reset
  /-- TEARDOWN (R409). -/
  | teardown
  /-- FREEZE (R412). -/
  | freeze
  /-- ADMIT (R411). -/
  | admitMove
  /-- RELEASE (R415). -/
  | release
  /-- THAW (R400). -/
  | thaw
  /-- LIVE_MOVE_TRANSFER (R412). -/
  | liveMoveTransfer
  /-- PULL_FRAME (R413). -/
  | pullFrame
  /-- CID_DRAIN_COMPLETE (R386). -/
  | cidDrainComplete
  /-- ASSIGN (R405). -/
  | assign
  /-- FREE (R405). -/
  | free
  /-- PULLMARK (R405). -/
  | pullmark
  /-- QUERY (R405). -/
  | query
  /-- BLOCK_SCRUB (R406). -/
  | blockScrub
  /-- GALLOC (R383). -/
  | galloc
  /-- GRELEASE (R383). -/
  | grelease
  /-- ATTESTATION_REQUEST (R428). -/
  | attestationRequest
  /-- CALCOMMIT (R319). -/
  | calcommit
  /-- SPSLICE_WRITE (R403). -/
  | spsliceWrite
  /-- SPCORE_WRITE (R401). -/
  | spcoreWrite
  /-- TRANSLATION_REGISTER_WRITE (R327). -/
  | translationRegisterWrite
  /-- RETCFG_WRITE (R435). -/
  | retcfgWrite
  /-- LQCFG_WRITE (R312). -/
  | lqcfgWrite
  /-- STATO_WRITE (R378). -/
  | statoWrite
  /-- DBGCTL_WRITE (R256). -/
  | dbgctlWrite
  /-- SINGLE_STEP_END (R257). -/
  | singleStepEnd
  /-- REGISTER_WRITE (R3). -/
  | registerWrite
  /-- COLD_START (R440). -/
  | coldStart
  /-- BOOT_IMAGE_LOAD (R426). -/
  | bootImageLoad
  /-- FUNCTION_LEVEL_RESET (R429). -/
  | functionLevelReset
  /-- PWRWARN (R435). -/
  | pwrwarn
  /-- SUSPEND_SEQUENCE (R435). -/
  | suspendSequence
  /-- RESUME_REQUEST (R436). -/
  | resumeRequest
  /-- POWER_LOST (R437). -/
  | powerLost
  /-- CRITICAL_TEMPERATURE (R439). -/
  | criticalTemperature
  /-- HARDWARE_ERROR (R421). -/
  | hardwareError
  /-- SELF_TEST_VERDICT (R422). -/
  | selfTestVerdict
  /-- LINK_DOWN (R421). -/
  | linkDown
  /-- SLICE_RETIREMENT (R423). -/
  | sliceRetirement
  /-- PATROL_SCRUB (R425). -/
  | patrolScrub
  /-- ILLEGAL_INSTRUCTION (R94). -/
  | illegalInstruction
  /-- FETCH_CAPABILITY_BOUNDS (R63). -/
  | fetchCapabilityBounds
  /-- FQHEAD (R345). -/
  | fqhead
  /-- STUB_CLEAR (R414). -/
  | stubClear
  /-- TENCFG_WRITE (R398). -/
  | tencfgWrite
  /-- PWRCAP_WRITE (R439). -/
  | pwrcapWrite
  /-- MEMBER_RETURN_TIMEOUT (R438). -/
  | memberReturnTimeout
  /-- COMMONS_SHARE_CHANGE (R279). -/
  | commonsShareChange
deriving DecidableEq, Repr

end Sys2Proof
end

