-- ==== Sys2Proof/Machine/FieldCheck.lean ====
section
/-!
DEFINITION. Machine/FieldCheck.lean: the decode checks of R82 that depend on the instruction word alone:
reserved field values and unusable types (R4, R20, R67 to R76, R85 to R88, R156, R157, R181, R198, R226),
reserved registers (R73, R78) and queue naming (R71, R78, R80), in the order of R82.
-/
namespace Sys2Proof.FieldCheck

/-- A decode fault of R82 that the word alone decides. -/
inductive DecFault where
  | illegal | reservedReg | queueMisuse
  /-- illegal instruction for naming a queue of which the engine is not the endpoint (R78): step 5 of R82 -/
  | queueIllegal
deriving DecidableEq, Repr

/-- The first fault of a list of checks, each a condition and the fault it gives when the condition fails. -/
def firstFault : List (Bool × DecFault) → Option DecFault
  | [] => none
  | (ok, f) :: rest => if ok then firstFault rest else some f

/-- Illegal instruction unless the condition holds. -/
def need (ok : Bool) : Bool × DecFault := (ok, .illegal)

/-- Reserved register unless the condition holds. -/
def needReg (ok : Bool) : Bool × DecFault := (ok, .reservedReg)

/-- A capability number must lie in k0 to k15 (R78). -/
def kreg (k : BitVec 5) : Bool × DecFault := needReg (decide (k.toNat ≤ 15))

/-! ### Queues (R80) -/

/-- Queues carrying 64-byte rows. -/
def isRowQueue (q : Nat) : Bool := [0, 1, 7, 8, 10, 11, 12, 13].contains q

/-- Producer of a queue: 0 C, 1 A, 2 V, 3 M, 4 S; 5 for the reserved queues (R80). -/
def qProducer (q : Nat) : Nat := [1, 1, 1, 0, 0, 0, 2, 4, 2, 0, 3, 2, 4, 1].getD q 5

/-- Consumer of a queue (R80). -/
def qConsumer (q : Nat) : Nat := [2, 3, 0, 1, 2, 4, 0, 2, 4, 3, 2, 1, 1, 4].getD q 5

/-- The naming checks of a queue by engine `eng`, as producer or consumer, in row or 64-bit form: first the
endpoint (illegal instruction, R78), then the kind (queue misuse, R80). Only FMTQ and tile commands name q9. -/
def queueNaming (eng q : Nat) (asProducer row : Bool) : List (Bool × DecFault) :=
  [ (decide ((if asProducer then qProducer q else qConsumer q) = eng) && decide (q ≠ 9), .queueIllegal),
    (decide (isRowQueue q = row), .queueMisuse) ]

/-! ### Format codes (R19) -/

def isSInt (ty : Nat) : Bool := decide (ty ≤ 3)
def isInt (ty : Nat) : Bool := decide (ty ≤ 7)
/-- F of R156: .f32, .bf16, .f16. -/
def isF (ty : Nat) : Bool := decide (8 ≤ ty) && decide (ty ≤ 10)
/-- F8 of R156: .e4m3, .e5m2. -/
def isF8 (ty : Nat) : Bool := decide (11 ≤ ty) && decide (ty ≤ 12)
/-- Every type except .qn4 and the reserved codes. -/
def isAny (ty : Nat) : Bool := decide (ty ≤ 12)

/-- Element width in bits of a format code (R19). -/
def widthOf (ty : Nat) : Nat :=
  [8, 16, 32, 64, 8, 16, 32, 64, 32, 16, 16, 8, 8, 4].getD ty 8

/-! ### V operand descriptors (R70 to R73) -/

def dMode (d : BitVec 18) : Nat := d.toNat / 2 ^ 16
def dBase (d : BitVec 18) : Nat := d.toNat / 64 % 1024
def dStride (d : BitVec 18) : Int := sextN d.toNat 6
/-- The stride field as bits. -/
def dStrideBits (d : BitVec 18) : Nat := d.toNat % 64

/-- Repeats of a V word: 0 means 64 (R69). -/
def repOf (w : VWord) : Nat := if w.rep.toNat = 0 then 64 else w.rep.toNat

/-- Aux field parts (R74). -/
def auxSat (w : VWord) : Bool := w.aux.getLsbD 7
def auxRM (w : VWord) : Nat := w.aux.toNat / 32 % 4
def auxRO (w : VWord) : Bool := w.aux.getLsbD 4
def auxMD2 (w : VWord) : Nat := w.aux.toNat % 16

/-- Every register of `base + f j` for the repeats, with `extra` further registers, lies in `0 .. top`. -/
def regsWithin (top : Int) (rep : Nat) (reg : Nat → Int) (extra : Nat) : Bool :=
  (List.range rep).all fun j => decide (0 ≤ reg j) && decide (reg j + (extra : Int) ≤ top)

/-- Immediate-table indices legal for a type (R72). -/
def immLegal (ty i : Nat) : Bool :=
  if isInt ty then decide (i < 0x200) || decide (i = 0x214) || decide (i = 0x215)
  else decide (i ≤ 0x217)

/-- How a V opcode uses a descriptor (R156, R157). -/
inductive DUse where
  /-- unused: all zeros -/
  | none
  /-- element-vector source in any mode -/
  | src
  /-- source in register mode only -/
  | srcReg
  /-- source in register or row-queue mode (index vector of VPERM) -/
  | srcVec
  /-- destination in register, row-queue or scalar-queue mode -/
  | dst
  /-- destination that is also read: register mode only -/
  | dstReg
  /-- destination of two registers per repeat -/
  | dst2
  /-- mask position -/
  | mask
  /-- class set of VCLASS: mode 0b11, index 0x000 to 0x1FF -/
  | classSet
  /-- byte count of VROTM -/
  | byteCount
  /-- source of two registers r and r + 1 (VROTM) -/
  | srcPair
  /-- lane of VBCAST -/
  | lane
  /-- part of VCVT or RNAR, below the bound -/
  | part (q : Nat)
  /-- scale of VPACK: scalar queue -/
  | scale
  /-- scale of VUNPACK: scalar queue, or immediate index 0 -/
  | scaleOrBare
  /-- code register of VPACK (destination) or VUNPACK (source), advancing once per P repeats -/
  | codes (p : Nat)
  /-- slope of RLRELU: mode 0b11, index 0x200 to 0x20F -/
  | slope
  /-- marker number: mode 0b11, index 0 to 255 -/
  | marker
deriving DecidableEq, Repr

/-- What a V opcode accepts (R156, R226). -/
structure VSpec where
  tyOk : Bool
  d0 : DUse
  d1 : DUse
  d2 : DUse
  sat : Bool
  ro : Bool
  md2 : Bool
deriving DecidableEq, Repr

/-- Mode and field limits of one descriptor, all illegal instruction (R70, R71, R157). -/
def dFields (ty : Nat) (d : BitVec 18) (u : DUse) : Bool :=
  let m := dMode d
  let zeroStride := decide (dStrideBits d = 0)
  let b := dBase d
  let scalarStride := decide (dStrideBits d ≤ 1)
  match u with
  | .none => decide (d.toNat = 0)
  | .src =>
      match m with
      | 0 => true
      | 1 => zeroStride && decide (b ≤ 15)
      | 2 => scalarStride && decide (b ≤ 15)
      | _ => zeroStride && immLegal ty b
  | .srcReg => decide (m = 0)
  | .srcPair => decide (m = 0)
  | .srcVec => decide (m = 0) || (decide (m = 1) && zeroStride && decide (b ≤ 15))
  | .dst =>
      match m with
      | 0 => true
      | 1 => zeroStride && decide (b ≤ 15)
      | 2 => scalarStride && decide (b ≤ 15)
      | _ => false
  | .dstReg => decide (m = 0)
  | .dst2 => decide (m = 0) || (decide (m = 1) && zeroStride && decide (b ≤ 15))
  | .mask => decide (m = 0)
  | .classSet => decide (m = 3) && zeroStride && decide (b ≤ 0x1FF)
  | .byteCount =>
      (decide (m = 3) && zeroStride && decide (b ≤ 63)) || (decide (m = 2) && scalarStride && decide (b ≤ 15))
  | .lane =>
      (decide (m = 3) && zeroStride && decide (b < 512 / widthOf ty)) ||
        (decide (m = 2) && scalarStride && decide (b ≤ 15))
  | .part q => decide (d.toNat = 0) || (decide (m = 3) && zeroStride && decide (b < q))
  | .scale => decide (m = 2) && scalarStride && decide (b ≤ 15)
  | .scaleOrBare =>
      (decide (m = 2) && scalarStride && decide (b ≤ 15)) || (decide (m = 3) && zeroStride && decide (b = 0))
  | .codes _ => decide (m = 0)
  | .slope => decide (m = 3) && zeroStride && decide (0x200 ≤ b) && decide (b ≤ 0x20F)
  | .marker => decide (m = 3) && zeroStride && decide (b ≤ 255)

/-- Registers that one descriptor reaches lie in v0 to v`top` (R73, R78) or m0 to m15 (R157). -/
def dRegsTo (top : Int) (rep : Nat) (d : BitVec 18) (u : DUse) : Bool :=
  let lin (j : Nat) : Int := (dBase d : Int) + (j : Int) * dStride d
  match u, dMode d with
  | .mask, _ => regsWithin 15 rep lin 0
  | .codes p, _ => regsWithin top rep (fun j => (dBase d : Int) + ((j / p : Nat) : Int) * dStride d) 0
  | .dst2, 0 => regsWithin top rep lin 1
  | .srcPair, 0 => regsWithin top rep lin 1
  | .src, 0 | .srcReg, 0 | .srcVec, 0 | .dst, 0 | .dstReg, 0 => regsWithin top rep lin 0
  | _, _ => true

/-- Registers that one descriptor reaches (R73, R157), else reserved register. -/
def dRegs (rep : Nat) (d : BitVec 18) (u : DUse) : Bool := dRegsTo 767 rep d u

/-- The endpoint checks of queue naming before the kind checks (R82 step 5). -/
def endpointsFirst (l : List (Bool × DecFault)) : List (Bool × DecFault) :=
  (l.filter fun x => decide (x.2 = .queueIllegal)) ++ l.filter fun x => decide (x.2 ≠ .queueIllegal)

/-- Queue naming of one descriptor (R71, R78, R80). -/
def dQueues (d : BitVec 18) (u : DUse) : List (Bool × DecFault) :=
  let producer := match u with
    | .dst | .dst2 | .dstReg => true
    | _ => false
  match dMode d with
  | 1 => queueNaming 2 (dBase d) producer true
  | 2 => queueNaming 2 (dBase d) producer false
  | _ => []

/-- Checks of a V word against what its opcode accepts, in the order of R82; `t1` is the format in which D1 is
read (the source format of VCVT, else the word's type). -/
def vCheckAs (t1 : Nat) (w : VWord) (sp : VSpec) : Option DecFault :=
  let ty := w.ty.toNat
  let rep := repOf w
  firstFault (
    [ need sp.tyOk,
      need (decide (w.aux.toNat / 256 = 0)),
      need (sp.sat || !auxSat w),
      need (sp.ro || (!auxRO w && decide (auxRM w = 0))),
      need (auxRO w || decide (auxRM w = 0)),
      need (sp.md2 || decide (auxMD2 w = 0)),
      need (dFields ty w.d0 sp.d0), need (dFields t1 w.d1 sp.d1), need (dFields ty w.d2 sp.d2),
      needReg (dRegs rep w.d0 sp.d0), needReg (dRegs rep w.d1 sp.d1), needReg (dRegs rep w.d2 sp.d2),
      needReg (!sp.md2 || (decide (auxMD2 w = 0) && decide (dStrideBits w.d0 = 0)) ||
        regsWithin 15 rep (fun j => (auxMD2 w : Int) + (j : Int) * dStride w.d0) 0) ]
    ++ endpointsFirst (dQueues w.d0 sp.d0 ++ dQueues w.d1 sp.d1 ++ dQueues w.d2 sp.d2))

/-- Checks of a V word whose operands are of its own type. -/
def vCheck (w : VWord) (sp : VSpec) : Option DecFault := vCheckAs w.ty.toNat w sp

/-- Floating binary form (VADD, VSUB, VMUL). -/
def spFBin (ty : Nat) : VSpec := ⟨isF ty, .dst, .src, .src, true, true, false⟩
/-- VFMA, VFMS. -/
def spFma (ty : Nat) : VSpec := ⟨isF ty, .dstReg, .src, .src, true, true, false⟩
def spAbs (ty : Nat) : VSpec := ⟨isF ty || isSInt ty, .dst, .src, .none, isSInt ty, false, false⟩
def spMinMax (ty : Nat) : VSpec := ⟨isF ty, .dst, .src, .src, false, false, false⟩
/-- VRCP to VLOG2. -/
def spFUn (ty : Nat) : VSpec := ⟨isF ty, .dst, .src, .none, true, true, false⟩
def spIntSat (ty : Nat) : VSpec := ⟨isInt ty, .dst, .src, .src, true, false, false⟩
def spInt (ty : Nat) : VSpec := ⟨isInt ty, .dst, .src, .src, false, false, false⟩
def spCmp (ty : Nat) : VSpec := ⟨isF ty || isInt ty, .mask, .src, .src, false, false, true⟩
def spUo (ty : Nat) : VSpec := ⟨isF ty, .mask, .src, .src, false, false, true⟩
def spClass (ty : Nat) : VSpec := ⟨isF ty || isF8 ty, .mask, .src, .classSet, false, false, true⟩
def spSel (ty : Nat) : VSpec := ⟨isAny ty, .dst, .src, .src, false, false, false⟩
def spPerm (ty : Nat) : VSpec := ⟨isAny ty, .dst, .src, .srcVec, false, false, false⟩
def spRotm (ty : Nat) : VSpec := ⟨isInt ty, .dst, .srcPair, .byteCount, false, false, false⟩
def spBcast (ty : Nat) : VSpec := ⟨isAny ty, .dst, .src, .lane, false, false, false⟩
def spZip (ty : Nat) : VSpec := ⟨isAny ty, .dst2, .src, .src, false, false, false⟩
def spMov (ty : Nat) : VSpec := ⟨isAny ty, .dst, .src, .none, false, false, false⟩
/-- VCVT (R170): SAT is illegal from floating to integer, RO from integer to integer. -/
def spCvt (src ty : Nat) : VSpec :=
  let q := max (widthOf src) (widthOf ty) / min (widthOf src) (widthOf ty)
  ⟨isAny ty && isAny src && decide (src ≠ ty), .dst, .src, .part q,
   !(!isInt src && isInt ty), !(isInt src && isInt ty), false⟩
def spPack (ty : Nat) : VSpec :=
  ⟨decide (ty = 8) || decide (ty = 9), .codes (128 / (512 / widthOf ty)), .src, .scale, false, false, false⟩
def spUnpack (ty : Nat) : VSpec :=
  ⟨decide (ty = 8) || decide (ty = 9), .dst, .codes (128 / (512 / widthOf ty)), .scaleOrBare, true, true, false⟩
def spRsum (ty : Nat) : VSpec := ⟨isF ty || isInt ty, .dst, .src, .none, false, isF ty, false⟩
def spRmm (ty : Nat) : VSpec := ⟨isF ty || isInt ty, .dst, .src, .none, false, false, false⟩
def spMlogic (ty : Nat) : VSpec := ⟨decide (ty < 16), .mask, .mask, .mask, false, false, false⟩
def spMpop (ty : Nat) : VSpec := ⟨isInt ty, .dst, .mask, .none, false, false, false⟩
/-- RMUL, RADD and their undos (R226). -/
def spRbin (ty : Nat) : VSpec := ⟨isF ty, .dstReg, .srcReg, .srcReg, false, false, false⟩
def spRnar (ty : Nat) : VSpec := ⟨decide (ty = 9) || decide (ty = 10), .dstReg, .srcReg, .part 2, false, false, false⟩
def spRlrelu (ty : Nat) : VSpec := ⟨isF ty, .dstReg, .srcReg, .slope, false, false, false⟩
def spMark (w : VWord) : VSpec :=
  ⟨decide (w.ty.toNat = 0) && decide (w.g.toNat = 0) && !w.neg && decide (w.nsel.toNat = 0) &&
     decide (w.rep.toNat = 1), .none, .none, .marker, false, false, false⟩

/-! ### M words (R76, R181) -/

def z15 (x : BitVec 15) : Bool := decide (x.toNat = 0)

/-- MSTEP and MGATHER. -/
def mStepCheck (gather : Bool) (w : MWord) : Option DecFault :=
  firstFault
    [ need (!(w.byp && w.aq)),
      need (decide (w.ge = gather)), need (!(gather && w.byp)),
      need (!(w.byp || w.aq) || (z15 w.rowA && z15 w.strideA)),
      need (gather || z15 w.rowG), need (!w.se && z15 w.rowS), need (!w.dq), need (z15 w.rowC) ]

/-- The operand fields that only tile steps use are zero. -/
def mNoStep (w : MWord) : Bool :=
  !w.byp && z15 w.rowA && z15 w.strideA && z15 w.rowB && z15 w.strideB && decide (w.kdepth.toNat = 0) &&
    !w.ge && z15 w.rowG

def mZeroCheck (w : MWord) : Option DecFault :=
  firstFault [need (mNoStep w && !w.acc && !w.se && z15 w.rowS && !w.aq && !w.dq && z15 w.rowC)]

def mLoadCheck (w : MWord) : Option DecFault :=
  firstFault [need (mNoStep w && !w.se && z15 w.rowS && !w.dq), need (!w.aq || z15 w.rowC)]

def mDrainCheck (narrow : Bool) (w : MWord) : Option DecFault :=
  firstFault
    [ need (mNoStep w && !w.acc && !w.aq), need (!narrow || decide (w.nsel.toNat = 0)),
      need (!(w.se && w.dq)), need (!(w.dq || w.se) || z15 w.rowC) ]

/-! ### S words (R75, R198) -/

/-- Which fields an S opcode uses (R198). `q`: 0 none, 1 Qin, 2 Qout, 3 Qout required. -/
structure SSpec where
  h : Bool
  o : Bool
  nsel : Bool
  rowX : Bool
  rowY : Bool
  rowZ : Bool
  clen : Bool
  q : Nat
  xq : Bool
deriving DecidableEq, Repr

/-- Field checks of an S word (R75, R198). DESIGN CHOICE (log 89): Q is an unused field while QE = 0, so a non-zero Q is then
illegal; rowX and rowY stay fields of their opcode with QE = 1, so any value of them is accepted and has no effect. -/
def sCheck (w : SWord) (sp : SSpec) : Option DecFault :=
  firstFault (
    [ need (sp.h || decide (w.h.toNat = 0)), need (sp.o || decide (w.o.toNat = 0)),
      need (sp.nsel || decide (w.nsel.toNat = 0)), need (sp.rowX || z15 w.rowX), need (sp.rowY || z15 w.rowY),
      need (sp.rowZ || z15 w.rowZ), need (sp.clen || decide (w.clen.toNat = 0)),
      need (!w.xq || (sp.xq && z15 w.rowX)),
      need (decide (sp.q ≠ 0) || !w.qe), need (w.qe || decide (w.q.toNat = 0)), need (decide (sp.q ≠ 3) || w.qe) ]
    ++ (if w.qe then queueNaming 4 w.q.toNat (decide (sp.q ≠ 1)) true else []))

def ssLoad : SSpec := ⟨true, false, true, true, false, false, false, 1, true⟩
def ssStore : SSpec := ⟨true, false, true, true, false, false, false, 2, true⟩
def ssZero : SSpec := ⟨true, false, true, false, false, false, false, 0, false⟩
def ssScan : SSpec := ⟨true, true, true, true, true, true, true, 2, true⟩
def ssAgg : SSpec := ⟨true, true, true, true, false, false, true, 0, true⟩
def ssNet : SSpec := ⟨true, true, true, false, false, false, true, 0, false⟩
def ssSend : SSpec := ⟨false, true, false, false, false, false, true, 0, false⟩
def ssStep : SSpec := ⟨true, true, true, true, true, true, false, 2, true⟩
def ssRead : SSpec := ⟨true, false, true, true, false, false, false, 3, true⟩
def ssOpset : SSpec := ⟨false, true, false, true, false, false, false, 0, true⟩

/-! ### The check of every instruction -/

/-- ATOM and RED operation field (R88). -/
def atomOpOk (isAtom : Bool) (o : BitVec 5) (z : BitVec 1) (d : BitVec 5) : Bool :=
  decide (o.toNat ≤ 12) && (isAtom || decide (o.toNat ≤ 10)) &&
    !(decide (z.toNat = 1) && (decide (o.toNat = 1) || decide (o.toNat = 9) || decide (o.toNat = 10))) &&
    !(decide (o.toNat = 12) && decide (d.toNat % 2 = 1))

def evenReg (c : BitVec 5) : Bool := decide (c.toNat % 2 = 0)

/-- The first decode fault, in the order of R82, that the fields of an instruction give. Events have no word and
no decode checks. -/
def check : Instr → Option DecFault
  | .add .. => none
  | .sub .. => none
  | .mul .. => none
  | .mulh _ _ _ _ _ _ s => firstFault [need (decide (s.toNat ≤ 2))]
  | .div _ _ _ _ _ _ s => firstFault [need (decide (s.toNat ≤ 1))]
  | .rem _ _ _ _ _ _ s => firstFault [need (decide (s.toNat ≤ 1))]
  | .and .. => none
  | .or .. => none
  | .xor .. => none
  | .andn .. => none
  | .shl .. => none
  | .shr .. => none
  | .sra .. => none
  | .rot .. => none
  | .min .. => none
  | .max .. => none
  | .minz .. => none
  | .maxz .. => none
  | .clz .. => none
  | .popc .. => none
  | .addi .. => none
  | .andi .. => none
  | .ori .. => none
  | .xori .. => none
  | .shli .. => none
  | .shri .. => none
  | .li .. => none
  | .liu .. => none
  | .plogic .. => none
  | .qpop t _ _ _ q => firstFault (queueNaming t.toNat q.toNat false false)
  | .qsend t _ _ q _ => firstFault (queueNaming t.toNat q.toNat true false)
  | .rdcyc .. => none
  | .rdid .. => none
  | .waitd .. => none
  | .sel .. => none
  | .cmp .. => none
  | .cmpi .. => none
  | .fmtq .. => none
  | .setnReg .. => none
  | .setnImm .. => none
  | .slip _ _ i => firstFault [need (decide (i.toNat = 0) || decide (4 ≤ i.toNat))]
  | .brl .. => none
  | .ret .. => none
  | .jmpr .. => none
  | .srd .. => none
  | .swr .. => none
  | .trap .. => none
  | .trapret .. => none
  | .trapinstall .. => none
  | .launch .. => none
  | .pquiesce .. => none
  | .pstatus .. => none
  | .pbound .. => none
  | .tlbshoot _ _ _ _ s => firstFault [need (decide (s.toNat ≤ 2))]
  | .dbg .. => none
  | .suspend .. => none
  | .ldq _ _ q k _ z => firstFault
      [ need (decide (q.toNat = 2) || decide (z.toNat = 0)), kreg k, (decide (qProducer q.toNat = 1), .queueIllegal) ]
  | .ldv _ _ _ k _ => firstFault [kreg k]
  | .stq _ _ q k _ => firstFault
      [ kreg k, (decide (qConsumer q.toNat = 1), .queueIllegal), (isRowQueue q.toNat, .queueMisuse) ]
  | .waitsig _ _ _ k _ _ => firstFault [kreg k]
  | .fence _ _ k s => firstFault [need (decide (s.toNat ≤ 5) && decide (k.toNat ≤ 2))]
  | .keep _ _ _ k _ => firstFault [kreg k]
  | .unkeep _ _ _ k _ => firstFault [kreg k]
  | .cwait _ _ _ k _ => firstFault [kreg k]
  | .kset _ _ d a _ => firstFault [kreg d, kreg a]
  | .koff _ _ d a _ => firstFault [kreg d, kreg a]
  | .klim _ _ d a _ => firstFault [kreg d, kreg a]
  | .krights _ _ d a _ => firstFault [kreg d, kreg a]
  | .kmov _ _ d a => firstFault [kreg d, kreg a]
  | .kld _ _ d a _ => firstFault [kreg d, kreg a]
  | .kst _ _ c a _ => firstFault [kreg a, kreg c]
  | .ktest _ _ _ a _ => firstFault [kreg a]
  | .ldZ _ _ _ k _ _ => firstFault [kreg k]
  | .ldS _ _ _ k _ _ => firstFault [kreg k]
  | .ldAcqZ _ _ _ k _ _ => firstFault [kreg k]
  | .ldAcqS _ _ _ k _ _ => firstFault [kreg k]
  | .st _ _ _ k _ _ => firstFault [kreg k]
  | .stRel _ _ _ k _ _ => firstFault [kreg k]
  | .stSig _ _ _ k _ _ => firstFault [kreg k]
  | .stRelSig _ _ _ k _ _ => firstFault [kreg k]
  | .atom _ _ d k o z _ => firstFault [need (atomOpOk true o z d), kreg k]
  | .red _ _ _ k o z _ => firstFault [need (atomOpOk false o z 0), kreg k]
  | .rclaim _ _ _ k _ => firstFault [kreg k]
  | .rcommit _ _ k _ => firstFault [kreg k]
  | .rwaitf _ _ _ k _ => firstFault [kreg k]
  | .rwaite _ _ _ k _ => firstFault [kreg k]
  | .rrelease _ _ k _ => firstFault [kreg k]
  | .barinit _ _ k _ => firstFault [kreg k]
  | .bararrive _ _ k _ => firstFault [kreg k]
  | .barwait _ _ k _ => firstFault [kreg k]
  | .copy _ _ d a _ => firstFault [kreg d, kreg a]
  | .copymc _ _ d a c => firstFault [need (evenReg c), kreg d, kreg a]
  | .gather _ _ d a c => firstFault [need (evenReg c), kreg d, kreg a]
  | .scatter _ _ d a c => firstFault [need (evenReg c), kreg d, kreg a]
  | .nop .. => none
  | .br .. => none
  | .loop .. => none
  | .notify .. => none
  | .notifyCont .. => none
  | .yield .. => none
  | .phase .. => none
  | .cbar .. => none
  | .vadd w => vCheck w (spFBin w.ty.toNat)
  | .vsub w => vCheck w (spFBin w.ty.toNat)
  | .vmul w => vCheck w (spFBin w.ty.toNat)
  | .vfma w => vCheck w (spFma w.ty.toNat)
  | .vfms w => vCheck w (spFma w.ty.toNat)
  | .vabs w => vCheck w (spAbs w.ty.toNat)
  | .vmin w => vCheck w (spMinMax w.ty.toNat)
  | .vmax w => vCheck w (spMinMax w.ty.toNat)
  | .vrcp w => vCheck w (spFUn w.ty.toNat)
  | .vrsq w => vCheck w (spFUn w.ty.toNat)
  | .vsqrt w => vCheck w (spFUn w.ty.toNat)
  | .vexp2 w => vCheck w (spFUn w.ty.toNat)
  | .vlog2 w => vCheck w (spFUn w.ty.toNat)
  | .viadd w => vCheck w (spIntSat w.ty.toNat)
  | .visub w => vCheck w (spIntSat w.ty.toNat)
  | .vimul w => vCheck w (spIntSat w.ty.toNat)
  | .vshl w => vCheck w (spIntSat w.ty.toNat)
  | .vshr w => vCheck w (spInt w.ty.toNat)
  | .vand w => vCheck w (spInt w.ty.toNat)
  | .vor w => vCheck w (spInt w.ty.toNat)
  | .vxor w => vCheck w (spInt w.ty.toNat)
  | .vimin w => vCheck w (spInt w.ty.toNat)
  | .vimax w => vCheck w (spInt w.ty.toNat)
  | .vcmpEq w => vCheck w (spCmp w.ty.toNat)
  | .vcmpNe w => vCheck w (spCmp w.ty.toNat)
  | .vcmpLt w => vCheck w (spCmp w.ty.toNat)
  | .vcmpLe w => vCheck w (spCmp w.ty.toNat)
  | .vcmpGt w => vCheck w (spCmp w.ty.toNat)
  | .vcmpGe w => vCheck w (spCmp w.ty.toNat)
  | .vcmpUo w => vCheck w (spUo w.ty.toNat)
  | .vclass w => vCheck w (spClass w.ty.toNat)
  | .vsel w => vCheck w (spSel w.ty.toNat)
  | .vperm w => vCheck w (spPerm w.ty.toNat)
  | .vrotm w => vCheck w (spRotm w.ty.toNat)
  | .vbcast w => vCheck w (spBcast w.ty.toNat)
  | .vzip w => vCheck w (spZip w.ty.toNat)
  | .vunzip w => vCheck w (spZip w.ty.toNat)
  | .vmov w => vCheck w (spMov w.ty.toNat)
  | .vcvt src w => vCheckAs src.toNat w (spCvt src.toNat w.ty.toNat)
  | .vpack w => vCheck w (spPack w.ty.toNat)
  | .vunpack w => vCheck w (spUnpack w.ty.toNat)
  | .vrsum w => vCheck w (spRsum w.ty.toNat)
  | .vrmax w => vCheck w (spRmm w.ty.toNat)
  | .vrmin w => vCheck w (spRmm w.ty.toNat)
  | .mlogic w => vCheck w (spMlogic w.ty.toNat)
  | .mpop w => vCheck w (spMpop w.ty.toNat)
  | .mfirst w => vCheck w (spMpop w.ty.toNat)
  | .rmul w => vCheck w (spRbin w.ty.toNat)
  | .radd w => vCheck w (spRbin w.ty.toNat)
  | .rfma w => vCheck w (spRbin w.ty.toNat)
  | .rnar w => vCheck w (spRnar w.ty.toNat)
  | .rlrelu w => vCheck w (spRlrelu w.ty.toNat)
  | .unmul w => vCheck w (spRbin w.ty.toNat)
  | .unadd w => vCheck w (spRbin w.ty.toNat)
  | .unfma w => vCheck w (spRbin w.ty.toNat)
  | .unnar w => vCheck w (spRnar w.ty.toNat)
  | .unlrelu w => vCheck w (spRlrelu w.ty.toNat)
  | .rmark w => vCheck w (spMark w)
  | .rdrop w => vCheck w (spMark w)
  | .mstep w => mStepCheck false w
  | .mgather w => mStepCheck true w
  | .mzero w => mZeroCheck w
  | .mloadacc w => mLoadCheck w
  | .mdrain w => mDrainCheck false w
  | .mrdrain w => mDrainCheck true w
  | .sload w => sCheck w ssLoad
  | .sstore w => sCheck w ssStore
  | .szero w => sCheck w ssZero
  | .sread w => if 128 ≤ w.rowX.toNat then some .illegal else sCheck w ssRead
  | .scan w => sCheck w ssScan
  | .sagg w => sCheck w ssAgg
  | .snet w => sCheck w ssNet
  | .csend w => sCheck w ssSend
  | .crecv w => sCheck w ssSend
  | .sapply w => sCheck w ssScan
  | .step w => sCheck w ssStep
  | .sopsetDiag w => sCheck w ssOpset
  | .sopsetBd2 w => sCheck w ssOpset
  | .sopsetBd4 w => sCheck w ssOpset
  | .sopsetBd8 w => sCheck w ssOpset
  | .sopsetMaxplus w => sCheck w ssOpset
  | .sopsetGsum w => sCheck w ssOpset
  | .trapTaken .. => none
  | .crewEndByFault .. => none
  | .migrateTrap .. => none
  | .stallWatchdog .. => none
  | .yieldSave .. => none
  | .forcedSave .. => none
  | .contextRestore .. => none
  | .crewRetirement .. => none
  | .completionIncrement .. => none
  | .copyRow .. => none
  | .engineOperationComplete .. => none
  | .loadDataReturn .. => none
  | .spillBatch .. => none
  | .refillBatch .. => none
  | .translationWalk .. => none
  | .pageFaultSwap .. => none
  | .keyedUpdateApply .. => none
  | .bankUpdate .. => none
  | .waitsigPoll .. => none
  | .scanNetworkCarry .. => none
  | .carryPacketReceive .. => none
  | .carryAcknowledgement .. => none
  | .carryCredit .. => none
  | .carryResendRequest .. => none
  | .carryTimeout .. => none
  | .csendPortTimeout .. => none
  | .ringMessageReceive .. => none
  | .fabricRetry .. => none
  | .remoteAcknowledgement .. => none
  | .voidReply .. => none
  | .launchRecordArrival => none
  | .recordReady .. => none
  | .crewPlacement .. => none
  | .scrubHoldEnd .. => none
  | .calendarSwitch .. => none
  | .pipelineAdd .. => none
  | .pipelinePark .. => none
  | .progressBoundMissed .. => none
  | .launchDigest .. => none
  | .hostSubmitLaunch .. => none
  | .hostCopyToDevice .. => none
  | .hostCopyToHost .. => none
  | .hostSuspend .. => none
  | .hostEcho .. => none
  | .deviceEvent .. => none
  | .hsqdb .. => none
  | .hsqbase .. => none
  | .hsqcfg .. => none
  | .deqbase .. => none
  | .eqcfg .. => none
  | .fqcfg .. => none
  | .setObject .. => none
  | .invalObject .. => none
  | .setHostEntry .. => none
  | .invalHostEntry .. => none
  | .resolve .. => none
  | .activate => none
  | .reset => none
  | .teardown => none
  | .freeze => none
  | .admitMove => none
  | .release => none
  | .thaw => none
  | .liveMoveTransfer .. => none
  | .pullFrame .. => none
  | .cidDrainComplete .. => none
  | .assign .. => none
  | .free .. => none
  | .pullmark .. => none
  | .query .. => none
  | .blockScrub .. => none
  | .galloc => none
  | .grelease => none
  | .attestationRequest .. => none
  | .calcommit .. => none
  | .spsliceWrite .. => none
  | .spcoreWrite .. => none
  | .translationRegisterWrite .. => none
  | .retcfgWrite .. => none
  | .lqcfgWrite .. => none
  | .statoWrite .. => none
  | .dbgctlWrite .. => none
  | .singleStepEnd .. => none
  | .registerWrite .. => none
  | .coldStart .. => none
  | .bootImageLoad => none
  | .functionLevelReset .. => none
  | .pwrwarn => none
  | .suspendSequence => none
  | .resumeRequest => none
  | .powerLost => none
  | .criticalTemperature .. => none
  | .hardwareError .. => none
  | .selfTestVerdict .. => none
  | .linkDown .. => none
  | .sliceRetirement .. => none
  | .patrolScrub .. => none
  | .illegalInstruction .. => none
  | .fetchCapabilityBounds => none
  | .fqhead .. => none
  | .stubClear .. => none
  | .tencfgWrite .. => none
  | .pwrcapWrite .. => none
  | .memberReturnTimeout .. => none
  | .commonsShareChange .. => none

/-- The V word of a vector instruction and what its opcode accepts. -/
def vspecOf : Instr → Option (VWord × VSpec)
  | .vadd w => some (w, spFBin w.ty.toNat)
  | .vsub w => some (w, spFBin w.ty.toNat)
  | .vmul w => some (w, spFBin w.ty.toNat)
  | .vfma w => some (w, spFma w.ty.toNat)
  | .vfms w => some (w, spFma w.ty.toNat)
  | .vabs w => some (w, spAbs w.ty.toNat)
  | .vmin w => some (w, spMinMax w.ty.toNat)
  | .vmax w => some (w, spMinMax w.ty.toNat)
  | .vrcp w => some (w, spFUn w.ty.toNat)
  | .vrsq w => some (w, spFUn w.ty.toNat)
  | .vsqrt w => some (w, spFUn w.ty.toNat)
  | .vexp2 w => some (w, spFUn w.ty.toNat)
  | .vlog2 w => some (w, spFUn w.ty.toNat)
  | .viadd w => some (w, spIntSat w.ty.toNat)
  | .visub w => some (w, spIntSat w.ty.toNat)
  | .vimul w => some (w, spIntSat w.ty.toNat)
  | .vshl w => some (w, spIntSat w.ty.toNat)
  | .vshr w => some (w, spInt w.ty.toNat)
  | .vand w => some (w, spInt w.ty.toNat)
  | .vor w => some (w, spInt w.ty.toNat)
  | .vxor w => some (w, spInt w.ty.toNat)
  | .vimin w => some (w, spInt w.ty.toNat)
  | .vimax w => some (w, spInt w.ty.toNat)
  | .vcmpEq w => some (w, spCmp w.ty.toNat)
  | .vcmpNe w => some (w, spCmp w.ty.toNat)
  | .vcmpLt w => some (w, spCmp w.ty.toNat)
  | .vcmpLe w => some (w, spCmp w.ty.toNat)
  | .vcmpGt w => some (w, spCmp w.ty.toNat)
  | .vcmpGe w => some (w, spCmp w.ty.toNat)
  | .vcmpUo w => some (w, spUo w.ty.toNat)
  | .vclass w => some (w, spClass w.ty.toNat)
  | .vsel w => some (w, spSel w.ty.toNat)
  | .vperm w => some (w, spPerm w.ty.toNat)
  | .vrotm w => some (w, spRotm w.ty.toNat)
  | .vbcast w => some (w, spBcast w.ty.toNat)
  | .vzip w => some (w, spZip w.ty.toNat)
  | .vunzip w => some (w, spZip w.ty.toNat)
  | .vmov w => some (w, spMov w.ty.toNat)
  | .vcvt src w => some (w, spCvt src.toNat w.ty.toNat)
  | .vpack w => some (w, spPack w.ty.toNat)
  | .vunpack w => some (w, spUnpack w.ty.toNat)
  | .vrsum w => some (w, spRsum w.ty.toNat)
  | .vrmax w => some (w, spRmm w.ty.toNat)
  | .vrmin w => some (w, spRmm w.ty.toNat)
  | .mlogic w => some (w, spMlogic w.ty.toNat)
  | .mpop w => some (w, spMpop w.ty.toNat)
  | .mfirst w => some (w, spMpop w.ty.toNat)
  | .rmul w => some (w, spRbin w.ty.toNat)
  | .radd w => some (w, spRbin w.ty.toNat)
  | .rfma w => some (w, spRbin w.ty.toNat)
  | .rnar w => some (w, spRnar w.ty.toNat)
  | .rlrelu w => some (w, spRlrelu w.ty.toNat)
  | .unmul w => some (w, spRbin w.ty.toNat)
  | .unadd w => some (w, spRbin w.ty.toNat)
  | .unfma w => some (w, spRbin w.ty.toNat)
  | .unnar w => some (w, spRnar w.ty.toNat)
  | .unlrelu w => some (w, spRlrelu w.ty.toNat)
  | .rmark w => some (w, spMark w)
  | .rdrop w => some (w, spMark w)
  | _ => none

end Sys2Proof.FieldCheck
end

