-- ==== Sys2Proof/WellFormed.lean ====
section
/-!
DEFINITION. WellFormed.lean: when an instruction, as syntax, is one that R82 lets through its word-only decode checks.
-/
namespace Sys2Proof

/-- The instruction passes every decode check of R82 that its word alone decides. -/
def Instr.wf (i : Instr) : Bool := (FieldCheck.check i).isNone

end Sys2Proof
end

