-- ==== Sys2Proof/Decode.lean ====
section
/-!
DEFINITION. Decode.lean: program text to instructions and back (R60 to R94). An instruction is read as one number
`w` whose bit 0 is the least significant bit of its first parcel; later parcels follow upwards. Decoding is total:
it answers an instruction, or the decode fault of R82 that the word alone decides. `encode` writes the words.
-/
namespace Sys2Proof

open FieldCheck (DecFault)

/-- The `n`-bit field of `w` whose lowest bit is `lo`. -/
def bf (w lo n : Nat) : BitVec n := BitVec.ofNat n (w / 2 ^ lo)

/-- The one-bit field of `w` at `lo`. -/
def bb (w lo : Nat) : Bool := decide (w / 2 ^ lo % 2 = 1)

/-- Engine tag, bits 31:29 of the first parcel (R60). -/
def tagOf (w : Nat) : Nat := w / 2 ^ 29 % 8

/-- Length in bytes that a tag fixes (R60); 0 for the reserved tags. -/
def tagBytes : Nat → Nat
  | 0 => 4
  | 1 => 4
  | 2 => 12
  | 3 => 24
  | 4 => 12
  | 5 => 4
  | _ => 0

/-- The shared scalar block, below SEL and the compares (R85). -/
def decodeShared (w : Nat) : Nat → Option Instr
  | 1 => if w / 2 ^ 0 % 2 ^ 2 = 0 then some (.add (bf w 29 1) (bf w 28 1) (bf w 24 4) (bf w 12 5) (bf w 7 5) (bf w 2 5)) else none
  | 2 => if w / 2 ^ 0 % 2 ^ 2 = 0 then some (.sub (bf w 29 1) (bf w 28 1) (bf w 24 4) (bf w 12 5) (bf w 7 5) (bf w 2 5)) else none
  | 3 => if w / 2 ^ 0 % 2 ^ 2 = 0 then some (.mul (bf w 29 1) (bf w 28 1) (bf w 24 4) (bf w 12 5) (bf w 7 5) (bf w 2 5)) else none
  | 4 => some (.mulh (bf w 29 1) (bf w 28 1) (bf w 24 4) (bf w 12 5) (bf w 7 5) (bf w 2 5) (bf w 0 2))
  | 5 => some (.div (bf w 29 1) (bf w 28 1) (bf w 24 4) (bf w 12 5) (bf w 7 5) (bf w 2 5) (bf w 0 2))
  | 6 => some (.rem (bf w 29 1) (bf w 28 1) (bf w 24 4) (bf w 12 5) (bf w 7 5) (bf w 2 5) (bf w 0 2))
  | 7 => if w / 2 ^ 0 % 2 ^ 2 = 0 then some (.and (bf w 29 1) (bf w 28 1) (bf w 24 4) (bf w 12 5) (bf w 7 5) (bf w 2 5)) else none
  | 8 => if w / 2 ^ 0 % 2 ^ 2 = 0 then some (.or (bf w 29 1) (bf w 28 1) (bf w 24 4) (bf w 12 5) (bf w 7 5) (bf w 2 5)) else none
  | 9 => if w / 2 ^ 0 % 2 ^ 2 = 0 then some (.xor (bf w 29 1) (bf w 28 1) (bf w 24 4) (bf w 12 5) (bf w 7 5) (bf w 2 5)) else none
  | 10 => if w / 2 ^ 0 % 2 ^ 2 = 0 then some (.andn (bf w 29 1) (bf w 28 1) (bf w 24 4) (bf w 12 5) (bf w 7 5) (bf w 2 5)) else none
  | 11 => if w / 2 ^ 0 % 2 ^ 2 = 0 then some (.shl (bf w 29 1) (bf w 28 1) (bf w 24 4) (bf w 12 5) (bf w 7 5) (bf w 2 5)) else none
  | 12 => if w / 2 ^ 0 % 2 ^ 2 = 0 then some (.shr (bf w 29 1) (bf w 28 1) (bf w 24 4) (bf w 12 5) (bf w 7 5) (bf w 2 5)) else none
  | 13 => if w / 2 ^ 0 % 2 ^ 2 = 0 then some (.sra (bf w 29 1) (bf w 28 1) (bf w 24 4) (bf w 12 5) (bf w 7 5) (bf w 2 5)) else none
  | 14 => if w / 2 ^ 0 % 2 ^ 2 = 0 then some (.rot (bf w 29 1) (bf w 28 1) (bf w 24 4) (bf w 12 5) (bf w 7 5) (bf w 2 5)) else none
  | 15 => if w / 2 ^ 0 % 2 ^ 2 = 0 then some (.min (bf w 29 1) (bf w 28 1) (bf w 24 4) (bf w 12 5) (bf w 7 5) (bf w 2 5)) else none
  | 16 => if w / 2 ^ 0 % 2 ^ 2 = 0 then some (.max (bf w 29 1) (bf w 28 1) (bf w 24 4) (bf w 12 5) (bf w 7 5) (bf w 2 5)) else none
  | 17 => if w / 2 ^ 0 % 2 ^ 2 = 0 then some (.minz (bf w 29 1) (bf w 28 1) (bf w 24 4) (bf w 12 5) (bf w 7 5) (bf w 2 5)) else none
  | 18 => if w / 2 ^ 0 % 2 ^ 2 = 0 then some (.maxz (bf w 29 1) (bf w 28 1) (bf w 24 4) (bf w 12 5) (bf w 7 5) (bf w 2 5)) else none
  | 19 => if w / 2 ^ 0 % 2 ^ 7 = 0 then some (.clz (bf w 29 1) (bf w 28 1) (bf w 24 4) (bf w 12 5) (bf w 7 5)) else none
  | 20 => if w / 2 ^ 0 % 2 ^ 7 = 0 then some (.popc (bf w 29 1) (bf w 28 1) (bf w 24 4) (bf w 12 5) (bf w 7 5)) else none
  | 24 => some (.addi (bf w 29 1) (bf w 28 1) (bf w 24 4) (bf w 12 5) (bf w 7 5) (bf w 0 7))
  | 25 => some (.andi (bf w 29 1) (bf w 28 1) (bf w 24 4) (bf w 12 5) (bf w 7 5) (bf w 0 7))
  | 26 => some (.ori (bf w 29 1) (bf w 28 1) (bf w 24 4) (bf w 12 5) (bf w 7 5) (bf w 0 7))
  | 27 => some (.xori (bf w 29 1) (bf w 28 1) (bf w 24 4) (bf w 12 5) (bf w 7 5) (bf w 0 7))
  | 28 => if w / 2 ^ 6 % 2 ^ 1 = 0 then some (.shli (bf w 29 1) (bf w 28 1) (bf w 24 4) (bf w 12 5) (bf w 7 5) (bf w 0 6)) else none
  | 29 => if w / 2 ^ 6 % 2 ^ 1 = 0 then some (.shri (bf w 29 1) (bf w 28 1) (bf w 24 4) (bf w 12 5) (bf w 7 5) (bf w 0 6)) else none
  | 30 => some (.li (bf w 29 1) (bf w 28 1) (bf w 24 4) (bf w 12 5) (bf w 0 12))
  | 31 => some (.liu (bf w 29 1) (bf w 28 1) (bf w 24 4) (bf w 12 5) (bf w 0 12))
  | 32 => if w / 2 ^ 0 % 2 ^ 1 = 0 then some (.plogic (bf w 29 1) (bf w 28 1) (bf w 24 4) (bf w 13 4) (bf w 9 4) (bf w 5 4) (bf w 1 4)) else none
  | 33 => if w / 2 ^ 0 % 2 ^ 7 = 0 ∧ w / 2 ^ 11 % 2 ^ 1 = 0 then some (.qpop (bf w 29 1) (bf w 28 1) (bf w 24 4) (bf w 12 5) (bf w 7 4)) else none
  | 34 => if w / 2 ^ 0 % 2 ^ 7 = 0 ∧ w / 2 ^ 16 % 2 ^ 1 = 0 then some (.qsend (bf w 29 1) (bf w 28 1) (bf w 24 4) (bf w 12 4) (bf w 7 5)) else none
  | 35 => if w / 2 ^ 0 % 2 ^ 12 = 0 then some (.rdcyc (bf w 29 1) (bf w 28 1) (bf w 24 4) (bf w 12 5)) else none
  | 36 => if w / 2 ^ 2 % 2 ^ 10 = 0 then some (.rdid (bf w 29 1) (bf w 28 1) (bf w 24 4) (bf w 12 5) (bf w 0 2)) else none
  | 37 => if w / 2 ^ 10 % 2 ^ 2 = 0 then some (.waitd (bf w 29 1) (bf w 28 1) (bf w 24 4) (bf w 15 2) (bf w 12 3) (bf w 0 10)) else none
  | _ => none

/-- The control and system block of C (R86). -/
def decodeCBlock (w : Nat) : Nat → Option Instr
  | 64 => if w / 2 ^ 0 % 2 ^ 7 = 0 ∧ w / 2 ^ 12 % 2 ^ 5 = 0 then some (.fmtq (bf w 28 1) (bf w 24 4) (bf w 7 5)) else none
  | 65 => if w / 2 ^ 0 % 2 ^ 7 = 0 ∧ w / 2 ^ 15 % 2 ^ 2 = 0 then some (.setnReg (bf w 28 1) (bf w 24 4) (bf w 12 3) (bf w 7 5)) else none
  | 66 => if w / 2 ^ 15 % 2 ^ 2 = 0 then some (.setnImm (bf w 28 1) (bf w 24 4) (bf w 12 3) (bf w 0 12)) else none
  | 67 => if w / 2 ^ 12 % 2 ^ 5 = 0 then some (.slip (bf w 28 1) (bf w 24 4) (bf w 0 12)) else none
  | 68 => some (.brl (bf w 28 1) (bf w 24 4) (bf w 0 17))
  | 69 => if w / 2 ^ 0 % 2 ^ 17 = 0 then some (.ret (bf w 28 1) (bf w 24 4)) else none
  | 70 => if w / 2 ^ 0 % 2 ^ 7 = 0 ∧ w / 2 ^ 12 % 2 ^ 5 = 0 then some (.jmpr (bf w 28 1) (bf w 24 4) (bf w 7 5)) else none
  | 80 => some (.srd (bf w 28 1) (bf w 24 4) (bf w 12 5) (bf w 0 12))
  | 81 => some (.swr (bf w 28 1) (bf w 24 4) (bf w 12 5) (bf w 0 12))
  | 82 => if w / 2 ^ 12 % 2 ^ 5 = 0 then some (.trap (bf w 28 1) (bf w 24 4) (bf w 0 12)) else none
  | 83 => if w / 2 ^ 0 % 2 ^ 17 = 0 then some (.trapret (bf w 28 1) (bf w 24 4)) else none
  | 84 => if w / 2 ^ 0 % 2 ^ 2 = 0 ∧ w / 2 ^ 12 % 2 ^ 5 = 0 then some (.trapinstall (bf w 28 1) (bf w 24 4) (bf w 7 5) (bf w 2 5)) else none
  | 85 => if w / 2 ^ 0 % 2 ^ 2 = 0 ∧ w / 2 ^ 12 % 2 ^ 5 = 0 then some (.launch (bf w 28 1) (bf w 24 4) (bf w 7 5) (bf w 2 5)) else none
  | 86 => if w / 2 ^ 0 % 2 ^ 7 = 0 ∧ w / 2 ^ 12 % 2 ^ 5 = 0 then some (.pquiesce (bf w 28 1) (bf w 24 4) (bf w 7 5)) else none
  | 87 => if w / 2 ^ 0 % 2 ^ 7 = 0 then some (.pstatus (bf w 28 1) (bf w 24 4) (bf w 12 5) (bf w 7 5)) else none
  | 88 => if w / 2 ^ 0 % 2 ^ 2 = 0 ∧ w / 2 ^ 12 % 2 ^ 5 = 0 then some (.pbound (bf w 28 1) (bf w 24 4) (bf w 7 5) (bf w 2 5)) else none
  | 89 => if w / 2 ^ 12 % 2 ^ 5 = 0 then some (.tlbshoot (bf w 28 1) (bf w 24 4) (bf w 7 5) (bf w 2 5) (bf w 0 2)) else none
  | 90 => if w / 2 ^ 12 % 2 ^ 5 = 0 then some (.dbg (bf w 28 1) (bf w 24 4) (bf w 0 12)) else none
  | 91 => if w / 2 ^ 0 % 2 ^ 7 = 0 ∧ w / 2 ^ 12 % 2 ^ 5 = 0 then some (.suspend (bf w 28 1) (bf w 24 4) (bf w 7 5)) else none
  | _ => none

/-- The access block of A (R87). -/
def decodeABlock (w : Nat) : Nat → Option Instr
  | 38 => if w / 2 ^ 16 % 2 ^ 1 = 0 then some (.ldq (bf w 28 1) (bf w 24 4) (bf w 12 4) (bf w 7 5) (bf w 2 5) (bf w 0 2)) else none
  | 39 => if w / 2 ^ 0 % 2 ^ 2 = 0 then some (.ldv (bf w 28 1) (bf w 24 4) (bf w 12 5) (bf w 7 5) (bf w 2 5)) else none
  | 40 => if w / 2 ^ 0 % 2 ^ 2 = 0 ∧ w / 2 ^ 16 % 2 ^ 1 = 0 then some (.stq (bf w 28 1) (bf w 24 4) (bf w 12 4) (bf w 7 5) (bf w 2 5)) else none
  | 41 => if w / 2 ^ 1 % 2 ^ 1 = 1 then some (.waitsig (bf w 28 1) (bf w 24 4) (bf w 12 5) (bf w 7 5) (bf w 2 5) (bf w 0 1)) else none
  | 42 => if w / 2 ^ 5 % 2 ^ 12 = 0 then some (.fence (bf w 28 1) (bf w 24 4) (bf w 3 2) (bf w 0 3)) else none
  | 43 => if w / 2 ^ 0 % 2 ^ 2 = 0 then some (.keep (bf w 28 1) (bf w 24 4) (bf w 12 5) (bf w 7 5) (bf w 2 5)) else none
  | 44 => if w / 2 ^ 0 % 2 ^ 2 = 0 then some (.unkeep (bf w 28 1) (bf w 24 4) (bf w 12 5) (bf w 7 5) (bf w 2 5)) else none
  | 45 => if w / 2 ^ 0 % 2 ^ 2 = 0 then some (.cwait (bf w 28 1) (bf w 24 4) (bf w 12 5) (bf w 7 5) (bf w 2 5)) else none
  | 64 => if w / 2 ^ 0 % 2 ^ 2 = 0 then some (.kset (bf w 28 1) (bf w 24 4) (bf w 12 5) (bf w 7 5) (bf w 2 5)) else none
  | 65 => if w / 2 ^ 0 % 2 ^ 2 = 0 then some (.koff (bf w 28 1) (bf w 24 4) (bf w 12 5) (bf w 7 5) (bf w 2 5)) else none
  | 66 => if w / 2 ^ 0 % 2 ^ 2 = 0 then some (.klim (bf w 28 1) (bf w 24 4) (bf w 12 5) (bf w 7 5) (bf w 2 5)) else none
  | 67 => if w / 2 ^ 0 % 2 ^ 2 = 0 then some (.krights (bf w 28 1) (bf w 24 4) (bf w 12 5) (bf w 7 5) (bf w 2 5)) else none
  | 68 => if w / 2 ^ 0 % 2 ^ 7 = 0 then some (.kmov (bf w 28 1) (bf w 24 4) (bf w 12 5) (bf w 7 5)) else none
  | 69 => if w / 2 ^ 0 % 2 ^ 2 = 0 then some (.kld (bf w 28 1) (bf w 24 4) (bf w 12 5) (bf w 7 5) (bf w 2 5)) else none
  | 70 => if w / 2 ^ 0 % 2 ^ 2 = 0 then some (.kst (bf w 28 1) (bf w 24 4) (bf w 12 5) (bf w 7 5) (bf w 2 5)) else none
  | 71 => if w / 2 ^ 0 % 2 ^ 2 = 0 then some (.ktest (bf w 28 1) (bf w 24 4) (bf w 12 5) (bf w 7 5) (bf w 2 5)) else none
  | 72 => some (.ldZ (bf w 28 1) (bf w 24 4) (bf w 12 5) (bf w 7 5) (bf w 2 5) (bf w 0 2))
  | 73 => some (.ldS (bf w 28 1) (bf w 24 4) (bf w 12 5) (bf w 7 5) (bf w 2 5) (bf w 0 2))
  | 74 => some (.ldAcqZ (bf w 28 1) (bf w 24 4) (bf w 12 5) (bf w 7 5) (bf w 2 5) (bf w 0 2))
  | 75 => some (.ldAcqS (bf w 28 1) (bf w 24 4) (bf w 12 5) (bf w 7 5) (bf w 2 5) (bf w 0 2))
  | 76 => some (.st (bf w 28 1) (bf w 24 4) (bf w 12 5) (bf w 7 5) (bf w 2 5) (bf w 0 2))
  | 77 => some (.stRel (bf w 28 1) (bf w 24 4) (bf w 12 5) (bf w 7 5) (bf w 2 5) (bf w 0 2))
  | 78 => some (.stSig (bf w 28 1) (bf w 24 4) (bf w 12 5) (bf w 7 5) (bf w 2 5) (bf w 0 2))
  | 79 => some (.stRelSig (bf w 28 1) (bf w 24 4) (bf w 12 5) (bf w 7 5) (bf w 2 5) (bf w 0 2))
  | 80 => some (.atom (bf w 28 1) (bf w 24 4) (bf w 12 5) (bf w 7 5) (bf w 2 5) (bf w 1 1) (bf w 0 1))
  | 81 => some (.red (bf w 28 1) (bf w 24 4) (bf w 12 5) (bf w 7 5) (bf w 2 5) (bf w 1 1) (bf w 0 1))
  | 82 => if w / 2 ^ 0 % 2 ^ 2 = 0 then some (.rclaim (bf w 28 1) (bf w 24 4) (bf w 12 5) (bf w 7 5) (bf w 2 5)) else none
  | 83 => if w / 2 ^ 0 % 2 ^ 2 = 0 ∧ w / 2 ^ 12 % 2 ^ 5 = 0 then some (.rcommit (bf w 28 1) (bf w 24 4) (bf w 7 5) (bf w 2 5)) else none
  | 84 => if w / 2 ^ 0 % 2 ^ 2 = 0 then some (.rwaitf (bf w 28 1) (bf w 24 4) (bf w 12 5) (bf w 7 5) (bf w 2 5)) else none
  | 85 => if w / 2 ^ 0 % 2 ^ 2 = 0 then some (.rwaite (bf w 28 1) (bf w 24 4) (bf w 12 5) (bf w 7 5) (bf w 2 5)) else none
  | 86 => if w / 2 ^ 0 % 2 ^ 2 = 0 ∧ w / 2 ^ 12 % 2 ^ 5 = 0 then some (.rrelease (bf w 28 1) (bf w 24 4) (bf w 7 5) (bf w 2 5)) else none
  | 87 => if w / 2 ^ 0 % 2 ^ 2 = 0 ∧ w / 2 ^ 12 % 2 ^ 5 = 0 then some (.barinit (bf w 28 1) (bf w 24 4) (bf w 7 5) (bf w 2 5)) else none
  | 88 => if w / 2 ^ 0 % 2 ^ 2 = 0 ∧ w / 2 ^ 12 % 2 ^ 5 = 0 then some (.bararrive (bf w 28 1) (bf w 24 4) (bf w 7 5) (bf w 2 5)) else none
  | 89 => if w / 2 ^ 0 % 2 ^ 2 = 0 ∧ w / 2 ^ 12 % 2 ^ 5 = 0 then some (.barwait (bf w 28 1) (bf w 24 4) (bf w 7 5) (bf w 2 5)) else none
  | 90 => if w / 2 ^ 0 % 2 ^ 2 = 0 then some (.copy (bf w 28 1) (bf w 24 4) (bf w 12 5) (bf w 7 5) (bf w 2 5)) else none
  | 91 => if w / 2 ^ 0 % 2 ^ 2 = 0 then some (.copymc (bf w 28 1) (bf w 24 4) (bf w 12 5) (bf w 7 5) (bf w 2 5)) else none
  | 92 => if w / 2 ^ 0 % 2 ^ 2 = 0 then some (.gather (bf w 28 1) (bf w 24 4) (bf w 12 5) (bf w 7 5) (bf w 2 5)) else none
  | 93 => if w / 2 ^ 0 % 2 ^ 2 = 0 then some (.scatter (bf w 28 1) (bf w 24 4) (bf w 12 5) (bf w 7 5) (bf w 2 5)) else none
  | _ => none

/-- The joint opcodes (R90). -/
def decodeXBlock (w : Nat) : Nat → Option Instr
  | 0 => if w / 2 ^ 0 % 2 ^ 17 = 0 then some (.nop (bf w 28 1) (bf w 24 4)) else none
  | 1 => some (.br (bf w 28 1) (bf w 24 4) (bf w 0 17))
  | 2 => some (.loop (bf w 28 1) (bf w 24 4) (bf w 0 17))
  | 4 => if w / 2 ^ 0 % 2 ^ 17 = 0 then some (.notify (bf w 28 1) (bf w 24 4)) else if w / 2 ^ 0 % 2 ^ 17 = 1 then some (.notifyCont (bf w 28 1) (bf w 24 4)) else none
  | 5 => if w / 2 ^ 12 % 2 ^ 5 = 0 then some (.yield (bf w 28 1) (bf w 24 4) (bf w 0 12)) else none
  | 6 => if w / 2 ^ 12 % 2 ^ 5 = 0 then some (.phase (bf w 28 1) (bf w 24 4) (bf w 0 12)) else none
  | 7 => if w / 2 ^ 0 % 2 ^ 17 = 0 then some (.cbar (bf w 28 1) (bf w 24 4)) else none
  | _ => none

/-- A scalar word of C (`onA = false`) or A (R84): compares 0x60 to 0x7F, SEL 0x30 to 0x3F, the shared block,
and the engine's own block. -/
def decodeScalar (onA : Bool) (w : Nat) : Option Instr :=
  let op := w / 2 ^ 17 % 128
  if op / 32 = 3 then
    (if op / 16 % 2 = 0 then some (.cmp (bf w 29 1) (bf w 28 1) (bf w 24 4) (bf w 18 3) (bf w 14 4) (bf w 10 4) (bf w 5 5) (bf w 0 5)) else some (.cmpi (bf w 29 1) (bf w 28 1) (bf w 24 4) (bf w 18 3) (bf w 14 4) (bf w 10 4) (bf w 5 5) (bf w 0 5)))
  else if op / 16 = 3 then if w / 2 ^ 0 % 2 ^ 2 = 0 then some (.sel (bf w 29 1) (bf w 28 1) (bf w 24 4) (bf w 17 4) (bf w 12 5) (bf w 7 5) (bf w 2 5)) else none
  else if op ≤ 0x25 then decodeShared w op
  else if onA then decodeABlock w op
  else decodeCBlock w op

/-- The fields of a V word (R69). -/
def vWord (w : Nat) : VWord :=
  { neg := bb w 28, g := bf w 24 4, ty := bf w 9 5, nsel := bf w 6 3, rep := bf w 0 6,
    d0 := bf w 32 18, d1 := bf w 50 18, d2 := bf w 68 18, aux := bf w 86 10 }

/-- The V opcodes (R91). -/
def decodeVector (w : Nat) : Option Instr :=
  match w / 2 ^ 14 % 1024 with
  | 0x1 => some (.vadd (vWord w))
  | 0x2 => some (.vsub (vWord w))
  | 0x3 => some (.vmul (vWord w))
  | 0x4 => some (.vfma (vWord w))
  | 0x5 => some (.vfms (vWord w))
  | 0x6 => some (.vabs (vWord w))
  | 0x7 => some (.vmin (vWord w))
  | 0x8 => some (.vmax (vWord w))
  | 0x9 => some (.vrcp (vWord w))
  | 0xa => some (.vrsq (vWord w))
  | 0xb => some (.vsqrt (vWord w))
  | 0xc => some (.vexp2 (vWord w))
  | 0xd => some (.vlog2 (vWord w))
  | 0x20 => some (.viadd (vWord w))
  | 0x21 => some (.visub (vWord w))
  | 0x22 => some (.vimul (vWord w))
  | 0x23 => some (.vshl (vWord w))
  | 0x24 => some (.vshr (vWord w))
  | 0x25 => some (.vand (vWord w))
  | 0x26 => some (.vor (vWord w))
  | 0x27 => some (.vxor (vWord w))
  | 0x28 => some (.vimin (vWord w))
  | 0x29 => some (.vimax (vWord w))
  | 0x40 => some (.vcmpEq (vWord w))
  | 0x41 => some (.vcmpNe (vWord w))
  | 0x42 => some (.vcmpLt (vWord w))
  | 0x43 => some (.vcmpLe (vWord w))
  | 0x44 => some (.vcmpGt (vWord w))
  | 0x45 => some (.vcmpGe (vWord w))
  | 0x46 => some (.vcmpUo (vWord w))
  | 0x48 => some (.vclass (vWord w))
  | 0x49 => some (.vsel (vWord w))
  | 0x4a => some (.vperm (vWord w))
  | 0x4b => some (.vrotm (vWord w))
  | 0x4c => some (.vbcast (vWord w))
  | 0x4d => some (.vzip (vWord w))
  | 0x4e => some (.vunzip (vWord w))
  | 0x4f => some (.vmov (vWord w))
  | 0x80 => some (.vpack (vWord w))
  | 0x81 => some (.vunpack (vWord w))
  | 0xa0 => some (.vrsum (vWord w))
  | 0xa1 => some (.vrmax (vWord w))
  | 0xa2 => some (.vrmin (vWord w))
  | 0xc0 => some (.mlogic (vWord w))
  | 0xc1 => some (.mpop (vWord w))
  | 0xc2 => some (.mfirst (vWord w))
  | 0x100 => some (.rmul (vWord w))
  | 0x101 => some (.radd (vWord w))
  | 0x102 => some (.rfma (vWord w))
  | 0x103 => some (.rnar (vWord w))
  | 0x104 => some (.rlrelu (vWord w))
  | 0x108 => some (.unmul (vWord w))
  | 0x109 => some (.unadd (vWord w))
  | 0x10a => some (.unfma (vWord w))
  | 0x10b => some (.unnar (vWord w))
  | 0x10c => some (.unlrelu (vWord w))
  | 0x110 => some (.rmark (vWord w))
  | 0x111 => some (.rdrop (vWord w))
  | op => if 0x60 ≤ op ∧ op ≤ 0x6C then some (.vcvt (BitVec.ofNat 5 (op - 0x60)) (vWord w)) else none

/-- The fields of an M word (R76). -/
def mWord (w : Nat) : MWord :=
  { t := bf w 14 4, acc := bb w 13, byp := bb w 12, nsel := bf w 9 3,
    rowA := bf w 32 15, strideA := bf w 47 15, rowB := bf w 64 15, strideB := bf w 79 15, kdepth := bf w 96 12,
    rowG := bf w 128 15, ge := bb w 143, rowS := bf w 144 15, se := bb w 159,
    aq := bb w 160, dq := bb w 161, rowC := bf w 162 15 }

/-- Reserved bits of an M word are zero (R76). -/
def mReserved (w : Nat) : Bool :=
  decide (w / 2 ^ 24 % 2 ^ 5 = 0) && decide (w % 2 ^ 9 = 0) && decide (w / 2 ^ 62 % 4 = 0) &&
    decide (w / 2 ^ 94 % 4 = 0) && decide (w / 2 ^ 108 % 2 ^ 20 = 0) && decide (w / 2 ^ 177 % 2 ^ 15 = 0)

/-- The M opcodes (R92). -/
def decodeMatrix (w : Nat) : Option Instr :=
  if mReserved w then
    match w / 2 ^ 18 % 64 with
    | 1 => some (.mstep (mWord w))
    | 2 => some (.mgather (mWord w))
    | 3 => some (.mzero (mWord w))
    | 4 => some (.mloadacc (mWord w))
    | 5 => some (.mdrain (mWord w))
    | 6 => some (.mrdrain (mWord w))
    | _ => none
  else none

/-- The fields of an S word (R75). -/
def sWord (w : Nat) : SWord :=
  { h := bf w 12 4, o := bf w 10 2, nsel := bf w 7 3, q := bf w 3 4, qe := bb w 2, xq := bb w 1,
    rowX := bf w 32 15, rowY := bf w 47 15, rowZ := bf w 64 15, clen := bf w 79 16 }

/-- Reserved bits of an S word are zero (R75). -/
def sReserved (w : Nat) : Bool :=
  decide (w / 2 ^ 24 % 2 ^ 5 = 0) && decide (w % 2 = 0) && decide (w / 2 ^ 62 % 4 = 0) && decide (w / 2 ^ 95 % 2 = 0)

/-- The S opcodes (R93). -/
def decodeScan (w : Nat) : Option Instr :=
  if sReserved w then
    match w / 2 ^ 16 % 256 with
    | 0x1 => some (.sload (sWord w))
    | 0x2 => some (.sstore (sWord w))
    | 0x3 => some (.szero (sWord w))
    | 0x8 => some (.scan (sWord w))
    | 0x9 => some (.sagg (sWord w))
    | 0xa => some (.snet (sWord w))
    | 0xc => some (.csend (sWord w))
    | 0xd => some (.crecv (sWord w))
    | 0xe => some (.sapply (sWord w))
    | 0x10 => some (.step (sWord w))
    | 0x11 => some (.sread (sWord w))
    | 0x20 => some (.sopsetDiag (sWord w))
    | 0x21 => some (.sopsetBd2 (sWord w))
    | 0x22 => some (.sopsetBd4 (sWord w))
    | 0x23 => some (.sopsetBd8 (sWord w))
    | 0x24 => some (.sopsetMaxplus (sWord w))
    | 0x25 => some (.sopsetGsum (sWord w))
    | _ => none
  else none

/-- The instruction whose fields the word holds, before the field checks; none at a reserved tag, an unassigned
opcode or a set reserved bit (R61, R67, R94). -/
def decodeFields (w : Nat) : Option Instr :=
  match tagOf w with
  | 0 => decodeScalar false w
  | 1 => decodeScalar true w
  | 2 => decodeVector w
  | 3 => decodeMatrix w
  | 4 => decodeScan w
  | 5 => decodeXBlock w (w / 2 ^ 17 % 128)
  | _ => none

/-- Decoding of one instruction word, with the word-only decode faults of R82. -/
def decode (w : Nat) : Except DecFault Instr :=
  match decodeFields w with
  | none => .error .illegal
  | some i =>
    match FieldCheck.check i with
    | none => .ok i
    | some f => .error f

/-- The instruction read from bits numbered as the table of operations numbers them. -/
def decodeTableWord (nbits w : Nat) : Option Instr :=
  match decode (w % 2 ^ nbits) with
  | .ok i => some i
  | .error _ => none

/-! ### Encoding -/

/-- A field value placed with its lowest bit at `lo`. -/
def sl (x lo : Nat) : Nat := x * 2 ^ lo

/-- The bit of a Bool. -/
def b1 (b : Bool) : Nat := if b then 1 else 0

/-- A V word with the given opcode (R69). -/
def encV (op : Nat) (w : VWord) : Nat :=
  sl 2 29 + sl (b1 w.neg) 28 + sl w.g.toNat 24 + sl op 14 + sl w.ty.toNat 9 + sl w.nsel.toNat 6 +
    w.rep.toNat + sl w.d0.toNat 32 + sl w.d1.toNat 50 + sl w.d2.toNat 68 + sl w.aux.toNat 86

/-- An M word with the given opcode (R76). -/
def encM (op : Nat) (w : MWord) : Nat :=
  sl 3 29 + sl op 18 + sl w.t.toNat 14 + sl (b1 w.acc) 13 + sl (b1 w.byp) 12 + sl w.nsel.toNat 9 +
    sl w.rowA.toNat 32 + sl w.strideA.toNat 47 + sl w.rowB.toNat 64 + sl w.strideB.toNat 79 +
    sl w.kdepth.toNat 96 + sl w.rowG.toNat 128 + sl (b1 w.ge) 143 + sl w.rowS.toNat 144 +
    sl (b1 w.se) 159 + sl (b1 w.aq) 160 + sl (b1 w.dq) 161 + sl w.rowC.toNat 162

/-- An S word with the given opcode (R75). -/
def encS (op : Nat) (w : SWord) : Nat :=
  sl 4 29 + sl op 16 + sl w.h.toNat 12 + sl w.o.toNat 10 + sl w.nsel.toNat 7 + sl w.q.toNat 3 +
    sl (b1 w.qe) 2 + sl (b1 w.xq) 1 + sl w.rowX.toNat 32 + sl w.rowY.toNat 47 + sl w.rowZ.toNat 64 +
    sl w.clen.toNat 79

/-- The word of an instruction, as one number; 0 for an event, which has no word. -/
def encode : Instr → Nat
  | .add t n g d a b => 0x20000 + sl t.toNat 29 + sl n.toNat 28 + sl g.toNat 24 + sl d.toNat 12 + sl a.toNat 7 + sl b.toNat 2
  | .sub t n g d a b => 0x40000 + sl t.toNat 29 + sl n.toNat 28 + sl g.toNat 24 + sl d.toNat 12 + sl a.toNat 7 + sl b.toNat 2
  | .mul t n g d a b => 0x60000 + sl t.toNat 29 + sl n.toNat 28 + sl g.toNat 24 + sl d.toNat 12 + sl a.toNat 7 + sl b.toNat 2
  | .mulh t n g d a b s => 0x80000 + sl t.toNat 29 + sl n.toNat 28 + sl g.toNat 24 + sl d.toNat 12 + sl a.toNat 7 + sl b.toNat 2 + sl s.toNat 0
  | .div t n g d a b s => 0xa0000 + sl t.toNat 29 + sl n.toNat 28 + sl g.toNat 24 + sl d.toNat 12 + sl a.toNat 7 + sl b.toNat 2 + sl s.toNat 0
  | .rem t n g d a b s => 0xc0000 + sl t.toNat 29 + sl n.toNat 28 + sl g.toNat 24 + sl d.toNat 12 + sl a.toNat 7 + sl b.toNat 2 + sl s.toNat 0
  | .and t n g d a b => 0xe0000 + sl t.toNat 29 + sl n.toNat 28 + sl g.toNat 24 + sl d.toNat 12 + sl a.toNat 7 + sl b.toNat 2
  | .or t n g d a b => 0x100000 + sl t.toNat 29 + sl n.toNat 28 + sl g.toNat 24 + sl d.toNat 12 + sl a.toNat 7 + sl b.toNat 2
  | .xor t n g d a b => 0x120000 + sl t.toNat 29 + sl n.toNat 28 + sl g.toNat 24 + sl d.toNat 12 + sl a.toNat 7 + sl b.toNat 2
  | .andn t n g d a b => 0x140000 + sl t.toNat 29 + sl n.toNat 28 + sl g.toNat 24 + sl d.toNat 12 + sl a.toNat 7 + sl b.toNat 2
  | .shl t n g d a b => 0x160000 + sl t.toNat 29 + sl n.toNat 28 + sl g.toNat 24 + sl d.toNat 12 + sl a.toNat 7 + sl b.toNat 2
  | .shr t n g d a b => 0x180000 + sl t.toNat 29 + sl n.toNat 28 + sl g.toNat 24 + sl d.toNat 12 + sl a.toNat 7 + sl b.toNat 2
  | .sra t n g d a b => 0x1a0000 + sl t.toNat 29 + sl n.toNat 28 + sl g.toNat 24 + sl d.toNat 12 + sl a.toNat 7 + sl b.toNat 2
  | .rot t n g d a b => 0x1c0000 + sl t.toNat 29 + sl n.toNat 28 + sl g.toNat 24 + sl d.toNat 12 + sl a.toNat 7 + sl b.toNat 2
  | .min t n g d a b => 0x1e0000 + sl t.toNat 29 + sl n.toNat 28 + sl g.toNat 24 + sl d.toNat 12 + sl a.toNat 7 + sl b.toNat 2
  | .max t n g d a b => 0x200000 + sl t.toNat 29 + sl n.toNat 28 + sl g.toNat 24 + sl d.toNat 12 + sl a.toNat 7 + sl b.toNat 2
  | .minz t n g d a b => 0x220000 + sl t.toNat 29 + sl n.toNat 28 + sl g.toNat 24 + sl d.toNat 12 + sl a.toNat 7 + sl b.toNat 2
  | .maxz t n g d a b => 0x240000 + sl t.toNat 29 + sl n.toNat 28 + sl g.toNat 24 + sl d.toNat 12 + sl a.toNat 7 + sl b.toNat 2
  | .clz t n g d a => 0x260000 + sl t.toNat 29 + sl n.toNat 28 + sl g.toNat 24 + sl d.toNat 12 + sl a.toNat 7
  | .popc t n g d a => 0x280000 + sl t.toNat 29 + sl n.toNat 28 + sl g.toNat 24 + sl d.toNat 12 + sl a.toNat 7
  | .addi t n g d a i => 0x300000 + sl t.toNat 29 + sl n.toNat 28 + sl g.toNat 24 + sl d.toNat 12 + sl a.toNat 7 + sl i.toNat 0
  | .andi t n g d a i => 0x320000 + sl t.toNat 29 + sl n.toNat 28 + sl g.toNat 24 + sl d.toNat 12 + sl a.toNat 7 + sl i.toNat 0
  | .ori t n g d a i => 0x340000 + sl t.toNat 29 + sl n.toNat 28 + sl g.toNat 24 + sl d.toNat 12 + sl a.toNat 7 + sl i.toNat 0
  | .xori t n g d a i => 0x360000 + sl t.toNat 29 + sl n.toNat 28 + sl g.toNat 24 + sl d.toNat 12 + sl a.toNat 7 + sl i.toNat 0
  | .shli t n g d a i => 0x380000 + sl t.toNat 29 + sl n.toNat 28 + sl g.toNat 24 + sl d.toNat 12 + sl a.toNat 7 + sl i.toNat 0
  | .shri t n g d a i => 0x3a0000 + sl t.toNat 29 + sl n.toNat 28 + sl g.toNat 24 + sl d.toNat 12 + sl a.toNat 7 + sl i.toNat 0
  | .li t n g d i => 0x3c0000 + sl t.toNat 29 + sl n.toNat 28 + sl g.toNat 24 + sl d.toNat 12 + sl i.toNat 0
  | .liu t n g d i => 0x3e0000 + sl t.toNat 29 + sl n.toNat 28 + sl g.toNat 24 + sl d.toNat 12 + sl i.toNat 0
  | .plogic t n g d a b f => 0x400000 + sl t.toNat 29 + sl n.toNat 28 + sl g.toNat 24 + sl d.toNat 13 + sl a.toNat 9 + sl b.toNat 5 + sl f.toNat 1
  | .qpop t n g d q => 0x420000 + sl t.toNat 29 + sl n.toNat 28 + sl g.toNat 24 + sl d.toNat 12 + sl q.toNat 7
  | .qsend t n g q a => 0x440000 + sl t.toNat 29 + sl n.toNat 28 + sl g.toNat 24 + sl q.toNat 12 + sl a.toNat 7
  | .rdcyc t n g d => 0x460000 + sl t.toNat 29 + sl n.toNat 28 + sl g.toNat 24 + sl d.toNat 12
  | .rdid t n g d s => 0x480000 + sl t.toNat 29 + sl n.toNat 28 + sl g.toNat 24 + sl d.toNat 12 + sl s.toNat 0
  | .waitd t n g e c k => 0x4a0000 + sl t.toNat 29 + sl n.toNat 28 + sl g.toNat 24 + sl e.toNat 15 + sl c.toNat 12 + sl k.toNat 0
  | .sel t n g p d a b => 0x600000 + sl t.toNat 29 + sl n.toNat 28 + sl g.toNat 24 + sl p.toNat 17 + sl d.toNat 12 + sl a.toNat 7 + sl b.toNat 2
  | .cmp t n g c d e a b => 0xc00000 + sl t.toNat 29 + sl n.toNat 28 + sl g.toNat 24 + sl c.toNat 18 + sl d.toNat 14 + sl e.toNat 10 + sl a.toNat 5 + sl b.toNat 0
  | .cmpi t n g c d e a i => 0xe00000 + sl t.toNat 29 + sl n.toNat 28 + sl g.toNat 24 + sl c.toNat 18 + sl d.toNat 14 + sl e.toNat 10 + sl a.toNat 5 + sl i.toNat 0
  | .fmtq n g a => 0x800000 + sl n.toNat 28 + sl g.toNat 24 + sl a.toNat 7
  | .setnReg n g k a => 0x820000 + sl n.toNat 28 + sl g.toNat 24 + sl k.toNat 12 + sl a.toNat 7
  | .setnImm n g k i => 0x840000 + sl n.toNat 28 + sl g.toNat 24 + sl k.toNat 12 + sl i.toNat 0
  | .slip n g i => 0x860000 + sl n.toNat 28 + sl g.toNat 24 + sl i.toNat 0
  | .brl n g o => 0x880000 + sl n.toNat 28 + sl g.toNat 24 + sl o.toNat 0
  | .ret n g => 0x8a0000 + sl n.toNat 28 + sl g.toNat 24
  | .jmpr n g a => 0x8c0000 + sl n.toNat 28 + sl g.toNat 24 + sl a.toNat 7
  | .srd n g d r => 0xa00000 + sl n.toNat 28 + sl g.toNat 24 + sl d.toNat 12 + sl r.toNat 0
  | .swr n g a r => 0xa20000 + sl n.toNat 28 + sl g.toNat 24 + sl a.toNat 12 + sl r.toNat 0
  | .trap n g i => 0xa40000 + sl n.toNat 28 + sl g.toNat 24 + sl i.toNat 0
  | .trapret n g => 0xa60000 + sl n.toNat 28 + sl g.toNat 24
  | .trapinstall n g a b => 0xa80000 + sl n.toNat 28 + sl g.toNat 24 + sl a.toNat 7 + sl b.toNat 2
  | .launch n g a b => 0xaa0000 + sl n.toNat 28 + sl g.toNat 24 + sl a.toNat 7 + sl b.toNat 2
  | .pquiesce n g a => 0xac0000 + sl n.toNat 28 + sl g.toNat 24 + sl a.toNat 7
  | .pstatus n g d a => 0xae0000 + sl n.toNat 28 + sl g.toNat 24 + sl d.toNat 12 + sl a.toNat 7
  | .pbound n g a b => 0xb00000 + sl n.toNat 28 + sl g.toNat 24 + sl a.toNat 7 + sl b.toNat 2
  | .tlbshoot n g a b s => 0xb20000 + sl n.toNat 28 + sl g.toNat 24 + sl a.toNat 7 + sl b.toNat 2 + sl s.toNat 0
  | .dbg n g i => 0xb40000 + sl n.toNat 28 + sl g.toNat 24 + sl i.toNat 0
  | .suspend n g a => 0xb60000 + sl n.toNat 28 + sl g.toNat 24 + sl a.toNat 7
  | .ldq n g q k b z => 0x204c0000 + sl n.toNat 28 + sl g.toNat 24 + sl q.toNat 12 + sl k.toNat 7 + sl b.toNat 2 + sl z.toNat 0
  | .ldv n g c k b => 0x204e0000 + sl n.toNat 28 + sl g.toNat 24 + sl c.toNat 12 + sl k.toNat 7 + sl b.toNat 2
  | .stq n g q k b => 0x20500000 + sl n.toNat 28 + sl g.toNat 24 + sl q.toNat 12 + sl k.toNat 7 + sl b.toNat 2
  | .waitsig n g d k b z => 0x20520002 + sl n.toNat 28 + sl g.toNat 24 + sl d.toNat 12 + sl k.toNat 7 + sl b.toNat 2 + sl z.toNat 0
  | .fence n g k s => 0x20540000 + sl n.toNat 28 + sl g.toNat 24 + sl k.toNat 3 + sl s.toNat 0
  | .keep n g c k b => 0x20560000 + sl n.toNat 28 + sl g.toNat 24 + sl c.toNat 12 + sl k.toNat 7 + sl b.toNat 2
  | .unkeep n g c k b => 0x20580000 + sl n.toNat 28 + sl g.toNat 24 + sl c.toNat 12 + sl k.toNat 7 + sl b.toNat 2
  | .cwait n g d k b => 0x205a0000 + sl n.toNat 28 + sl g.toNat 24 + sl d.toNat 12 + sl k.toNat 7 + sl b.toNat 2
  | .kset n g d a b => 0x20800000 + sl n.toNat 28 + sl g.toNat 24 + sl d.toNat 12 + sl a.toNat 7 + sl b.toNat 2
  | .koff n g d a b => 0x20820000 + sl n.toNat 28 + sl g.toNat 24 + sl d.toNat 12 + sl a.toNat 7 + sl b.toNat 2
  | .klim n g d a b => 0x20840000 + sl n.toNat 28 + sl g.toNat 24 + sl d.toNat 12 + sl a.toNat 7 + sl b.toNat 2
  | .krights n g d a b => 0x20860000 + sl n.toNat 28 + sl g.toNat 24 + sl d.toNat 12 + sl a.toNat 7 + sl b.toNat 2
  | .kmov n g d a => 0x20880000 + sl n.toNat 28 + sl g.toNat 24 + sl d.toNat 12 + sl a.toNat 7
  | .kld n g d a b => 0x208a0000 + sl n.toNat 28 + sl g.toNat 24 + sl d.toNat 12 + sl a.toNat 7 + sl b.toNat 2
  | .kst n g c a b => 0x208c0000 + sl n.toNat 28 + sl g.toNat 24 + sl c.toNat 12 + sl a.toNat 7 + sl b.toNat 2
  | .ktest n g d a b => 0x208e0000 + sl n.toNat 28 + sl g.toNat 24 + sl d.toNat 12 + sl a.toNat 7 + sl b.toNat 2
  | .ldZ n g d k b z => 0x20900000 + sl n.toNat 28 + sl g.toNat 24 + sl d.toNat 12 + sl k.toNat 7 + sl b.toNat 2 + sl z.toNat 0
  | .ldS n g d k b z => 0x20920000 + sl n.toNat 28 + sl g.toNat 24 + sl d.toNat 12 + sl k.toNat 7 + sl b.toNat 2 + sl z.toNat 0
  | .ldAcqZ n g d k b z => 0x20940000 + sl n.toNat 28 + sl g.toNat 24 + sl d.toNat 12 + sl k.toNat 7 + sl b.toNat 2 + sl z.toNat 0
  | .ldAcqS n g d k b z => 0x20960000 + sl n.toNat 28 + sl g.toNat 24 + sl d.toNat 12 + sl k.toNat 7 + sl b.toNat 2 + sl z.toNat 0
  | .st n g c k b z => 0x20980000 + sl n.toNat 28 + sl g.toNat 24 + sl c.toNat 12 + sl k.toNat 7 + sl b.toNat 2 + sl z.toNat 0
  | .stRel n g c k b z => 0x209a0000 + sl n.toNat 28 + sl g.toNat 24 + sl c.toNat 12 + sl k.toNat 7 + sl b.toNat 2 + sl z.toNat 0
  | .stSig n g c k b z => 0x209c0000 + sl n.toNat 28 + sl g.toNat 24 + sl c.toNat 12 + sl k.toNat 7 + sl b.toNat 2 + sl z.toNat 0
  | .stRelSig n g c k b z => 0x209e0000 + sl n.toNat 28 + sl g.toNat 24 + sl c.toNat 12 + sl k.toNat 7 + sl b.toNat 2 + sl z.toNat 0
  | .atom n g d k o z s => 0x20a00000 + sl n.toNat 28 + sl g.toNat 24 + sl d.toNat 12 + sl k.toNat 7 + sl o.toNat 2 + sl z.toNat 1 + sl s.toNat 0
  | .red n g c k o z s => 0x20a20000 + sl n.toNat 28 + sl g.toNat 24 + sl c.toNat 12 + sl k.toNat 7 + sl o.toNat 2 + sl z.toNat 1 + sl s.toNat 0
  | .rclaim n g d k b => 0x20a40000 + sl n.toNat 28 + sl g.toNat 24 + sl d.toNat 12 + sl k.toNat 7 + sl b.toNat 2
  | .rcommit n g k b => 0x20a60000 + sl n.toNat 28 + sl g.toNat 24 + sl k.toNat 7 + sl b.toNat 2
  | .rwaitf n g d k b => 0x20a80000 + sl n.toNat 28 + sl g.toNat 24 + sl d.toNat 12 + sl k.toNat 7 + sl b.toNat 2
  | .rwaite n g d k b => 0x20aa0000 + sl n.toNat 28 + sl g.toNat 24 + sl d.toNat 12 + sl k.toNat 7 + sl b.toNat 2
  | .rrelease n g k b => 0x20ac0000 + sl n.toNat 28 + sl g.toNat 24 + sl k.toNat 7 + sl b.toNat 2
  | .barinit n g k b => 0x20ae0000 + sl n.toNat 28 + sl g.toNat 24 + sl k.toNat 7 + sl b.toNat 2
  | .bararrive n g k b => 0x20b00000 + sl n.toNat 28 + sl g.toNat 24 + sl k.toNat 7 + sl b.toNat 2
  | .barwait n g k b => 0x20b20000 + sl n.toNat 28 + sl g.toNat 24 + sl k.toNat 7 + sl b.toNat 2
  | .copy n g d a c => 0x20b40000 + sl n.toNat 28 + sl g.toNat 24 + sl d.toNat 12 + sl a.toNat 7 + sl c.toNat 2
  | .copymc n g d a c => 0x20b60000 + sl n.toNat 28 + sl g.toNat 24 + sl d.toNat 12 + sl a.toNat 7 + sl c.toNat 2
  | .gather n g d a c => 0x20b80000 + sl n.toNat 28 + sl g.toNat 24 + sl d.toNat 12 + sl a.toNat 7 + sl c.toNat 2
  | .scatter n g d a c => 0x20ba0000 + sl n.toNat 28 + sl g.toNat 24 + sl d.toNat 12 + sl a.toNat 7 + sl c.toNat 2
  | .nop n g => 0xa0000000 + sl n.toNat 28 + sl g.toNat 24
  | .br n g o => 0xa0020000 + sl n.toNat 28 + sl g.toNat 24 + sl o.toNat 0
  | .loop n g o => 0xa0040000 + sl n.toNat 28 + sl g.toNat 24 + sl o.toNat 0
  | .notify n g => 0xa0080000 + sl n.toNat 28 + sl g.toNat 24
  | .notifyCont n g => 0xa0080001 + sl n.toNat 28 + sl g.toNat 24
  | .yield n g l => 0xa00a0000 + sl n.toNat 28 + sl g.toNat 24 + sl l.toNat 0
  | .phase n g p => 0xa00c0000 + sl n.toNat 28 + sl g.toNat 24 + sl p.toNat 0
  | .cbar n g => 0xa00e0000 + sl n.toNat 28 + sl g.toNat 24
  | .vadd w => encV 0x1 w
  | .vsub w => encV 0x2 w
  | .vmul w => encV 0x3 w
  | .vfma w => encV 0x4 w
  | .vfms w => encV 0x5 w
  | .vabs w => encV 0x6 w
  | .vmin w => encV 0x7 w
  | .vmax w => encV 0x8 w
  | .vrcp w => encV 0x9 w
  | .vrsq w => encV 0xa w
  | .vsqrt w => encV 0xb w
  | .vexp2 w => encV 0xc w
  | .vlog2 w => encV 0xd w
  | .viadd w => encV 0x20 w
  | .visub w => encV 0x21 w
  | .vimul w => encV 0x22 w
  | .vshl w => encV 0x23 w
  | .vshr w => encV 0x24 w
  | .vand w => encV 0x25 w
  | .vor w => encV 0x26 w
  | .vxor w => encV 0x27 w
  | .vimin w => encV 0x28 w
  | .vimax w => encV 0x29 w
  | .vcmpEq w => encV 0x40 w
  | .vcmpNe w => encV 0x41 w
  | .vcmpLt w => encV 0x42 w
  | .vcmpLe w => encV 0x43 w
  | .vcmpGt w => encV 0x44 w
  | .vcmpGe w => encV 0x45 w
  | .vcmpUo w => encV 0x46 w
  | .vclass w => encV 0x48 w
  | .vsel w => encV 0x49 w
  | .vperm w => encV 0x4a w
  | .vrotm w => encV 0x4b w
  | .vbcast w => encV 0x4c w
  | .vzip w => encV 0x4d w
  | .vunzip w => encV 0x4e w
  | .vmov w => encV 0x4f w
  | .vcvt src w => encV (0x60 + src.toNat) w
  | .vpack w => encV 0x80 w
  | .vunpack w => encV 0x81 w
  | .vrsum w => encV 0xa0 w
  | .vrmax w => encV 0xa1 w
  | .vrmin w => encV 0xa2 w
  | .mlogic w => encV 0xc0 w
  | .mpop w => encV 0xc1 w
  | .mfirst w => encV 0xc2 w
  | .rmul w => encV 0x100 w
  | .radd w => encV 0x101 w
  | .rfma w => encV 0x102 w
  | .rnar w => encV 0x103 w
  | .rlrelu w => encV 0x104 w
  | .unmul w => encV 0x108 w
  | .unadd w => encV 0x109 w
  | .unfma w => encV 0x10a w
  | .unnar w => encV 0x10b w
  | .unlrelu w => encV 0x10c w
  | .rmark w => encV 0x110 w
  | .rdrop w => encV 0x111 w
  | .mstep w => encM 1 w
  | .mgather w => encM 2 w
  | .mzero w => encM 3 w
  | .mloadacc w => encM 4 w
  | .mdrain w => encM 5 w
  | .mrdrain w => encM 6 w
  | .sload w => encS 0x1 w
  | .sstore w => encS 0x2 w
  | .szero w => encS 0x3 w
  | .sread w => encS 0x11 w
  | .scan w => encS 0x8 w
  | .sagg w => encS 0x9 w
  | .snet w => encS 0xa w
  | .csend w => encS 0xc w
  | .crecv w => encS 0xd w
  | .sapply w => encS 0xe w
  | .step w => encS 0x10 w
  | .sopsetDiag w => encS 0x20 w
  | .sopsetBd2 w => encS 0x21 w
  | .sopsetBd4 w => encS 0x22 w
  | .sopsetBd8 w => encS 0x23 w
  | .sopsetMaxplus w => encS 0x24 w
  | .sopsetGsum w => encS 0x25 w
  | .trapTaken .. => 0
  | .crewEndByFault .. => 0
  | .migrateTrap .. => 0
  | .stallWatchdog .. => 0
  | .yieldSave .. => 0
  | .forcedSave .. => 0
  | .contextRestore .. => 0
  | .crewRetirement .. => 0
  | .completionIncrement .. => 0
  | .copyRow .. => 0
  | .engineOperationComplete .. => 0
  | .loadDataReturn .. => 0
  | .spillBatch .. => 0
  | .refillBatch .. => 0
  | .translationWalk .. => 0
  | .pageFaultSwap .. => 0
  | .keyedUpdateApply .. => 0
  | .bankUpdate .. => 0
  | .waitsigPoll .. => 0
  | .scanNetworkCarry .. => 0
  | .carryPacketReceive .. => 0
  | .carryAcknowledgement .. => 0
  | .carryCredit .. => 0
  | .carryResendRequest .. => 0
  | .carryTimeout .. => 0
  | .csendPortTimeout .. => 0
  | .ringMessageReceive .. => 0
  | .fabricRetry .. => 0
  | .remoteAcknowledgement .. => 0
  | .voidReply .. => 0
  | .launchRecordArrival => 0
  | .recordReady .. => 0
  | .crewPlacement .. => 0
  | .scrubHoldEnd .. => 0
  | .calendarSwitch .. => 0
  | .pipelineAdd .. => 0
  | .pipelinePark .. => 0
  | .progressBoundMissed .. => 0
  | .launchDigest .. => 0
  | .hostSubmitLaunch .. => 0
  | .hostCopyToDevice .. => 0
  | .hostCopyToHost .. => 0
  | .hostSuspend .. => 0
  | .hostEcho .. => 0
  | .deviceEvent .. => 0
  | .hsqdb .. => 0
  | .hsqbase .. => 0
  | .hsqcfg .. => 0
  | .deqbase .. => 0
  | .eqcfg .. => 0
  | .fqcfg .. => 0
  | .setObject .. => 0
  | .invalObject .. => 0
  | .setHostEntry .. => 0
  | .invalHostEntry .. => 0
  | .resolve .. => 0
  | .activate => 0
  | .reset => 0
  | .teardown => 0
  | .freeze => 0
  | .admitMove => 0
  | .release => 0
  | .thaw => 0
  | .liveMoveTransfer .. => 0
  | .pullFrame .. => 0
  | .cidDrainComplete .. => 0
  | .assign .. => 0
  | .free .. => 0
  | .pullmark .. => 0
  | .query .. => 0
  | .blockScrub .. => 0
  | .galloc => 0
  | .grelease => 0
  | .attestationRequest .. => 0
  | .calcommit .. => 0
  | .spsliceWrite .. => 0
  | .spcoreWrite .. => 0
  | .translationRegisterWrite .. => 0
  | .retcfgWrite .. => 0
  | .lqcfgWrite .. => 0
  | .statoWrite .. => 0
  | .dbgctlWrite .. => 0
  | .singleStepEnd .. => 0
  | .registerWrite .. => 0
  | .coldStart .. => 0
  | .bootImageLoad => 0
  | .functionLevelReset .. => 0
  | .pwrwarn => 0
  | .suspendSequence => 0
  | .resumeRequest => 0
  | .powerLost => 0
  | .criticalTemperature .. => 0
  | .hardwareError .. => 0
  | .selfTestVerdict .. => 0
  | .linkDown .. => 0
  | .sliceRetirement .. => 0
  | .patrolScrub .. => 0
  | .illegalInstruction .. => 0
  | .fetchCapabilityBounds => 0
  | .fqhead .. => 0
  | .stubClear .. => 0
  | .tencfgWrite .. => 0
  | .pwrcapWrite .. => 0
  | .memberReturnTimeout .. => 0
  | .commonsShareChange .. => 0

/-- Bytes of the word of an instruction (R60); 0 for an event. -/
def wordBytes : Instr → Nat
  | .add .. => 4
  | .sub .. => 4
  | .mul .. => 4
  | .mulh .. => 4
  | .div .. => 4
  | .rem .. => 4
  | .and .. => 4
  | .or .. => 4
  | .xor .. => 4
  | .andn .. => 4
  | .shl .. => 4
  | .shr .. => 4
  | .sra .. => 4
  | .rot .. => 4
  | .min .. => 4
  | .max .. => 4
  | .minz .. => 4
  | .maxz .. => 4
  | .clz .. => 4
  | .popc .. => 4
  | .addi .. => 4
  | .andi .. => 4
  | .ori .. => 4
  | .xori .. => 4
  | .shli .. => 4
  | .shri .. => 4
  | .li .. => 4
  | .liu .. => 4
  | .plogic .. => 4
  | .qpop .. => 4
  | .qsend .. => 4
  | .rdcyc .. => 4
  | .rdid .. => 4
  | .waitd .. => 4
  | .sel .. => 4
  | .cmp .. => 4
  | .cmpi .. => 4
  | .fmtq .. => 4
  | .setnReg .. => 4
  | .setnImm .. => 4
  | .slip .. => 4
  | .brl .. => 4
  | .ret .. => 4
  | .jmpr .. => 4
  | .srd .. => 4
  | .swr .. => 4
  | .trap .. => 4
  | .trapret .. => 4
  | .trapinstall .. => 4
  | .launch .. => 4
  | .pquiesce .. => 4
  | .pstatus .. => 4
  | .pbound .. => 4
  | .tlbshoot .. => 4
  | .dbg .. => 4
  | .suspend .. => 4
  | .ldq .. => 4
  | .ldv .. => 4
  | .stq .. => 4
  | .waitsig .. => 4
  | .fence .. => 4
  | .keep .. => 4
  | .unkeep .. => 4
  | .cwait .. => 4
  | .kset .. => 4
  | .koff .. => 4
  | .klim .. => 4
  | .krights .. => 4
  | .kmov .. => 4
  | .kld .. => 4
  | .kst .. => 4
  | .ktest .. => 4
  | .ldZ .. => 4
  | .ldS .. => 4
  | .ldAcqZ .. => 4
  | .ldAcqS .. => 4
  | .st .. => 4
  | .stRel .. => 4
  | .stSig .. => 4
  | .stRelSig .. => 4
  | .atom .. => 4
  | .red .. => 4
  | .rclaim .. => 4
  | .rcommit .. => 4
  | .rwaitf .. => 4
  | .rwaite .. => 4
  | .rrelease .. => 4
  | .barinit .. => 4
  | .bararrive .. => 4
  | .barwait .. => 4
  | .copy .. => 4
  | .copymc .. => 4
  | .gather .. => 4
  | .scatter .. => 4
  | .nop .. => 4
  | .br .. => 4
  | .loop .. => 4
  | .notify .. => 4
  | .notifyCont .. => 4
  | .yield .. => 4
  | .phase .. => 4
  | .cbar .. => 4
  | .vadd .. => 12
  | .vsub .. => 12
  | .vmul .. => 12
  | .vfma .. => 12
  | .vfms .. => 12
  | .vabs .. => 12
  | .vmin .. => 12
  | .vmax .. => 12
  | .vrcp .. => 12
  | .vrsq .. => 12
  | .vsqrt .. => 12
  | .vexp2 .. => 12
  | .vlog2 .. => 12
  | .viadd .. => 12
  | .visub .. => 12
  | .vimul .. => 12
  | .vshl .. => 12
  | .vshr .. => 12
  | .vand .. => 12
  | .vor .. => 12
  | .vxor .. => 12
  | .vimin .. => 12
  | .vimax .. => 12
  | .vcmpEq .. => 12
  | .vcmpNe .. => 12
  | .vcmpLt .. => 12
  | .vcmpLe .. => 12
  | .vcmpGt .. => 12
  | .vcmpGe .. => 12
  | .vcmpUo .. => 12
  | .vclass .. => 12
  | .vsel .. => 12
  | .vperm .. => 12
  | .vrotm .. => 12
  | .vbcast .. => 12
  | .vzip .. => 12
  | .vunzip .. => 12
  | .vmov .. => 12
  | .vcvt .. => 12
  | .vpack .. => 12
  | .vunpack .. => 12
  | .vrsum .. => 12
  | .vrmax .. => 12
  | .vrmin .. => 12
  | .mlogic .. => 12
  | .mpop .. => 12
  | .mfirst .. => 12
  | .rmul .. => 12
  | .radd .. => 12
  | .rfma .. => 12
  | .rnar .. => 12
  | .rlrelu .. => 12
  | .unmul .. => 12
  | .unadd .. => 12
  | .unfma .. => 12
  | .unnar .. => 12
  | .unlrelu .. => 12
  | .rmark .. => 12
  | .rdrop .. => 12
  | .mstep .. => 24
  | .mgather .. => 24
  | .mzero .. => 24
  | .mloadacc .. => 24
  | .mdrain .. => 24
  | .mrdrain .. => 24
  | .sload .. => 12
  | .sstore .. => 12
  | .szero .. => 12
  | .sread .. => 12
  | .scan .. => 12
  | .sagg .. => 12
  | .snet .. => 12
  | .csend .. => 12
  | .crecv .. => 12
  | .sapply .. => 12
  | .step .. => 12
  | .sopsetDiag .. => 12
  | .sopsetBd2 .. => 12
  | .sopsetBd4 .. => 12
  | .sopsetBd8 .. => 12
  | .sopsetMaxplus .. => 12
  | .sopsetGsum .. => 12
  | .trapTaken .. => 0
  | .crewEndByFault .. => 0
  | .migrateTrap .. => 0
  | .stallWatchdog .. => 0
  | .yieldSave .. => 0
  | .forcedSave .. => 0
  | .contextRestore .. => 0
  | .crewRetirement .. => 0
  | .completionIncrement .. => 0
  | .copyRow .. => 0
  | .engineOperationComplete .. => 0
  | .loadDataReturn .. => 0
  | .spillBatch .. => 0
  | .refillBatch .. => 0
  | .translationWalk .. => 0
  | .pageFaultSwap .. => 0
  | .keyedUpdateApply .. => 0
  | .bankUpdate .. => 0
  | .waitsigPoll .. => 0
  | .scanNetworkCarry .. => 0
  | .carryPacketReceive .. => 0
  | .carryAcknowledgement .. => 0
  | .carryCredit .. => 0
  | .carryResendRequest .. => 0
  | .carryTimeout .. => 0
  | .csendPortTimeout .. => 0
  | .ringMessageReceive .. => 0
  | .fabricRetry .. => 0
  | .remoteAcknowledgement .. => 0
  | .voidReply .. => 0
  | .launchRecordArrival => 0
  | .recordReady .. => 0
  | .crewPlacement .. => 0
  | .scrubHoldEnd .. => 0
  | .calendarSwitch .. => 0
  | .pipelineAdd .. => 0
  | .pipelinePark .. => 0
  | .progressBoundMissed .. => 0
  | .launchDigest .. => 0
  | .hostSubmitLaunch .. => 0
  | .hostCopyToDevice .. => 0
  | .hostCopyToHost .. => 0
  | .hostSuspend .. => 0
  | .hostEcho .. => 0
  | .deviceEvent .. => 0
  | .hsqdb .. => 0
  | .hsqbase .. => 0
  | .hsqcfg .. => 0
  | .deqbase .. => 0
  | .eqcfg .. => 0
  | .fqcfg .. => 0
  | .setObject .. => 0
  | .invalObject .. => 0
  | .setHostEntry .. => 0
  | .invalHostEntry .. => 0
  | .resolve .. => 0
  | .activate => 0
  | .reset => 0
  | .teardown => 0
  | .freeze => 0
  | .admitMove => 0
  | .release => 0
  | .thaw => 0
  | .liveMoveTransfer .. => 0
  | .pullFrame .. => 0
  | .cidDrainComplete .. => 0
  | .assign .. => 0
  | .free .. => 0
  | .pullmark .. => 0
  | .query .. => 0
  | .blockScrub .. => 0
  | .galloc => 0
  | .grelease => 0
  | .attestationRequest .. => 0
  | .calcommit .. => 0
  | .spsliceWrite .. => 0
  | .spcoreWrite .. => 0
  | .translationRegisterWrite .. => 0
  | .retcfgWrite .. => 0
  | .lqcfgWrite .. => 0
  | .statoWrite .. => 0
  | .dbgctlWrite .. => 0
  | .singleStepEnd .. => 0
  | .registerWrite .. => 0
  | .coldStart .. => 0
  | .bootImageLoad => 0
  | .functionLevelReset .. => 0
  | .pwrwarn => 0
  | .suspendSequence => 0
  | .resumeRequest => 0
  | .powerLost => 0
  | .criticalTemperature .. => 0
  | .hardwareError .. => 0
  | .selfTestVerdict .. => 0
  | .linkDown .. => 0
  | .sliceRetirement .. => 0
  | .patrolScrub .. => 0
  | .illegalInstruction .. => 0
  | .fetchCapabilityBounds => 0
  | .fqhead .. => 0
  | .stubClear .. => 0
  | .tencfgWrite .. => 0
  | .pwrcapWrite .. => 0
  | .memberReturnTimeout .. => 0
  | .commonsShareChange .. => 0

/-- The constructor has a word in program text. -/
def Instr.isWord (i : Instr) : Bool := decide (wordBytes i ≠ 0)

end Sys2Proof
end

