-- ==== Sys2Proof/Machine/State.lean ====
section
/-!
DEFINITION. Machine/State.lean: everything the manual gives the package to hold, as plain data. Sparse stores list
only what differs from their default, with strictly rising keys, so that equal contents are equal data.
-/
namespace Sys2Proof.Machine

/-- A sparse store of `w`-bit values by number: strictly rising keys, no zero entry; an unlisted key reads 0. -/
abbrev Sp (w : Nat) := List (Nat × BitVec w)

/-- A row record: what a whole 64-byte row is on a ring, a station link or a carry port (R32, R33). -/
structure RowRecord where
  desc : Byte
  payload : List Byte
deriving DecidableEq, Repr

/-- The body of a fabric message: a raw payload shorter than a row, or a row record (R32, R373). -/
inductive Payload where
  | raw (x : Row)
  | record (r : RowRecord)
deriving DecidableEq, Repr

/-- Byte-addressed storage (R277). -/
abbrev Memory := List Host.Cell

/-- The five engines of a core (R258), in the order of TCAUSE.STREAM (R242). -/
inductive Eng where
  | c | a | v | m | s
deriving DecidableEq, Repr, Inhabited

/-- One architectural fault, as R240, R242 and R418 record it. -/
structure FaultInfo where
  cause : Nat
  eng : Eng
  pc : Nat
  /-- byte offset accessed, or queue number -/
  addr : Nat
  /-- completion object's offset of an engine-operation fault -/
  info : Nat
  /-- imm12 of TRAP -/
  swc : Nat
  /-- the fault belongs to a forked engine operation -/
  engop : Bool
deriving DecidableEq, Repr

/-- What a stream is doing at its PC. -/
inductive StreamStatus where
  /-- executing, or waiting under R103 and executing again when it is next served -/
  | running
  /-- stopped at a retiring NOTIFY (R274) -/
  | arrived
  /-- arrived at a CBAR (kind 0), PHASE (kind 1, entry `arg`) or NOTIFY.cont (kind 2) that it has not passed (R246,
  R247, R275), or at an unassigned X word (kind 3, R90) -/
  | joint (kind arg : Nat)
  /-- stopped at a YIELD whose take is true, with its live set (R248) -/
  | yielded (ls : Nat)
  /-- stopped at a fault that is not yet taken (R240) -/
  | faulted (f : FaultInfo)
  /-- held by an outstanding page fault with this tag (R343), at a byte offset of its object -/
  | held (tag off : Nat)
  /-- registered in a monitor table (R143, R151) -/
  | sleeping
  /-- re-reading because the monitor table was full (R143) -/
  | polling
deriving DecidableEq, Repr

/-- One stream of a crew (R258 to R267). -/
structure Stream where
  pc : Nat
  /-- bytes of text walked (R259) -/
  path : Nat
  /-- wait class (R267) -/
  wait : Nat
  status : StreamStatus
  /-- outcome FIFO, oldest first (R261); C has none -/
  fifo : List Word
  /-- joint outcomes taken, as R179 counts them -/
  joints : Nat
  /-- the stream's copy of n1 to n7 (R272) -/
  n : Sp 16
  /-- dependence counters d0 to d7 that the engine steps (R270) -/
  d : Sp 10
deriving DecidableEq, Repr

/-- One entry of an architectural queue (R80, R133, R134). -/
structure QEntry where
  data : Row
  /-- failure mark: 0 none, else the cause raised at the pop -/
  fail : Nat
  /-- reserved by an LDQ whose data has not returned -/
  pending : Bool
  /-- PC and offset of the LDQ, for the fault record of R134 -/
  pc : Nat
  addr : Nat
deriving DecidableEq, Repr

/-- An unfinished engine operation of a crew, with the fields of its replay descriptor (R150, R353). -/
structure EngOp where
  /-- 1 LDV, 2 COPY, 3 COPYMC, 4 GATHER, 5 SCATTER -/
  kind : Nat
  pc : Nat
  /-- descriptor word (R136, R148) -/
  desc : Word
  /-- s(c+1), or for LDV the offset of the first row -/
  aux : Word
  src : Cap
  dst : Cap
  /-- completion-object capability, zero when CE = 0 -/
  ccap : Cap
  /-- index of the first row not yet written and counted -/
  next : Nat
  /-- false-guarded: moves no row, keeps its place (R66, R136) -/
  nulled : Bool
  /-- cause of the fault the operation met, 0 for none -/
  fault : Nat
  /-- byte offset at which it met it (R238's TADDR) -/
  faultOff : Nat
  /-- A's PATH at issue (R137) -/
  path : Nat
  /-- first ring slot claimed, once claimed (R149 RNG) -/
  claim : Option Nat
  /-- the completion increment was made or has failed -/
  signalled : Bool
  /-- its dependence counter has fallen -/
  fell : Bool
  /-- page-fault tag that holds it (R149) -/
  heldBy : Option Nat
  /-- cores without a receiver that COPYMC has skipped (R149) -/
  skipped : List Nat
  /-- the fabric request of the row or increment under way -/
  req : Option Nat
  /-- messages and keyed reductions of its crew with a lower number were issued before it (R289) -/
  afterMsg : Nat
  afterKey : Nat
  /-- the step that its rows to a group share (R438) -/
  step : Option Nat := none
deriving DecidableEq, Repr

/-- What V holds for the instruction under way (R154, R155, R349). -/
structure VCtx where
  vrep : Nat
  guard : Option Word
  d1val : Option Word
  d2val : Option Word
deriving DecidableEq, Repr

/-- What M holds for the command under way and the A-bypass buffer (R185, R194). -/
structure MCtx where
  /-- latched format word of the command under way -/
  fw : Option Word
  mprog : Nat
  /-- latched gather or scatter list, one 16-bit entry each -/
  gather : Sp 16
  scatter : Sp 16
  /-- rows popped from q1 for the group or tile row under way -/
  group : List Row
  flags : BitVec 6
  bypValid : Bool
  bypFmt : Nat
  /-- A-bypass element (row, column) at 128·row + column, as its format's bits -/
  byp : Sp 32
deriving DecidableEq, Repr

/-- What S holds for the instruction under way (R218). -/
structure SCtx where
  active : Bool
  /-- the next step or channel; 1 once SNET has contributed or CSEND has sent (R218) -/
  sprog : Nat
  flags : BitVec 6
  rowX : Option Nat
  /-- the readout vector of an operator with CI = 1, read before the first active step (R205); empty until then -/
  cv : List Row := []
deriving DecidableEq, Repr

/-- Trap registers and the handler banks of C and A (R238, R241). -/
structure TrapCtx where
  inHandler : Bool
  tcause : Word
  tpc : Word
  taddr : Word
  tinfo : Word
  hcs : Sp 64
  has : Sp 64
  hk : Sp 128
  hcp : BitVec 16
  hap : BitVec 16
  hpcC : Nat
  hpcA : Nat
  hwaitC : Nat
  hwaitA : Nat
  /-- text object of the handler in force -/
  htext : Nat
  /-- what the handler's C and A are doing; the crew's own C and A keep their status (R241) -/
  hstC : StreamStatus
  hstA : StreamStatus
deriving DecidableEq, Repr

/-- The pre-emption, debug and watchdog state of a crew (R238, R248, R256, R268). -/
structure CtlCtx where
  preq : Bool
  deadline : Nat
  /-- the count does not run: the crew's own SUSPEND waits (R254) -/
  noDeadline : Bool
  pbres : Word
  dbgctl : Word
  dbgstat : Word
  /-- the launch for whose crews the scheduler raised PREQ, 0 for none (R318) -/
  preqFor : Nat
  /-- single step (R257): 0 none, 1 the stepped stream has still to retire, 2 it has retired -/
  stepping : Nat
  /-- the debug stop under way began with DEFER set: it is reported, and cleared when the crew runs on (R257) -/
  deferSeen : Bool
  stall : Nat
  /-- the crew is held by the carve-time zeroing (R317) -/
  scrubHold : Bool
deriving DecidableEq, Repr

/-- The crew's remainder stack (R220 to R225): depth, spilled count, and the rows and tags of the window by stack
position; spilled rows stand in the remainder object in memory. -/
structure RemCtx where
  rdepth : Nat
  rspill : Nat
  row : Sp 512
  tag : Sp 16
deriving DecidableEq, Repr

/-- A crew resident on a slot (R77, R258). -/
structure Crew where
  /-- the launch it belongs to, by the scheduler's number -/
  launch : Nat
  rank : Nat
  tenant : Nat
  /-- FLAGS and TEXT of its launch record (R303) -/
  flags : BitVec 16
  text : Nat
  /-- declared footprint (R303) and where its scratchpad runs start (R278) -/
  ra : Nat
  rb : Nat
  nt : Nat
  nh : Nat
  nv : Nat
  baseA : Nat
  baseB : Nat
  /-- active streams in the ENG coding of R303 -/
  eng : BitVec 5
  strC : Stream
  strA : Stream
  strV : Stream
  strM : Stream
  strS : Stream
  cs : Sp 64
  as : Sp 64
  cp : BitVec 16
  ap : BitVec 16
  k : Sp 128
  mask : Sp 64
  v : Sp 512
  /-- tile element (t, m, c) at 16384·t + 128·m + c -/
  acc : Sp 32
  /-- state element (h, c, d) at 8192·h + 64·c + d -/
  st : Sp 32
  o : Sp 64
  /-- q0 to q13 -/
  queues : List (List QEntry)
  fstat : BitVec 6
  slipw : Nat
  demote : Bool
  cd : Nat
  ors : Nat
  /-- C's PATH before the outermost BRL is kept in its stream; issue number of keyed reductions (R57) -/
  issueNo : Nat
  /-- SNETs executed in this launch (R213) -/
  exchNo : Nat
  /-- when it was created, in the order of the scheduler's count (R318) -/
  born : Nat
  /-- phase-table entry in force (R247) -/
  phase : Option Nat
  vctx : VCtx
  mctx : MCtx
  sctx : SCtx
  trap : TrapCtx
  ctl : CtlCtx
  rem : RemCtx
  ops : List EngOp
  /-- context error queue, up to 16 records (R420) -/
  errs : List Row
deriving DecidableEq, Repr

/-- A level entry of a launch record (R305). -/
structure Level where
  count : Nat
  domain : Nat
  scope : Nat
deriving DecidableEq, Repr

/-- An accepted launch (R302 to R310): the record's fields, and what the scheduler keeps of it. -/
structure Launch where
  id : Nat
  fn : Nat
  tenant : Nat
  queue : Nat
  cls : Nat
  flags : BitVec 16
  eng : BitVec 5
  levels : List Level
  migl : Nat
  scanl : Option Nat
  text : Nat
  slipw : Nat
  stallLimit : Nat
  doneObj : Word
  target : Nat
  ra : Nat
  rb : Nat
  nt : Nat
  nh : Nat
  nv : Nat
  save : Word
  rem : Word
  cto : Nat
  pidx : Nat
  pcnt : Nat
  /-- dependences: object word and target word, and whether it has been met -/
  deps : List (Word × Word × Bool)
  phases : List Row
  yields : List Row
  inits : List (Nat × Cap)
  digl : Word
  /-- the rows of the digest list as copied at acceptance (R306) -/
  digList : List Row
  /-- generation of the DONE object at acceptance (R325) -/
  doneGen : Nat
  /-- objects that hold its tables -/
  tabs : List Nat
  stages : List (BitVec 128)
  /-- ranks below this one have been placed -/
  nextRank : Nat
  /-- instances of each pipeline stage that are placed -/
  placed : List Nat
  retired : Nat
  completed : Bool
  /-- increments held back by a digested launch (R361), and whether one of them carries ERR -/
  held : Nat
  heldErr : Bool
  /-- digests: taken input, first-run output (R362) -/
  inDig : List (BitVec 128)
  outDig : List (BitVec 128)
  run : Nat
  /-- saves made of each rank (R350 SEQ) -/
  seqs : Sp 32
  /-- reduction progress of each rank, one more than 2^40 once all its numbers are complete (R58) -/
  progress : Sp 64
deriving DecidableEq, Repr

/-- What of a saved operation its replay descriptor has no place for (R353). -/
structure SideOp where
  claim : Option Nat
  skipped : List Nat
  faultOff : Nat
  /-- the increment has been made or has failed, or the operation was false-guarded -/
  signalled : Bool
  /-- tag of the page fault that held it (R346) -/
  heldBy : Option Nat
  /-- the cause with which it fails at its join, and the object and offset where, once that fault is answered with fail (R346) -/
  failed : Option (Nat × Nat)
  afterKey : Nat
  /-- its step number in the group that it writes to (R438) -/
  step : Option Nat
deriving DecidableEq, Repr

/-- What a crew carries and its record has no place for (R349, R353): of each replay; cause, PC and address of each
failure-marked entry, the handler's text, PBRES, the issue and exchange numbers. -/
structure SideCtx where
  ops : List SideOp
  /-- what the streams C, A, V, M and S stand at whose wait class is 0xB (R246 to R249) -/
  meets : List StreamStatus
  /-- operations that have completed faulted and been counted down, beyond the 64 that the record holds; their fault is
  still to be joined -/
  joins : List EngOp
  fails : List (Nat × Nat × Nat)
  htext : Nat
  pbres : Word
  issueNo : Nat
  exchNo : Nat
  born : Nat
  /-- page faults that hold its streams: tag, and what a RESOLVE with fail would report -/
  held : List (Nat × FaultInfo)
  /-- the readout vector that S has read (R205) -/
  cv : List Row
deriving DecidableEq, Repr

/-- The scheduler's entry for a saved context (R318, R346, R350). -/
structure SavedCtx where
  launch : Nat
  rank : Nat
  seq : Nat
  kind : Nat
  /-- Saffron cores only (R203, R236, R358) -/
  needF : Bool
  /-- waits for the answer to this page fault (R346) -/
  waits : Option Nat
  /-- migration group, restored whole (R358) -/
  group : Option Nat
  side : SideCtx
  order : Nat
deriving DecidableEq, Repr

/-- A record that a front end has taken a copy of and not yet checked (R250, R312, R433). -/
structure Submission where
  fn : Nat
  /-- submitted by the Clove controller (R237) -/
  clove : Bool
  queue : Nat
  obj : Nat
  off : Nat
  image : BitVec 4096
deriving DecidableEq, Repr

/-- A contribution of one member to a scan exchange (R213). -/
structure Contribution where
  idx : Nat
  kind : Nat
  clen : Nat
  count : Nat
  w : Nat
  /-- aggregate tiles: element (tile, c, d) at 8192·tile + 64·c + d -/
  agg : Sp 32
  /-- channels of the block that are poisoned (R421) -/
  bad : List Nat
  /-- exchange number the member gave -/
  exch : Nat
  core : Nat
  slot : Nat
  rank : Nat
deriving DecidableEq, Repr

/-- An aggregate of a dyadic block, as a carry list entry holds it (R214, R369). -/
structure CarryEntry where
  start : Nat
  log2 : Nat
  w : Nat
  agg : Sp 32
  /-- channels whose rows came marked as poisoned (R421) -/
  bad : List Nat
deriving DecidableEq, Repr

/-- A carry packet on a link: the raw 64-byte header, and its payload rows as row records (R369). -/
structure WirePacket where
  header : Row
  records : List RowRecord
  /-- positions of the marked rows, which are poisoned (R421) -/
  marks : List Nat
  /-- the packet fails link integrity (R370) -/
  bad : Bool
deriving DecidableEq, Repr

/-- A list packet as its header describes it (R369). -/
structure CarryPacket where
  /-- 1 list data, 2 failure marker, 3 acknowledgement, 4 credit -/
  type : Nat
  kind : Nat
  cid : Nat
  exch : Nat
  clen : Nat
  verdict : Nat
  cause : Nat
  /-- the launch's DONE -/
  launch : Word
  inst : Nat
  entry : Nat
  nentry : Nat
  start : Nat
  log2 : Nat
  w : Nat
  pkt : Nat
  npkt : Nat
  rows : List Row
  /-- positions of the marked rows (R421) -/
  marks : List Nat
  seq : Nat
deriving DecidableEq, Repr

/-- One scan exchange on one die (R213, R214). -/
structure Exchange where
  die : Nat
  launch : Nat
  inst : Nat
  exch : Nat
  /-- a member has contributed or an acting CRECV has been issued; packets alone do not open it (R371) -/
  opened : Bool
  /-- operator kind and clen that SNET, CRECV and CSEND have named -/
  params : List (Nat × Nat)
  contribs : List Contribution
  /-- packets of the incoming list held in the carry store, oldest first, and the link they came by -/
  held : List CarryPacket
  inLink : Nat
  /-- cycle at which the acting CRECV was issued -/
  recvAt : Option Nat
  /-- cycle at which the acting CSEND was issued, one later for each cycle that it has waited for credits (R370) -/
  sendAt : Option Nat
  /-- 0, or the cause 0x13 or 0x14 with which it failed -/
  failed : Nat
  /-- the network has formed the carries -/
  carried : Bool
  /-- carries that members have still to collect: rank, whether there is one to write, its elements -/
  kept : List (Nat × Bool × Sp 32)
  /-- the poisoned channels of the carries: rank, channels (R421) -/
  bads : List (Nat × List Nat)
  /-- the outgoing list and its verdict, once formed -/
  out : List CarryEntry
  outVerdict : Nat
  /-- the die's CSEND: 0 nothing sent, 1 sent and not yet acknowledged, 2 acknowledged, 3 its exit stayed down -/
  sent : Nat
deriving DecidableEq, Repr

/-- A translated access: where its bytes are, or the remote object they belong to. -/
structure Acc where
  /-- target of R334; 8 for the crew's own scratchpad, 9 for its die's Commons, 10 for a store that the source stop refuses -/
  tgt : Nat
  /-- key of the unit's first byte, for local targets -/
  key : Nat
  ord : Nat
  cp : Nat
  /-- remote: peer-table word 0, object and byte offset there; for a peer core's scratchpad 0, and the object and offset
  of the page it is reached through -/
  peer : Nat
  robj : Nat
  roff : Nat
  /-- key of the slot whose partition is reached, for scratchpad targets -/
  slotKey : Nat
deriving DecidableEq, Repr

/-- One forward carry link (R368, R370): 0 to 6 from die i to die i + 1, 7 to 10 the ports CP0 to CP3. A port that is an
exit sends, one that is an entry receives. -/
structure CarryLink where
  id : Nat
  up : Bool
  /-- packets that wait for credits, oldest first, and whether each takes a place in this die's own carry store, which is
  free again once it has been sent on: the link that it came by -/
  pending : List (CarryPacket × Option Nat)
  /-- packets sent and not yet acknowledged, oldest first -/
  unacked : List CarryPacket
  /-- packets on the wire, oldest first: towards this package's receiver, or out of the package, where they stand until they are
  acknowledged -/
  flight : List WirePacket
  /-- acknowledgement packets (TYPE 3) on the reverse direction, oldest first -/
  acks : List WirePacket
  nextSeq : Nat
  expect : Nat
  /-- credits the sender holds -/
  credits : Nat
  /-- credit packets (TYPE 4) on the reverse direction, oldest first -/
  freed : List WirePacket
  /-- the receiver has asked for a resend from `expect` -/
  resend : Bool
  /-- times in a row that the sender has sent packets again (R421) -/
  resends : Nat
deriving DecidableEq, Repr

/-- A message on the package ring or a rack ring (R373 to R376). -/
structure FabMsg where
  id : Nat
  /-- source and destination ring stops, and the unit at the destination: 0 to 3 a bridge station, 16 + c the bank units of core c -/
  src : Nat
  dst : Nat
  unit : Nat
  cid : Nat
  /-- class of R380 -/
  cls : Nat
  /-- form of the access, as in R345 -/
  form : Nat
  /-- peer device, object and byte offset at the peer -/
  peer : Nat
  obj : Nat
  gen : Nat
  off : Nat
  size : Nat
  op : Nat
  data : Payload
  cmp : Row
  /-- issuing crew, engine-operation row or queue entry that waits -/
  core : Nat
  slot : Nat
  pc : Nat
  /-- who waits: 0 nobody, 1 a stream (the A stream for data, any for a row of text), 2 a queue entry, 3 an engine-operation
  row, 4 a host copy, 5 nobody any more: the crew has left, and what returns is discarded (R386) -/
  waiter : Nat
  widx : Nat
  /-- 0 on its way, 1 NACKed and backing off, 2 performed, 3 answered void -/
  phase : Nat
  retries : Nat
  refused : Nat
  reply : Payload
  /-- times in a row that its link has sent it again (R34, R418) -/
  resends : Nat
  /-- cause with which it failed, 0 for none -/
  cause : Nat
  /-- inbound from another device -/
  inbound : Bool
  /-- cycle before which a NACKed request is not retried (R376); of one that stands at the bank units of a peer core, one more
  than the tag of the page fault that holds it there -/
  due : Nat
  /-- cycle at which the station's reply reservation expires, once a station has forwarded the request (R378) -/
  expires : Option Nat
  /-- step of a group operation (R438), and the device it comes from when it is inbound -/
  step : Nat
  from_ : Nat
  /-- members of a group peer that have still to perform it (R384) -/
  members : List Nat
  /-- the composition that the access was translated with (R341); none once the crew it reaches has left its slot -/
  acc : Option Acc := none
  /-- the row it carries is marked as poisoned (R421) -/
  marked : Bool := false
  /-- the last row of its group operation (R438) -/
  last : Bool := true
  /-- it goes on to the target of a live move, and its response returns through the stub (R414) -/
  forwarded : Bool := false
deriving DecidableEq, Repr

/-- A reduction resting in a core's combining buffer (R139), and the crews, by launch and rank, whose reductions it merges. -/
structure Resting where
  core : Nat
  owners : List (Nat × Nat)
  /-- it is to be flushed, and waits for a held keyed update of an owner to the same word (R129) -/
  due : Bool
  key : Nat
  size : Nat
  op : Nat
  x : Word
deriving DecidableEq, Repr

/-- A keyed floating reduction held by a bank ALU (R57, R58). -/
structure Keyed where
  launch : Nat
  issue : Nat
  rank : Nat
  key : Nat
  x : BitVec 32
  /-- an ATOM.fadd whose stream waits for the old value -/
  atom : Bool
  sig : Bool
  /-- it was issued on a strong page (R286) -/
  strong : Bool
  core : Nat
  slot : Nat
deriving DecidableEq, Repr

/-- A keyed ATOM.fadd that has been applied and whose stream has not yet collected the old value (R140). -/
structure KeyedDone where
  launch : Nat
  rank : Nat
  old : BitVec 32
deriving DecidableEq, Repr

/-- A monitor-table entry (R142): the owning unit, the row, the waiting stream, and the device it is of where that is not
this one. -/
structure Monitor where
  unit : Nat
  row : Nat
  core : Nat
  slot : Nat
  dev : Option Nat := none
deriving DecidableEq, Repr

/-- A combined entry of a die's translation cache (R340). -/
structure TlbEntry where
  die : Nat
  tenant : Nat
  space : Nat
  obj : Nat
  /-- 16 KiB piece of the object -/
  page : Nat
  /-- object generation and rights, target, order kind, policy and page bits as combined -/
  gen : Nat
  rights : Nat
  tgt : Nat
  ord : Nat
  cp : Nat
  pbits : Nat
  /-- address the 16 KiB piece starts at, in the target's own terms -/
  frame : Nat
  /-- device virtual address and guest-physical address of the piece, for shoot-downs (R253) -/
  va : Nat
  gpa : Nat
  fsg : Nat
  ssg : Nat
deriving DecidableEq, Repr

/-- An L2 line pinned by KEEP (R152), and the page through which it was pinned (R347): object, device virtual address or, of
an extent object, byte offset, and guest-physical address. -/
structure Pin where
  tenant : Nat
  line : Nat
  obj : Nat
  paged : Bool
  va : Nat
  gpa : Nat
deriving DecidableEq, Repr

/-- An outstanding page fault (R344 to R346). -/
structure PageFault where
  tag : Nat
  tenant : Nat
  /-- function whose pager serves it -/
  pager : Nat
  stage : Nat
  form : Nat
  obj : Nat
  off : Nat
  addr : Nat
  /-- bytes of the page that the fault is on: 16 KiB, or 2 MiB for an absent large-page leaf -/
  size : Nat
  /-- the record has been written to the fault queue -/
  written : Bool
  /-- served by the pull engine of a live move (R413) -/
  pull : Bool
deriving DecidableEq, Repr

/-- A region of a core's storage and the tenant that last held it (R317). Kinds: 0 A-side rows, 1 B-side rows,
2 tiles, 3 state tiles, 4 vector registers, 5 FIFOs of a slot, 6 A-bypass of a slot, 7 stack half of a slot. -/
structure Region where
  core : Nat
  kind : Nat
  base : Nat
  count : Nat
  tenant : Nat
deriving DecidableEq, Repr

/-- A trap handler installed in a tenant's table (R244). -/
structure Handler where
  tenant : Nat
  cause : Nat
  text : Nat
  entry : Nat
  data : Nat
deriving DecidableEq, Repr

/-- A command port (R431). Ports 0 to 31 update ports of the functions, 32 tenant port, 33 to 36 scrubber ports,
37 group port, 40 + f attestation port of function f. -/
structure Port where
  id : Nat
  staged : Row
  latched : Row
  run : Bool
  lost : Bool
  code : Nat
  tag : Nat
  /-- the command has begun and goes on over several steps -/
  begun : Bool
deriving DecidableEq, Repr

/-- A group number in use (R383), with the step tables of R438. -/
structure Group where
  num : Nat
  gen : Nat
  tenant : Nat
  /-- 0 multicast, 1 reduction -/
  kind : Nat
  members : List Nat
  dones : List Word
  live : Bool
  steps : Nat
  /-- steps performed, by source device: the step below which every one is, and the 64 from it on -/
  performed : List (Nat × Nat × Word)
  /-- members in retention, and the operations kept for them by number of the member -/
  resting : List Nat
  kept : List (Nat × FabMsg)
  /-- the local function has been withdrawn (R385) -/
  withdrawn : Bool
  /-- devices whose member has been withdrawn: no row from them is taken (R385) -/
  gone : List Nat
deriving DecidableEq, Repr

/-- What a source sends of a frozen tenant (R412 step 3): launches numbered from 0, queue records, contexts, handlers,
translation registers by offset, and the rows of the context records by the target's frame addresses; to the source, the
target's pull list and its new identifier. -/
structure MoveImage where
  launches : List Launch
  queued : List (Nat × Nat)
  saved : List SavedCtx
  handlers : List Handler
  regs : List (Nat × Word)
  rows : List (Nat × Row)
  /-- addresses among them of rows that are marked as poisoned (R421) -/
  marks : List Nat
  pulls : List (Nat × Nat)
  newCid : Nat
  /-- reductions held for their keys, at the target's addresses, and answers that streams have still to collect (R58, R140) -/
  keyed : List Keyed
  keyedDone : List KeyedDone
deriving DecidableEq, Repr

/-- A live move seen from one function (R411 to R415). -/
structure Move where
  fn : Nat
  /-- the other device and function -/
  peerDev : Nat
  peerFn : Nat
  /-- this device is the target -/
  target : Bool
  /-- pull list: target frame and source frame, and whether it has been pulled -/
  pulls : List (Nat × Nat × Bool)
  /-- the contexts and tables have been received or sent -/
  transferred : Bool
  /-- the target has begun to restore the crews -/
  resumed : Bool
  /-- forwarding-stub entries that still stand: the old identifier -/
  stubs : List Nat
  /-- the tenant's identifier on the target, once known -/
  newCid : Nat
  /-- the contexts and tables that have been sent, or received; at the source also the pulled frames, by target frame, with their
  rows and the numbers of those that are marked (R412, R413, R421) -/
  image : Option MoveImage := none
  sent : List (Nat × List Row × List Nat) := []
deriving DecidableEq, Repr

/-- A device event waiting to be written (R433). -/
structure DevEvent where
  fn : Nat
  hseq : Nat
  status : Nat
  type : Nat
  eseq : Nat
deriving DecidableEq, Repr

/-- A copy that a Yarrow engine has accepted from a host queue (R433). -/
structure HostCopy where
  fn : Nat
  toHost : Bool
  obj : Word
  haddr : Nat
  rows : Nat
  next : Nat
  doneObj : Word
  note : Bool
  hseq : Nat
  /-- the fabric request of the row under way, and the page fault that holds it -/
  req : Option Nat
  heldBy : Option Nat
deriving DecidableEq, Repr

/-- The device's power state (R439) and what a suspend has reached (R435). -/
inductive Power where
  | off | bootstrap | run | suspending (phase : Nat) (issuer : Option (Nat × Nat)) | retention | thermal
deriving DecidableEq, Repr

/-- The operands of an event of the package: which core, slot, function, die, queue, launch, entry or unit it concerns,
and the value written. Each event's meaning says which it reads. -/
structure EvArgs where
  core : Nat := 0
  slot : Nat := 0
  idx : Nat := 0
  fn : Nat := 0
  die : Nat := 0
  launch : Nat := 0
  queue : Nat := 0
  kind : Nat := 0
  unit : Nat := 0
  off : Nat := 0
  tenant : Nat := 0
  flag : Bool := false
  form : Form := .load
  v : Word := 0
  cap : Cap := 0
  row : Row := 0
  slots : List (Nat × Nat) := []
  /-- a carry packet or a message that comes from outside the package -/
  pkt : Option WirePacket := none
  msg : Option FabMsg := none
  /-- the contents of a moving tenant, and the rows of a pulled frame -/
  image : Option MoveImage := none
  rows : List Row := []
  /-- numbers of the rows that come marked as poisoned (R421) -/
  marks : List Nat := []
  /-- the answer of another device, as it stands on the link (R34) -/
  answer : Option Payload := none
  /-- saves that an uncorrectable error in the save area cuts short: core, slot and row of the record (R354) -/
  cuts : List (Nat × Nat × Nat) := []
deriving DecidableEq, Repr, Inhabited

/-- What the world outside does to the package that no event of the manual names. -/
inductive Outside where
  /-- the host link fails, or works again (R419) -/
  | hostLink (up : Bool)
  /-- the running firmware asks for a higher fused minimum version (R426) -/
  | minimum (v : Byte)
deriving DecidableEq, Repr, Inhabited

/-- One thing that happens in one step: the next instruction of a stream, an event of the package, or time. -/
inductive Activity where
  | stream (core slot : Nat) (eng : Eng)
  /-- as `stream`, but an instruction of M or S that is under way stops after at most `n` of its boundaries (R194, R218) -/
  | part (core slot : Nat) (eng : Eng) (n : Nat)
  | event (i : Instr) (a : EvArgs)
  | tick (n : Nat)
  | outside (o : Outside)
deriving DecidableEq, Repr, Inhabited

/-- The stream whose instruction is executing. -/
structure StreamRef where
  core : Nat
  slot : Nat
  eng : Eng
deriving DecidableEq, Repr

/-- Launch queues, contexts and the rest of the scheduler (R312 to R325). -/
structure Sched where
  launches : List Launch
  nextLaunch : Nat
  /-- the records of each queue by launch number, oldest first: pairs of queue and launch -/
  queued : List (Nat × Nat)
  /-- queue heads that have been found ready -/
  ready : List Nat
  arrivals : List Submission
  saved : List SavedCtx
  nextOrder : Nat
  /-- quarters under a quiesce (R251) -/
  quiesce : BitVec 4
  /-- round-robin position of each class: the queue after the one last served (R314) -/
  turn : Sp 16
  /-- dies whose CALSHADOW becomes the calendar at the boundary after the period in which GO was written -/
  calPending : List (Nat × Nat)
  /-- committed calendar slots, key 64·die + slot; the stored word is the slot XOR 0x100 (reset is open) -/
  calendar : Sp 16
  /-- increments held because their frame has still to be pulled (R413): tenant, object word, amount, ERR, and
  the object generation it is for -/
  late : List (Nat × Word × Nat × Bool × Option Nat)
  /-- changes of TEXTUSE held because the object's entry is behind an absent page (R328, R339): tenant, object, one more or one
  less -/
  textLate : List (Nat × Nat × Bool)
  /-- history of pipeline stages (R323): launch, stage, periods in a row with the ring at or above ADDHI, and by placed
  instance those with the ring empty and the instance idle -/
  pipes : List (Nat × Nat × Nat × Sp 16)
deriving DecidableEq, Repr

/-- Carry channel and fabric (R367 to R386). -/
structure Fabric where
  exchanges : List Exchange
  links : List CarryLink
  /-- where the members of scan groups stand: key launch·2^32 + rank, the die's number plus 1 -/
  homes : Sp 16
  /-- CARRYDROP of each die (R371) -/
  carryDrop : Sp 32
  msgs : List FabMsg
  nextMsg : Nat
  groups : List Group
  /-- containment identifiers marked draining (R386) -/
  draining : List Nat
  /-- messages dropped and counted at stops and stations -/
  dropped : Nat
  /-- links of the package ring that are down, by the stop that they lead to (R421, R423) -/
  ringDown : List Nat
deriving DecidableEq, Repr

/-- Translation and frames (R327 to R347, R404). -/
structure Xlat where
  tlb : List TlbEntry
  fsg : Sp 16
  ssg : Sp 16
  faults : List PageFault
  nextTag : Nat
  handlers : List Handler
  /-- frame records of 4 KiB blocks, by stack·2^24 + block (R404) -/
  frames : Sp 32
  pins : List Pin
  /-- second-stage leaf entries held for extent objects: tenant, object, guest-physical address of the frame (R330) -/
  heldSS : List (Nat × Nat × Nat)
deriving DecidableEq, Repr

/-- A lasting verdict (R423): unit kind and location, die, unit, core, whether the spares are exhausted, and of an HBM row its
blocks by stack and number. -/
structure Repair where
  kind : Nat
  off : Nat
  die : Nat
  unit : Nat
  core : Nat
  spent : Bool
  blocks : List (Nat × Nat)
deriving DecidableEq, Repr

/-- Host link, ports, errors, power (R417 to R440). -/
structure HostIf where
  ports : List Port
  events : List DevEvent
  /-- events written and not yet acknowledged, by function: kept for R434 -/
  written : List (Nat × Nat × Row)
  copies : List HostCopy
  /-- functions whose submission queue is fetched -/
  fetching : List Nat
  moves : List Move
  /-- the report window of each function that has asked for a report (R428) -/
  reports : List (Nat × BitVec 1664)
  hostsel : Bool
  measurement : BitVec 384
  /-- an uncorrectable error stopped the front ends (R427) -/
  cloveError : Bool
  harvested : List Nat
  retiring : List (Nat × Nat)
  /-- poisoned units: unit kind and location (R421) -/
  poison : List (Nat × Nat)
  /-- the repair list that firmware holds in the host's keeping: every lasting verdict, oldest first (R423, R440) -/
  repairs : List Repair
  /-- blocks withdrawn with a failing row: stack, block, and the tenant that keeps its mapping (R423) -/
  withdrawn : List (Nat × Nat × Nat)
  /-- Commons share of each die (R279): 0 none, 1 a quarter, 2 a half of the L2 -/
  commons : Sp 2
  /-- quarters whose RETCFG was valid when it was last judged (R435) -/
  retValid : BitVec 4
  /-- HSEQ of an OP 4 entry that asked for an event (R433) -/
  suspendNote : Option Nat
  /-- the host link works (R419) -/
  linkUp : Bool
  /-- MSI-X messages sent, by function·32 + vector (R419, R429) -/
  msix : Sp 64
  /-- the fused minimum of the firmware's security version (R426) -/
  minVersion : Byte
  /-- the collective exchange of a resume is under way: step tables of members are still to come (R436, R438) -/
  exchange : Bool
deriving DecidableEq, Repr

/-- What crews have left behind in carved resources (R15): accumulator elements by core·2^18 + physical element, state
elements by core·2^17 + element, vector registers by core·2^10 + register. -/
structure LeftCtx where
  acc : Sp 32
  st : Sp 32
  v : Sp 512
  /-- poisoned units among them (R421): 8·core + kind of `crewUnit`, physical unit -/
  poison : List (Nat × Nat)
deriving DecidableEq, Repr

/-- The whole package. -/
structure State where
  /-- package cycle counter (R111) -/
  cycle : Word
  /-- MODEL: activities still to happen, in order (not of the manual) -/
  agenda : List Activity
  /-- MODEL: counter to which free values are applied (not of the manual) -/
  freeCtr : Nat
  /-- MODEL: the stream whose instruction executes (not of the manual) -/
  cur : StreamRef
  /-- MODEL: the operands of the event that happens (not of the manual) -/
  ev : EvArgs
  /-- MODEL: boundaries of its instruction that the current M or S stream may serve in this step; none for all (R194, R218) -/
  part : Option Nat
  mem : Memory
  /-- resident crews, key 2·core + slot, rising -/
  crews : List (Nat × Crew)
  tags : List Region
  left : LeftCtx
  /-- the slot that each engine served last, plus 1: key 5·core + engine (R260) -/
  turns : Sp 2
  /-- registers of R430 that differ from their reset value, key function·2^16 + offset, rising -/
  regs : List (Nat × Word)
  resting : List Resting
  keyed : List Keyed
  keyedDone : List KeyedDone
  monitors : List Monitor
  sched : Sched
  fabric : Fabric
  xlat : Xlat
  host : HostIf
  power : Power
deriving DecidableEq, Repr

/-- What stops the model itself; the manual's own faults are next states. -/
inductive Fault where
  /-- an instruction was to execute in a stream that does not exist (no crew on the slot, or the engine is not
  active there); raised by every stream meaning; safe: the manual has no such stream -/
  | noStream
deriving DecidableEq, Repr

/-- Why the model has no meaning to give. -/
inductive Refusal where
  /-- the instruction has no meaning yet; safe -/
  | notModelled (mnemonic : String)
deriving DecidableEq, Repr

/-- A stream at the start of the text. -/
def Stream.fresh : Stream :=
  { pc := 0, path := 0, wait := 0, status := .running, fifo := [], joints := 0, n := [], d := [] }

/-- The package after bring-up (R440): host queues accept entries, nothing has been launched. -/
def State.reset : State :=
  { cycle := 0, agenda := [], freeCtr := 0, cur := ⟨0, 0, .c⟩, ev := {}, part := none, mem := [], crews := [],
    tags := [], left := ⟨[], [], [], []⟩, turns := [], regs := [],
    resting := [], keyed := [], keyedDone := [], monitors := [],
    sched := { launches := [], nextLaunch := 1, queued := [], ready := [], arrivals := [], saved := [],
               nextOrder := 0, quiesce := 0, turn := [], calPending := [], calendar := [], late := [], textLate := [], pipes := [] },
    fabric := { exchanges := [],
                links := (List.range 11).map fun i =>
                  { id := i, up := true, pending := [], unacked := [], flight := [], acks := [], nextSeq := 0,
                    expect := 0, credits := 16, freed := [], resend := false, resends := 0 },
                homes := [],
                carryDrop := [], msgs := [], nextMsg := 0, groups := [], draining := [], dropped := 0, ringDown := [] },
    xlat := { tlb := [], fsg := [], ssg := [], faults := [], nextTag := 1, handlers := [], frames := [], pins := [], heldSS := [] },
    host := { ports := [], events := [], written := [], copies := [], fetching := [], moves := [],
              reports := [], hostsel := false, measurement := 0, cloveError := false, harvested := [], retiring := [],
              poison := [], repairs := [], withdrawn := [], commons := [], retValid := 0, suspendNote := none,
              linkUp := true, msix := [], minVersion := 0, exchange := false },
    power := .run }

end Sys2Proof.Machine
end

