-- ==== Sys2Proof/Config.lean ====
section
/-!
DEFINITION. Config.lean: free values. Each is a constant without a body: nothing can evaluate it, and a statement
holds whatever it is.
-/
namespace Sys2Proof.Config

/-- A byte of the signature that the device identity key makes over a message (R365, R428): the key never leaves the
device, so no value is known. Argument: the SHA-384 of the message, and the byte's number. -/
opaque signatureByte : Nat → Nat → Byte

/-- A byte of the certificate chain read from IDCERT (R428). -/
opaque idcertByte : Nat → Byte

/-- What the header of a firmware image holds (R426). -/
structure BootHeader where
  magic : Nat
  length : Nat
  keyIndex : Nat
  publicKey : List Byte
  version : Byte
deriving DecidableEq, Repr, Inhabited

/-- The header of a firmware image (R426 gives its fields and no layout). -/
opaque bootHeader : List Byte → BootHeader

/-- The hash in a fused key slot; none where there is no such slot or it is revoked (R426). -/
opaque fusedKey : Nat → Option (BitVec 384)

/-- Whether the signature of an image verifies under a public key (R426: the signature's place in the image is not given).
Arguments: the image, the key, and SHA-384 of header and body. -/
opaque bootSigned : List Byte → List Byte → List Byte → Bool

/-- The header and body of a firmware image, which are measured (R426). -/
opaque bootBody : List Byte → List Byte

/-- A tenant's pin quota, in 128-byte lines (R152). -/
opaque pinQuota : Nat → Nat

/-- Whether a translation cache still holds an entry when an access looks it up (R340, R341: an access may use the old
composition or the new one until a shoot-down completes). Argument: the free-value counter. -/
opaque cacheKept : Nat → Bool

/-- What happens next when the agenda names nothing: which stream issues, which event of the package falls due, or how
much time passes (R260, R320, R326 leave the order and the times open). Argument: the free-value counter. -/
opaque nextActivity : Nat → Machine.Activity

/-- The region of the tenant's default save area that firmware gives a launch whose SAVE names object 0 (R351), in the
form of DONE. Arguments: the tenant and the launch's number. -/
opaque defaultSave : Nat → Nat → Word

/-- The arbitration seed of a run of a checked launch (R362): it fixes no value. Arguments: the launch's number, the run. -/
opaque arbSeed : Nat → Nat → Word

/-- A row that a digest covers and whose address cannot be translated (R363 gives it no value). Arguments: object and
offset. -/
opaque unreadRow : Nat → Nat → Row

/-- This device's number in the fabric, which the board gives it (R367, R411 name other devices' numbers only). -/
opaque deviceNumber : Nat

/-- The image of a GALLOC command (R383 gives its contents and not its layout): tenant, kind, member devices with the root
first, and each member's completion object; none where it is malformed. -/
opaque groupImage : Row → Option (Nat × Nat × List Nat × List Word)

/-- The argument of FREEZE (R400 gives its place and R411 its contents, not its layout): target device and function. -/
opaque freezeArgument : Row → Nat × Nat

/-- The argument of ADMIT: source device, source function, object number of the pull list. -/
opaque admitArgument : Row → Nat × Nat × Nat

/-- The pairs of target frame and source frame that the rows of a pull list hold (R411 gives no layout). -/
opaque pullPairs : List Row → List (Nat × Nat)

/-- The request of an attestation command (R428 gives no layout): the function named and the nonce. -/
opaque attestationArgument : Row → Nat × BitVec 256

/-- Type byte of the event that a suspend posts on every live event queue (R435 step 4: R433 gives no type for it). -/
opaque suspendEventType : Nat

/-- A byte of a retention area after a suspend, where it is written (R435 gives no layout). Arguments: the free-value counter,
the quarter and the byte's number. -/
opaque retentionByte : Nat → Nat → Nat → Option Byte

/-- Whether the throttling of a power cap idles the engines while time passes (R439 leaves the spreading to the Clove).
Argument: the free-value counter. -/
opaque throttled : Nat → Bool

/-- The order kind of the page that a space-5 access reaches at its owner (R277, R284): no table of this device holds it.
Arguments: the peer's device number, the object and the byte offset there. -/
opaque remoteKind : Nat → Nat → Nat → Fin 3

/-- What sd receives from a ring operation that failed on its way to a peer core (R153 reports it imprecisely and gives no
value). Argument: the free-value counter. -/
opaque ringUnanswered : Nat → Word

/-- Whether a station of another member still reports a packet of a group as outstanding (R383). Argument: the free-value
counter. -/
opaque memberOutstanding : Nat → Bool

/-- The hash that chooses a ring pair among those cabled (R377). Arguments: the destination device and page. -/
opaque pairHash : Nat → Nat → Nat

/-- The hash that chooses the home slice of a line among the slices of its quarter's dies (R280). Argument: the line. -/
opaque homeHash : Nat → Nat

/-- The fabric device number and the port that a CPLINK value records (R367 gives their bits no places). -/
opaque cplinkFar : Word → Nat × Nat

end Sys2Proof.Config
end

