-- ==== Sys2Proof/Machine/Store.lean ====
section
/-!
DEFINITION. Machine/Store.lean: the named operations over sparse stores, association lists, memory bytes and rows.
Byte order is decided here once (R2: little-endian, byte 0 in the low bits).
-/
namespace Sys2Proof.Machine

/-! ### Sparse stores -/

/-- The value at a number; unlisted numbers read 0. -/
def spGet {w : Nat} : Sp w → Nat → BitVec w
  | [], _ => 0#w
  | (k, x) :: rest, n => if k = n then x else spGet rest n

/-- Writes a value; a zero is not listed, so equal contents are equal lists. -/
def spSet {w : Nat} (m : Sp w) (n : Nat) (x : BitVec w) : Sp w :=
  m.filter (fun p => decide (p.1 < n)) ++ (if x = 0#w then [] else [(n, x)]) ++ m.filter fun p => decide (n < p.1)

/-- The canonical form: strictly rising keys and no listed zero. -/
def spWf {w : Nat} : Sp w → Bool
  | [] => true
  | [(_, x)] => decide (x ≠ 0#w)
  | (k, x) :: (k', x') :: rest => decide (x ≠ 0#w) && decide (k < k') && spWf ((k', x') :: rest)

/-- Writes `f i` at `base + i` for `i < n`. -/
def spFill {w : Nat} (m : Sp w) (base : Nat) (f : Nat → BitVec w) : Nat → Sp w
  | 0 => m
  | n + 1 => spSet (spFill m base f n) (base + n) (f n)

/-- Zeroes every number of `[base, base + n)`. -/
def spClear {w : Nat} (m : Sp w) (base n : Nat) : Sp w :=
  m.filter fun p => decide (p.1 < base) || decide (base + n ≤ p.1)

/-- Keeps only the numbers of `[base, base + n)`. -/
def spKeep {w : Nat} (m : Sp w) (base n : Nat) : Sp w :=
  m.filter fun p => decide (base ≤ p.1) && decide (p.1 < base + n)

/-- The values at `base`, `base + 1`, … of a store whose keys all lie at or above `base`. -/
def spDense {w : Nat} : Sp w → Nat → Nat → List (BitVec w)
  | _, _, 0 => []
  | [], base, n + 1 => 0#w :: spDense [] (base + 1) n
  | (k, x) :: rest, base, n + 1 =>
      if k = base then x :: spDense rest (base + 1) n else 0#w :: spDense ((k, x) :: rest) (base + 1) n

/-- The values of `[base, base + n)`. -/
def spBlock {w : Nat} (m : Sp w) (base n : Nat) : List (BitVec w) := spDense (spKeep m base n) base n

/-- Lists the non-zero values of a dense run. -/
def spList {w : Nat} : Nat → List (BitVec w) → Sp w
  | _, [] => []
  | base, x :: rest => if x = 0#w then spList (base + 1) rest else (base, x) :: spList (base + 1) rest

/-- Replaces `[base, base + l.length)` by the values of a list. -/
def spPut {w : Nat} (m : Sp w) (base : Nat) (l : List (BitVec w)) : Sp w :=
  (m.filter fun p => decide (p.1 < base)) ++ spList base l ++ m.filter fun p => decide (base + l.length ≤ p.1)

/-- Maps a list with the number of each entry. -/
def mapNth {α β : Type} (f : Nat → α → β) : Nat → List α → List β
  | _, [] => []
  | i, x :: rest => f i x :: mapNth f (i + 1) rest

/-! ### Association lists with rising keys -/

def asGet {α : Type} : List (Nat × α) → Nat → Option α
  | [], _ => none
  | (k, x) :: rest, n => if k = n then some x else asGet rest n

def asSet {α : Type} : List (Nat × α) → Nat → α → List (Nat × α)
  | [], n, x => [(n, x)]
  | (k, y) :: rest, n, x =>
      if k = n then (n, x) :: rest
      else if n < k then (n, x) :: (k, y) :: rest
      else (k, y) :: asSet rest n x

def asDel {α : Type} (m : List (Nat × α)) (n : Nat) : List (Nat × α) := m.filter fun p => decide (p.1 ≠ n)

/-- Replaces entry `i` of a list. -/
def setNth {α : Type} : List α → Nat → α → List α
  | [], _, _ => []
  | _ :: rest, 0, x => x :: rest
  | y :: rest, i + 1, x => y :: setNth rest i x

/-- Removes entry `i` of a list. -/
def delNth {α : Type} : List α → Nat → List α
  | [], _ => []
  | _ :: rest, 0 => rest
  | y :: rest, i + 1 => y :: delNth rest i

/-- Repeats a step a given number of times. -/
def iter {α : Type} (f : α → α) : Nat → α → α
  | 0, x => x
  | n + 1, x => iter f n (f x)

/-! ### Numbers as bytes -/

/-- The little-endian number of a byte list. -/
def leNat : List Byte → Nat
  | [] => 0
  | b :: rest => b.toNat + 256 * leNat rest

/-- The `n` little-endian bytes of a number. -/
def leBytes (x : Nat) : Nat → List Byte
  | 0 => []
  | n + 1 => BitVec.ofNat 8 x :: leBytes (x / 256) n

/-- Bits `lo .. lo+n-1` of a bit vector, as a number. -/
def fld {w : Nat} (x : BitVec w) (lo n : Nat) : Nat := x.toNat / 2 ^ lo % 2 ^ n

/-- Replaces bits `lo .. lo+n-1`. -/
def setFld {w : Nat} (x : BitVec w) (lo n v : Nat) : BitVec w :=
  BitVec.ofNat w (x.toNat - fld x lo n * 2 ^ lo + v % 2 ^ n * 2 ^ lo)

/-- Byte `i` of a row (R2). -/
def rowByte (r : Row) (i : Nat) : Byte := BitVec.ofNat 8 (r.toNat / 2 ^ (8 * i))

/-- The `w`-bit element `i` of a row (R2). -/
def rowElem (r : Row) (w i : Nat) : Nat := r.toNat / 2 ^ (w * i) % 2 ^ w

/-- A row of elements of width `w` by number. -/
def rowOf (w n : Nat) (f : Nat → Nat) : Row :=
  BitVec.ofNat 512 ((List.range n).foldl (fun acc i => acc + f i % 2 ^ w * 2 ^ (w * i)) 0)

/-! ### Memory -/

/-- What an unlisted address reads as: memory that nothing has written reads zero (R404, R440: every frame is clean;
log entry 2 elsewhere). -/
def memDefault : Byte := 0#8

/-- The canonical form of memory: rising addresses, no entry that holds the default. -/
abbrev Memory.wf (m : Memory) : Bool := spWf (w := 8) m

/-- One byte of storage. -/
def memGet (m : Memory) (a : Nat) : Byte := spGet (w := 8) m a

/-- Writes one byte of storage. -/
def memSet (m : Memory) (a : Nat) (b : Byte) : Memory := spSet (w := 8) m a b

/-- Reads `n` bytes at the addresses `a i`. -/
def memReadAt (m : Memory) (a : Nat → Nat) : Nat → List Byte
  | 0 => []
  | n + 1 => memReadAt m a n ++ [memGet m (a n)]

/-- Reads `n` consecutive bytes as a little-endian number. -/
def memReadN (m : Memory) (a : Nat) : Nat → Nat
  | 0 => 0
  | n + 1 => (memGet m a).toNat + 256 * memReadN m (a + 1) n

/-- Writes the `n` little-endian bytes of a number at consecutive addresses. -/
def memWriteN (m : Memory) (a : Nat) (x : Nat) : Nat → Memory
  | 0 => m
  | n + 1 => memWriteN (memSet m a (BitVec.ofNat 8 x)) (a + 1) (x / 256) n

/-! ### Storage regions (R277): keys of the one memory -/

/-- Byte `off` of HBM stack `stack` (R395, R397: contents follow stack bytes). -/
def hbmKey (stack off : Nat) : Nat := stack * 2 ^ 36 + off
/-- Byte `off` of the Commons of a die (R279). -/
def commonsKey (die off : Nat) : Nat := 2 ^ 64 + die * 2 ^ 26 + off
/-- Byte `b` of physical row `row` of group `g` (0 A-side, 1 B-side) of a core's scratchpad (R15). -/
def spadKey (core g row b : Nat) : Nat := 2 * 2 ^ 64 + core * 2 ^ 21 + g * 2 ^ 20 + row * 64 + b
/-- Byte of host memory. -/
def hostKey (a : Nat) : Nat := 3 * 2 ^ 64 + a % 2 ^ 64

end Sys2Proof.Machine
end

