-- ==== Sys2Proof/Machine/Regs.lean ====
section
/-!
DEFINITION. Machine/Regs.lean: the function register block (R430): where each register stands, what it reads after
reset, and the fields other operations use. Function 0 is the physical function (R398).
-/
namespace Sys2Proof.Machine

/-! ### Offsets (R430) -/

def rTENCFG (f : Nat) : Nat := 8 * f
def rOTBASE : Nat := 0x100
def rFSROOT : Nat := 0x108
def rRMBASE : Nat := 0x110
def rHTBASE : Nat := 0x118
def rBDBASE : Nat := 0x120
def rSSROOT : Nat := 0x128
def rFABPOL : Nat := 0x140
def rEQBASE : Nat := 0x180
def rEQCFG : Nat := 0x188
def rEQTAIL : Nat := 0x190
def rEQHEAD : Nat := 0x198
def rEQLOST : Nat := 0x1A0
def rFQBASE : Nat := 0x1C0
def rFQCFG : Nat := 0x1C8
def rFQTAIL : Nat := 0x1D0
def rFQHEAD : Nat := 0x1D8
def rFQLOST : Nat := 0x1E0
def rHSQBASE : Nat := 0x200
def rHSQCFG : Nat := 0x208
def rHSQDB : Nat := 0x210
def rHSQACK : Nat := 0x218
def rDEQBASE : Nat := 0x220
def rDEQCFG : Nat := 0x228
def rDEQSEQ : Nat := 0x230
def rDEQACK : Nat := 0x238
def rLQCFG (q : Nat) : Nat := 0x800 + 8 * q
def rVNCFG (d v : Nat) : Nat := 0xA00 + 64 * d + 8 * v
def rSPSLICE (d g : Nat) : Nat := 0xC00 + 64 * d + 8 * g
def rCPLINK (i : Nat) : Nat := 0xE00 + 8 * i
def rSPCORE (c : Nat) : Nat := 0x1000 + 8 * c
def rMEMIL (q : Nat) : Nat := 0x1800 + 8 * q
def rRSBND (s : Nat) : Nat := 0x1820 + 8 * s
def rPRESCORE (d : Nat) : Nat := 0x1900 + 8 * d
def rPRESSLICE (d : Nat) : Nat := 0x1940 + 8 * d
def rPRESSLICEH (d : Nat) : Nat := 0x1980 + 8 * d
def rPRESSTACK (s : Nat) : Nat := 0x19C0 + 8 * s
def rPRESPORT : Nat := 0x1A20
def rSSROOTf (f : Nat) : Nat := 0x1B00 + 8 * f
def rCALSHADOW (d s : Nat) : Nat := 0x2000 + 512 * d + 8 * s
def rCALCOMMIT (d : Nat) : Nat := 0x3000 + 8 * d
def rRETCFG (q : Nat) : Nat := 0x3100 + 8 * q
def rPWRCAP : Nat := 0x3120
def rBOOTADDR : Nat := 0x3128
def rBOOTLEN : Nat := 0x3130
def rBOOTSTAT : Nat := 0x3138
def rSTATO : Nat := 0x3140

/-- An offset of `n` consecutive registers from `base`. -/
def inRegs (off base n : Nat) : Bool := decide (base ≤ off) && decide (off < base + 8 * n) && decide (off % 8 = 0)

/-- The value a register holds after a cold start (the Reset columns of R376, R378, R394, R398, R401, R424, R319,
R379; zero for every other register). -/
def regReset (fn off : Nat) : Word :=
  if off = rFABPOL then 0x0004_1000
  else if fn ≠ 0 then 0
  else if inRegs off 0 32 then
    (if off = 0 then 0xF4000_0000#64 else BitVec.ofNat 64 (off / 8 * 256))
  else if inRegs off 0xC00 64 then 0x100
  else if inRegs off 0x1000 256 then 0x30000
  else if inRegs off 0x1800 4 then 0x1F
  else if inRegs off 0x1820 10 then 0xF
  else if inRegs off 0x1900 8 then 0xFFFF_FFFF
  else if inRegs off 0x1940 8 || inRegs off 0x1980 8 then 0xFFFF_FFFF_FFFF_FFFF
  else if inRegs off 0x19C0 12 then 64
  else if off = rPRESPORT then 0xFF_FFFF_FFFF
  else if inRegs off 0x2000 512 then 0x100
  else if off = rSTATO then 50
  else 0

/-- The stored value of a register. -/
def regGet (s : State) (fn off : Nat) : Word := (asGet s.regs (fn * 2 ^ 16 + off)).getD (regReset fn off)

/-- Stores a register value; a value equal to the reset value is not listed. -/
def regSet (s : State) (fn off : Nat) (v : Word) : State :=
  { s with regs := if v = regReset fn off then asDel s.regs (fn * 2 ^ 16 + off)
                   else asSet s.regs (fn * 2 ^ 16 + off) v }

/-- The register blocks answer: not before firmware runs (R426), nor without power. -/
def regsAnswer (s : State) : Bool :=
  match s.power with
  | .run => true
  | .suspending _ _ => true
  | _ => false

/-! ### Tenants and functions (R398, R399) -/

def tencfg (s : State) (f : Nat) : Word := regGet s 0 (rTENCFG f)
def fnState (s : State) (f : Nat) : Nat := fld (tencfg s f) 30 2
def fnTenant (s : State) (f : Nat) : Nat := fld (tencfg s f) 8 8
def fnGen (s : State) (f : Nat) : Nat := fld (tencfg s f) 16 8
def fnPart (s : State) (f : Nat) : Nat := fld (tencfg s f) 32 4
def fnTScope (s : State) (f : Nat) : Bool := decide (fld (tencfg s f) 25 1 = 1)
def fnDemTrap (s : State) (f : Nat) : Bool := decide (fld (tencfg s f) 26 1 = 1)

/-- The function whose tenant number this is, among those whose STATE is not free (R398). -/
def fnOf (s : State) (tenant : Nat) : Nat :=
  ((List.range 32).find? fun f => decide (fnState s f ≠ 0) && decide (fnTenant s f = tenant)).getD 0

/-- Some function that is not free bears this tenant number: the PF's does always (R398). -/
def hasFn (s : State) (tenant : Nat) : Bool :=
  (List.range 32).any fun f => decide (fnState s f ≠ 0) && decide (fnTenant s f = tenant)

/-- The containment identifier {TENANT, GEN} of a tenant (R399). -/
def cidOf (s : State) (tenant : Nat) : Nat := tenant * 256 + fnGen s (fnOf s tenant)

/-- A core's die, quarter and profile (R9, R10, R14). -/
def dieOf (core : Nat) : Nat := core / 32
def quarterOf (core : Nat) : Nat := core / 64
def isSaffron (core : Nat) : Bool := decide (dieOf core % 2 = 0)

/-- The L2 slices of a die that are present, in ascending order (R424). -/
def presentSlices (s : State) (die : Nat) : List Nat :=
  (List.range 128).filter fun i =>
    if i < 64 then (regGet s 0 (rPRESSLICE die)).getLsbD i else (regGet s 0 (rPRESSLICEH die)).getLsbD (i - 64)

/-- The Commons share of one slice of a die, in bytes: 0, 25 or 50 % of 512 KiB (R279). -/
def sliceShare (s : State) (die : Nat) : Nat :=
  match (spGet s.host.commons die).toNat with
  | 0 => 0
  | 1 => 2 ^ 17
  | _ => 2 ^ 18

/-- The Commons of a die in bytes: its share of every slice that is present (R18, R279). -/
def commonsBytes (s : State) (die : Nat) : Nat := (presentSlices s die).length * sliceShare s die

/-- The slice that holds byte `o` of a die's Commons: (o div 128) mod 128 where every slice is present (R279); the lines
go round the slices that are left where some have been retired (R18, log entry 87). -/
def commonsSlice (s : State) (die o : Nat) : Nat :=
  (presentSlices s die).getD (o / 128 % (presentSlices s die).length) 0

/-- The home slice of a line of device memory, as die and slice: one of the quarter whose stack holds it (R280). -/
def homeSlice (s : State) (stack line : Nat) : Nat × Nat :=
  let q := stack / 3
  let all := ((presentSlices s (2 * q)).map fun i => (2 * q, i)) ++ (presentSlices s (2 * q + 1)).map fun i => (2 * q + 1, i)
  all.getD (Config.homeHash line % all.length) (2 * q, 0)

/-- Whether slice group `g` of a die admits a tenant (R401). -/
def groupAdmits (s : State) (die g tenant : Nat) : Bool :=
  let r := regGet s 0 (rSPSLICE die g)
  decide (fld r 8 1 = 1) || decide (fld r 0 8 = tenant)

/-! ### Interleave (R394, R395) -/

/-- Lowest quarter and number of quarters of a partition mask. -/
def maskLow (m : Nat) : Nat := ((List.range 4).find? fun q => m.testBit q).getD 0
def maskCount (m : Nat) : Nat := ((List.range 4).filter fun q => m.testBit q).length

/-- Interleave granule of a GRAN code. -/
def granBytes (g : Nat) : Nat := if g = 0 then 4096 else if g = 2 then 2 ^ 21 else 2 ^ 16

/-- The window of the partition that holds quarter `q`: base and size. -/
def windowOf (s : State) (q : Nat) : Nat × Nat :=
  let m := fld (regGet s 0 (rMEMIL q)) 0 4
  (0x30_0000_0000 * maskLow m, 0x30_0000_0000 * maskCount m)

/-- Stack and byte of a device physical address (R395); none above the last window. -/
def hbmPlace (s : State) (a : Nat) : Option (Nat × Nat) :=
  let q := a / 0x30_0000_0000
  if q < 4 then
    let r := regGet s 0 (rMEMIL q)
    let m := fld r 0 4
    let g := granBytes (fld r 4 2)
    let ql := maskLow m
    let n := 3 * maskCount m
    let x := a - 0x30_0000_0000 * ql
    if n = 0 then none else some (3 * ql + x / g % n, x / g / n * g + x % g)
  else none

/-- Whether a tenant's partition window holds a device physical address; tenant 0 reaches every window (R393). -/
def inWindow (s : State) (tenant a : Nat) : Bool :=
  if tenant = 0 then decide (a / 0x30_0000_0000 < 4)
  else
    let p := fnPart s (fnOf s tenant)
    let b := 0x30_0000_0000 * maskLow p
    decide (b ≤ a) && decide (a < b + 0x30_0000_0000 * maskCount p)

/-- Frame record of a 4 KiB block (R404). -/
def frameRec (s : State) (stack block : Nat) : BitVec 32 := spGet s.xlat.frames (stack * 2 ^ 24 + block)
def setFrameRec (s : State) (stack block : Nat) (v : BitVec 32) : State :=
  { s with xlat := { s.xlat with frames := spSet s.xlat.frames (stack * 2 ^ 24 + block) v } }

/-- The block that holds a device physical address, as stack and block number. -/
def blockOf (s : State) (a : Nat) : Option (Nat × Nat) :=
  (hbmPlace s a).map fun p => (p.1, p.2 / 4096)

/-- Whether the four blocks of the 16 KiB frame at `a` are all owned by the tenant, a withdrawn block by the tenant that keeps
it mapped (R404, R423). -/
def frameOwned (s : State) (tenant a : Nat) : Bool :=
  (List.range 4).all fun i =>
    match blockOf s (a / 16384 * 16384 + 4096 * i) with
    | some (st, b) =>
      let r := frameRec s st b
      (decide (fld r 0 2 = 1) && decide (fld r 8 8 = tenant)) || s.host.withdrawn.contains (st, b, tenant)
    | none => false

/-- Whether a block of the 16 KiB frame at `a` has still to be pulled (R404, R413). -/
def framePend (s : State) (a : Nat) : Bool :=
  (List.range 4).any fun i =>
    match blockOf s (a / 16384 * 16384 + 4096 * i) with
    | some (st, b) => (frameRec s st b).getLsbD 2
    | none => false

/-- Ring stop of a die (R12): D0 to D3 are 0 to 3, Y1 is 4, D4 to D7 are 5 to 8, Y0 is 9. -/
def stopOf (die : Nat) : Nat := if die < 4 then die else die + 1

/-- A message of a tenant may pass between two dies: their stops lie in one partition, or the tenant is 0 (R396). -/
def mayCross (s : State) (tenant d e : Nat) : Bool :=
  decide (tenant = 0) || decide (fld (regGet s 0 (rRSBND (stopOf d))) 0 4 = fld (regGet s 0 (rRSBND (stopOf e))) 0 4)

/-- A die of a tenant's partition, for accesses that the Yarrow dies make on its behalf. -/
def agentDie (s : State) (tenant : Nat) : Nat := 2 * maskLow (fnPart s (fnOf s tenant))

/-! ### Device memory by physical address -/

/-- Key of a byte of device memory. -/
def physKey (s : State) (a : Nat) : Nat :=
  match hbmPlace s a with
  | some (st, o) => hbmKey st o
  | none => hbmKey 12 a

/-- Reads `n` bytes (within one 4 KiB granule) of device memory. -/
def physRead (s : State) (a n : Nat) : Nat := memReadN s.mem (physKey s a) n

end Sys2Proof.Machine
end

