-- ==== Sys2Proof/Machine/Xlate.lean ====
section
/-!
DEFINITION. Machine/Xlate.lean: capabilities, object tables, page tables, the two translation stages, the translation
cache, and the checks of one access in the order of R128 and R338.
-/
namespace Sys2Proof.Machine

/-! ### Capability fields (R119, R120) -/

def capSpace (c : Cap) : Nat := fld c 125 3
def capRights (c : Cap) : Nat := fld c 117 8
def capObj (c : Cap) : Nat := fld c 93 24
def capGen (c : Cap) : Nat := fld c 82 11
def capLimit (c : Cap) : Nat := fld c 41 41
def capCursor (c : Cap) : Nat := fld c 0 41

/-- A capability image from its fields. -/
def mkCap (space rights obj gen limit cursor : Nat) : Cap :=
  BitVec.ofNat 128 (space % 8 * 2 ^ 125 + rights % 256 * 2 ^ 117 + obj % 2 ^ 24 * 2 ^ 93 + gen % 2 ^ 11 * 2 ^ 82 +
    limit % 2 ^ 41 * 2 ^ 41 + cursor % 2 ^ 41)

def rightR : Nat := 1
def rightW : Nat := 2
def rightX : Nat := 4
def rightLC : Nat := 8
def rightSC : Nat := 16
def rightAT : Nat := 32
def rightSG : Nat := 64
def rightKP : Nat := 128

/-- Every right of the mask is held. -/
def hasRights (held mask : Nat) : Bool := decide (Nat.land held mask = mask)

/-! ### Object-table entries (R328, R337) -/

/-- The four words of a table entry. -/
structure ObjEnt where
  w0 : Nat
  w1 : Nat
  w2 : Nat
  w3 : Nat
deriving DecidableEq, Repr

def bitsOf (x lo n : Nat) : Nat := x / 2 ^ lo % 2 ^ n

def ObjEnt.valid (e : ObjEnt) : Bool := decide (bitsOf e.w0 63 1 = 1)
def ObjEnt.paged (e : ObjEnt) : Bool := decide (bitsOf e.w0 62 1 = 1)
def ObjEnt.ord (e : ObjEnt) : Nat := bitsOf e.w0 60 2
def ObjEnt.cp (e : ObjEnt) : Nat := bitsOf e.w0 58 2
def ObjEnt.rights (e : ObjEnt) : Nat := bitsOf e.w0 50 8
def ObjEnt.size (e : ObjEnt) : Nat := bitsOf e.w0 0 41
def ObjEnt.textuse (e : ObjEnt) : Nat := bitsOf e.w1 48 16
def ObjEnt.gen (e : ObjEnt) : Nat := bitsOf e.w1 0 11
def ObjEnt.count (e : ObjEnt) : Nat := bitsOf e.w2 56 8
def ObjEnt.vbase (e : ObjEnt) : Nat := bitsOf e.w2 14 34
def ObjEnt.xlist (e : ObjEnt) : Nat := bitsOf e.w2 6 34 * 64
def ObjEnt.hostAddr (e : ObjEnt) : Nat := bitsOf e.w2 6 46 * 64

/-- The reserved bits and reserved values of R328 for an object-table entry. -/
def ObjEnt.wellFormed (e : ObjEnt) : Bool :=
  decide (bitsOf e.w0 41 9 = 0) && decide (e.size % 64 = 0) && decide (bitsOf e.w1 11 37 = 0) && decide (e.w3 = 0) &&
    (if e.paged then decide (e.ord = 0) && decide (e.cp = 0) && decide (bitsOf e.w2 0 14 = 0) && decide (bitsOf e.w2 48 16 = 0)
     else decide (e.ord ≠ 3) && decide (e.cp ≠ 3) && decide (bitsOf e.w2 0 6 = 0) && decide (bitsOf e.w2 40 16 = 0) &&
       decide (1 ≤ e.count))

/-- The same for a host-table entry (R337). -/
def ObjEnt.hostWellFormed (e : ObjEnt) : Bool :=
  decide (bitsOf e.w0 41 9 = 0) && decide (e.size % 64 = 0) && decide (bitsOf e.w1 11 37 = 0) && decide (e.w3 = 0) &&
    !e.paged && decide (e.ord ≠ 3) && decide (e.cp ≠ 3) && decide (bitsOf e.w2 0 6 = 0) && decide (bitsOf e.w2 52 12 = 0)

/-! ### Failures and pages -/

/-- Why a translation fails: the cause, the stage, the address that stage translates, and whether a type 13 record is
made (R334, R339); whether it was met while a table was read (R345), and whether the absent entry is a large-page leaf. -/
structure XFail where
  cause : Nat
  stage : Nat
  addr : Nat
  record : Bool
  table : Bool := false
  large : Bool := false
deriving DecidableEq, Repr

/-- A leaf as one stage gives it (R333, R334). Page bits: 1 R, 2 W, 4 X, 8 AT. -/
structure Leaf where
  tgt : Nat
  ord : Nat
  cp : Nat
  /-- address field of the page's start -/
  addr : Nat
  bits : Nat
  large : Bool
  /-- a present entry of the walk is malformed, which is found after every absence (steps 6 and 7a of R338) -/
  bad : Bool
deriving DecidableEq, Repr

def xfail {α : Type} (cause stage addr : Nat) (record : Bool) : Except XFail α := .error { cause := cause, stage := stage, addr := addr, record := record }

/-- The ADDR bits a target leaves unused are zero (R334). -/
def leafAddrOk (tgt addr : Nat) (large : Bool) : Bool :=
  match tgt with
  | 0 => decide (bitsOf addr 40 12 = 0) && (!large || decide (bitsOf addr 14 7 = 0))
  | 1 => decide (bitsOf addr 25 15 = 0) && decide (bitsOf addr 43 9 = 0) && !large
  | 2 => decide (bitsOf addr 21 19 = 0) && !large
  | _ => true

/-- A walk of R331 to R333 for address `va`, reading 8-byte entries through `rd`. An absent entry (step 6 of R338) is
found before a malformed one (step 7a), which the leaf notes. -/
def dirWalk (stage : Nat) (root va : Nat) (rd : Nat → Except XFail Nat) : Except XFail Leaf :=
  match rd (root + 8 * bitsOf va 35 13) with
  | .error f => .error f
  | .ok top =>
    if bitsOf top 0 1 = 0 then xfail 0x06 stage va false
    else match rd (bitsOf top 15 25 * 2 ^ 15 + 8 * bitsOf va 23 12) with
    | .error f => .error f
    | .ok low =>
      if bitsOf low 0 1 = 0 then xfail 0x06 stage va false
      else
        let large := decide (bitsOf low 1 1 = 1)
        match rd (bitsOf low 6 34 * 64 + 8 * (if large then bitsOf va 21 2 else bitsOf va 14 9)) with
        | .error f => .error f
        | .ok lf =>
          if bitsOf lf 0 1 = 0 then .error { cause := 0x06, stage := stage, addr := va, record := false, large := large }
          else
            let tgt := bitsOf lf 61 3
            let addr := bitsOf lf 14 38 * 2 ^ 14
            let bad := decide (bitsOf top 1 14 ≠ 0 ∨ bitsOf top 40 24 ≠ 0 ∨
                bitsOf low 2 4 ≠ 0 ∨ bitsOf low 40 24 ≠ 0 ∨ (large = false ∧ bitsOf low 6 6 ≠ 0) ∨
                5 ≤ tgt ∨ bitsOf lf 59 2 = 3 ∨ bitsOf lf 57 2 = 3 ∨ bitsOf lf 52 5 ≠ 0 ∨ bitsOf lf 5 9 ≠ 0 ∨
                leafAddrOk tgt addr large = false)
            .ok ⟨tgt, bitsOf lf 59 2, bitsOf lf 57 2, addr, bitsOf lf 1 4, large, bad⟩

/-- Byte within a leaf's page. -/
def leafOffset (l : Leaf) (va : Nat) : Nat := if l.large then va % 2 ^ 21 else va % 2 ^ 14

/-! ### The second stage (R339) -/

/-- SSROOT of a tenant's function. -/
def ssroot (s : State) (tenant : Nat) : Word := regGet s 0 (rSSROOTf (fnOf s tenant))
def ssEnabled (s : State) (tenant : Nat) : Bool := decide (fld (ssroot s tenant) 63 1 = 1)

/-- A device physical address, in HBM. -/
def rdDevice (s : State) (a : Nat) : Except XFail Nat :=
  match hbmPlace s a with
  | some (st, o) => .ok (memReadN s.mem (hbmKey st o) 8)
  | none => xfail 0x07 2 a true

/-- The second stage's leaf for a guest-physical address. -/
def secondStage (s : State) (tenant gpa : Nat) : Except XFail Leaf :=
  match dirWalk 2 (fld (ssroot s tenant) 16 24 * 2 ^ 16) gpa (rdDevice s) with
  | .error f => .error f
  | .ok l =>
    if l.bad = false ∧ (l.tgt = 0 ∨ l.tgt = 3) ∧ l.ord = 0 ∧ l.cp = 0 then .ok l else xfail 0x07 2 gpa true

/-- Where a tenant's physical address lies: key of the byte and the page bits that apply. Its final frame must lie in the
tenant's window and be its own (R393, R397, R404). -/
def tenantPhys (s : State) (tenant a : Nat) : Except XFail (Nat × Nat) :=
  if ssEnabled s tenant then
    match secondStage s tenant a with
    | .error f => .error f
    | .ok l =>
      let pa := l.addr + leafOffset l a
      if l.tgt = 3 then .ok (hostKey pa, l.bits)
      else if !inWindow s tenant pa then xfail 0x07 2 a true
      else if !frameOwned s tenant pa then xfail 0x07 2 a true
      else .ok (physKey s pa, l.bits)
  else
    match hbmPlace s a with
    | some (st, o) =>
      if !inWindow s tenant a || !frameOwned s tenant a then xfail 0x07 1 a true else .ok (hbmKey st o, 15)
    | none => xfail 0x07 1 a true

/-- Device physical address of a tenant's physical address, where it is one of HBM. -/
def tenantHbm (s : State) (tenant a : Nat) : Option Nat :=
  if ssEnabled s tenant then
    match secondStage s tenant a with
    | .ok l => if l.tgt = 3 then none else some (l.addr + leafOffset l a)
    | .error _ => none
  else some a

/-- An 8-byte read of a tenant's own table (R327): guest-physical behind a virtual function. A table that lies in a frame
still to be pulled holds the walk (R413). -/
def rdTable (s : State) (tenant a : Nat) : Except XFail Nat :=
  match tenantPhys s tenant a with
  | .error f => .error { f with table := true }
  | .ok (k, _) =>
    match tenantHbm s tenant a with
    | some pa => if framePend s pa then .error { cause := 0x06, stage := 3, addr := pa, record := false, table := true }
                 else .ok (memReadN s.mem k 8)
    | none => .ok (memReadN s.mem k 8)

/-- Reads a 32-byte entry. -/
def rdEntry (s : State) (tenant a : Nat) : Except XFail ObjEnt := do
  let w0 ← rdTable s tenant a
  let w1 ← rdTable s tenant (a + 8)
  let w2 ← rdTable s tenant (a + 16)
  let w3 ← rdTable s tenant (a + 24)
  return ⟨w0, w1, w2, w3⟩

/-- Address of entry `n` of the object table. -/
def objEntAddr (s : State) (tenant n : Nat) : Nat :=
  fld (regGet s (fnOf s tenant) rOTBASE) 5 35 * 32 + 32 * n
def otcnt (s : State) (tenant : Nat) : Nat := fld (regGet s (fnOf s tenant) rOTBASE) 40 24
def hostEntAddr (s : State) (tenant n : Nat) : Nat :=
  fld (regGet s (fnOf s tenant) rHTBASE) 5 35 * 32 + 32 * n
def htcnt (s : State) (tenant : Nat) : Nat := fld (regGet s (fnOf s tenant) rHTBASE) 48 16

/-- The current entry of an object, checked at step 5a of R338; a tenant that no function bears has none (R398). -/
def lookupObj (s : State) (tenant obj : Nat) : Except XFail ObjEnt :=
  if !hasFn s tenant || decide (otcnt s tenant ≤ obj) then xfail 0x05 1 0 false
  else match rdEntry s tenant (objEntAddr s tenant obj) with
  | .error f => .error f
  | .ok e => if e.valid then .ok e else xfail 0x05 1 0 false

/-- The current host-table entry. -/
def lookupHost (s : State) (tenant obj : Nat) : Except XFail ObjEnt :=
  if !hasFn s tenant || decide (htcnt s tenant ≤ obj) then xfail 0x05 1 0 false
  else match rdEntry s tenant (hostEntAddr s tenant obj) with
  | .error f => .error f
  | .ok e => if e.valid then .ok e else xfail 0x05 1 0 false

/-- The entry of an object where one stands, for checks that only ask whether it does. -/
def objOf? (s : State) (tenant obj : Nat) : Option ObjEnt :=
  match lookupObj s tenant obj with
  | .ok e => some e
  | .error _ => none

/-- Whether an object is a current extent object of a tenant (R330). -/
def isExtentObj (s : State) (tenant obj : Nat) : Bool :=
  match objOf? s tenant obj with
  | some e => !e.paged
  | none => false

/-- Frame address of the extent that holds byte `o` (R328): `left` entries of the list from `list`. -/
def extentAt (s : State) (tenant list o : Nat) : Nat → Except XFail Nat
  | 0 => xfail 0x07 1 0 true
  | left + 1 =>
    match rdTable s tenant list with
    | .error f => .error f
    | .ok e =>
      let len := bitsOf e 48 16 * 16384
      if bitsOf e 0 14 ≠ 0 ∨ bitsOf e 40 8 ≠ 0 ∨ len = 0 then xfail 0x07 1 0 true
      else if o < len then .ok (bitsOf e 14 26 * 16384 + o)
      else extentAt s tenant (list + 8) (o - len) left

/-! ### Peers and bindings (R335, R336, R384) -/

/-- Peer-table entry: the two 8-byte words. -/
def peerEntry (s : State) (tenant p : Nat) : Except XFail (Nat × Nat) := do
  let b := fld (regGet s (fnOf s tenant) rRMBASE) 6 34 * 64 + 16 * p
  let w0 ← rdTable s tenant b
  let w1 ← rdTable s tenant (b + 8)
  return (w0, w1)

/-- The crew of a launch and rank that is resident, by key. -/
def residentOf (s : State) (launch rank : Nat) : Option Nat :=
  (s.crews.find? fun p => decide (p.2.launch = launch) && decide (p.2.rank = rank)).map (·.1)

/-- Resolves binding `b`: the key of the slot that holds the bound crew, `none` when the crew is saved (held, R335). -/
def resolveBinding (s : State) (tenant b va : Nat) : Except XFail (Option Nat) :=
  let r := regGet s (fnOf s tenant) rBDBASE
  if fld r 52 12 ≤ b then xfail 0x07 1 va true
  else match rdTable s tenant (fld r 4 36 * 16 + 16 * b), rdTable s tenant (fld r 4 36 * 16 + 16 * b + 8) with
  | .error f, _ => .error f
  | _, .error f => .error f
  | .ok w0, .ok w1 =>
    if bitsOf w0 0 1 = 0 ∨ bitsOf w0 1 2 ≠ 0 ∨ bitsOf w1 32 32 ≠ 0 then xfail 0x07 1 va true
    else
      let ls := s.sched.launches.filter fun l =>
        decide (l.tenant = tenant) && !l.completed && decide (l.doneObj.toNat / 8 = w0 / 8)
      match ls with
      | [l] =>
        match residentOf s l.id (bitsOf w1 0 32) with
        | some k => .ok (some k)
        | none =>
          if s.sched.saved.any (fun c => decide (c.launch = l.id) && decide (c.rank = bitsOf w1 0 32)) then .ok none
          else xfail 0x07 1 va true
      | _ => xfail 0x07 1 va true

/-! ### Where an access lands -/

/-- A remote target: another device, or a peer core's scratchpad (R153). -/
def Acc.remote (a : Acc) : Bool := decide (a.tgt = 4) || decide (a.tgt = 2)
def Acc.isSpad (a : Acc) : Bool := decide (a.tgt = 8) || decide (a.tgt = 2)
def Acc.isHost (a : Acc) : Bool := decide (a.tgt = 3)
/-- Every order rule of a loose page (R132). -/
def Acc.loose (a : Acc) : Bool := decide (a.ord = 2)

/-- What a form needs (R120, R138 to R143, R338, R141). -/
structure AccKind where
  form : Form
  rights : Nat
  /-- page bits needed -/
  bits : Nat
  hostOk : Bool
  spadOnly : Bool
  /-- the form returns data or waits (R384) -/
  returns : Bool
deriving DecidableEq, Repr

def kLoad : AccKind := ⟨.load, rightR, 1, true, false, true⟩
/-- KLD and KST. DESIGN CHOICE (log 89): host pages and space 6 take them, as they take every load and store, though neither
list of R141 names them. -/
def kKld : AccKind := ⟨.load, rightR + rightLC, 1, true, false, true⟩
def kWait : AccKind := ⟨.load, rightR + rightSG, 1, false, false, true⟩
def kStore : AccKind := ⟨.store, rightW, 2, true, false, false⟩
def kStoreSig : AccKind := ⟨.store, rightW + rightSG, 2, false, false, false⟩
def kKst : AccKind := ⟨.store, rightW + rightSC, 2, true, false, false⟩
def kLdq : AccKind := ⟨.ldq, rightR, 1, true, false, true⟩
def kStq : AccKind := ⟨.stq, rightW, 2, true, false, false⟩
def kLdv : AccKind := ⟨.ldv, rightR, 1, true, false, true⟩
def kAtom (sig : Bool) : AccKind := ⟨.atomic, rightAT + (if sig then rightSG else 0), 11, false, false, true⟩
def kRed (sig : Bool) : AccKind := ⟨.atomic, rightAT + (if sig then rightSG else 0), 11, false, false, false⟩
def kRing : AccKind := ⟨.ring, rightAT, 11, false, true, true⟩
def kCopyR : AccKind := ⟨.copyRead, rightR, 1, true, false, true⟩
def kCopyW : AccKind := ⟨.copyWrite, rightW, 2, true, false, false⟩
def kCount : AccKind := ⟨.atomic, rightAT + rightSG, 11, false, false, false⟩
def kFetch : AccKind := ⟨.fetch, rightX, 4, true, false, true⟩

/-- Form code of a page-fault record (R345). -/
def formCode : Form → Nat
  | .load => 1
  | .store => 2
  | .ldq => 3
  | .stq => 4
  | .ldv => 5
  | .atomic => 6
  | .ring => 6
  | .copyRead => 7
  | .copyWrite => 7
  | .fetch => 8

/-- Steps 1 to 3 of R128 on a capability: the cause of the first that fails. -/
def capCheck (c : Cap) (rights u size : Nat) : Option Nat :=
  if capSpace c = 0 then some 0x05
  else if !hasRights (capRights c) rights then some 0x04
  else if u < capCursor c ∨ capLimit c < u + size then some 0x03
  else none

/-- Row and group of a space-1 offset in a crew's partition, and the key of the byte (R278). -/
def crewRowKey (core : Nat) (c : Crew) (o : Nat) : Nat :=
  if o < 64 * c.ra then spadKey core 0 (c.baseA + o / 64) (o % 64)
  else spadKey core 1 (c.baseB + (o / 64 - c.ra)) (o % 64)

/-- Row form of a row of a crew's partition, from its key (R278). -/
def keyRow (c : Crew) (key : Nat) : Nat :=
  if key / 2 ^ 20 % 2 = 0 then key / 64 % 2 ^ 14 - c.baseA else 2 ^ 14 + (key / 64 % 2 ^ 14 - c.baseB)

/-- Key of row `r` (15-bit row form: bit 14 the group) of a crew. -/
def rowFormKey (core : Nat) (c : Crew) (r : Nat) : Nat :=
  if r / 2 ^ 14 % 2 = 0 then spadKey core 0 (c.baseA + r % 2 ^ 14) 0
  else spadKey core 1 (c.baseB + r % 2 ^ 14) 0

/-- A row of the row form lies within the crew's declared rows. -/
def rowFormOk (c : Crew) (r : Nat) : Bool :=
  if r / 2 ^ 14 % 2 = 0 then decide (r % 2 ^ 14 < c.ra) else decide (r % 2 ^ 14 < c.rb)

/-- Step 4 of R128; in space 3 every slice that the range touches must admit the tenant (R402). -/
def boundsCheck (s : State) (core : Nat) (c : Crew) (space u size : Nat) : Option Nat :=
  if space = 1 then (if 64 * (c.ra + c.rb) < u + size then some 0x03 else none)
  else if space = 3 then
    (if commonsBytes s (dieOf core) < u + size then some 0x03
     else if (List.range (min 128 ((u + size - 1) / 128 + 1 - u / 128))).all fun i =>
         groupAdmits s (dieOf core) (commonsSlice s (dieOf core) (u + 128 * i) / 16) c.tenant then none
     else some 0x03)
  else none

/-- The tenant's physical address that the first stage gives a device virtual address now, where it is one of HBM. -/
def hbmOf? (s : State) (tenant va : Nat) : Option Nat :=
  let root := regGet s (fnOf s tenant) rFSROOT
  if fld root 63 1 = 0 then none
  else match dirWalk 1 (fld root 16 24 * 2 ^ 16) va (rdTable s tenant) with
  | .ok l => if l.tgt = 0 ∧ l.bad = false then some (l.addr + leafOffset l va) else none
  | .error _ => none

/-- FSG and SSG of a tenant (R340). -/
def fsgOf (s : State) (tenant : Nat) : Nat := (spGet s.xlat.fsg tenant).toNat
def ssgOf (s : State) (tenant : Nat) : Nat := (spGet s.xlat.ssg tenant).toNat

/-- A fresh walk of steps 5, 6 and 7a of R338 for the start of the 16 KiB piece that holds `off` (R331 to R339): the
combined entry it makes. An absent entry of either stage is found before a malformed object entry. -/
def walkPiece (s : State) (die tenant space obj : Nat) (gen : Option Nat) (off : Nat) : Except XFail TlbEntry :=
  let piece := off / 16384
  let mk (e : ObjEnt) (tgt ord cp pb frame va gpa : Nat) : TlbEntry :=
    { die := die, tenant := tenant, space := space, obj := obj, page := piece, gen := e.gen, rights := e.rights,
      tgt := tgt, ord := ord, cp := cp, pbits := pb, frame := frame, va := va, gpa := gpa,
      fsg := fsgOf s tenant, ssg := ssgOf s tenant }
  -- a frame of HBM in the tenant's terms, through the second stage where there is one
  let finish (e : ObjEnt) (ord cp pb a va : Nat) : Except XFail TlbEntry :=
    if ssEnabled s tenant then
      match secondStage s tenant a with
      | .error f => .error f
      | .ok l =>
        let pa := l.addr + leafOffset l a
        if l.tgt = 3 then .ok (mk e 3 ord cp (Nat.land pb l.bits) pa va a)
        else if !inWindow s tenant pa then xfail 0x07 2 a true
        else if !frameOwned s tenant pa then xfail 0x07 2 a true
        else if framePend s pa then xfail 0x06 3 pa false
        else .ok (mk e 0 ord cp (Nat.land pb l.bits) pa va a)
    else if !inWindow s tenant a then xfail 0x07 1 va true
    else if !frameOwned s tenant a then xfail 0x07 1 va true
    else if framePend s a then xfail 0x06 3 a false
    else .ok (mk e 0 ord cp pb a va a)
  let wellFormedOr (e : ObjEnt) (r : Except XFail TlbEntry) : Except XFail TlbEntry :=
    if e.wellFormed then r
    else match r with
    | .error f => if f.cause = 0x06 then .error f else xfail 0x07 1 0 true
    | .ok _ => xfail 0x07 1 0 true
  if space = 6 then
    match lookupHost s tenant obj with
    | .error f => .error f
    | .ok e =>
      if gen.getD e.gen ≠ e.gen then xfail 0x05 1 0 false
      else if !e.hostWellFormed then xfail 0x07 1 0 true
      else .ok (mk e 3 e.ord e.cp (3 + (if hasRights e.rights rightX then 4 else 0)) (e.hostAddr + piece * 16384) 0 0)
  else
    match lookupObj s tenant obj with
    | .error f => .error f
    | .ok e =>
      if gen.getD e.gen ≠ e.gen then xfail 0x05 1 0 false
      else if !e.paged then
        if !e.wellFormed then xfail 0x07 1 0 true
        else match extentAt s tenant e.xlist (piece * 16384) e.count with
        | .error f => .error f
        | .ok a => finish e e.ord e.cp (11 + (if hasRights e.rights rightX then 4 else 0)) a (piece * 16384)
      else wellFormedOr e <|
        let va := e.vbase * 16384 + piece * 16384
        let root := regGet s (fnOf s tenant) rFSROOT
        if fld root 63 1 = 0 then xfail 0x06 1 va false
        else match dirWalk 1 (fld root 16 24 * 2 ^ 16) va (rdTable s tenant) with
        | .error f => .error f
        | .ok l =>
          let inPage := leafOffset l va
          if l.bad then
            -- the frame of a malformed leaf may still be absent at the second stage, which comes first
            (match (if l.tgt = 0 ∧ ssEnabled s tenant = true then secondStage s tenant (l.addr % 2 ^ 40 + inPage) else .ok l) with
             | .error f => if f.cause = 0x06 then .error f else xfail 0x07 1 va true
             | .ok _ => xfail 0x07 1 va true)
          else match l.tgt with
          | 0 => finish e l.ord l.cp l.bits (l.addr + inPage) va
          | 1 =>
            let die' := bitsOf l.addr 40 3
            let o := bitsOf l.addr 14 11 * 16384
            if commonsBytes s die' < o + 16384 then xfail 0x07 1 va true
            else .ok (mk e 1 l.ord l.cp l.bits (die' * 2 ^ 26 + o) va va)
          | 2 =>
            match resolveBinding s tenant (bitsOf l.addr 40 12) va with
            | .error f => .error f
            | .ok none => xfail 0x06 1 va false
            | .ok (some k) =>
              match asGet s.crews k with
              | none => xfail 0x07 1 va true
              | some c =>
                let o := bitsOf l.addr 14 7 * 16384
                if 64 * (c.ra + c.rb) ≤ o then xfail 0x07 1 va true
                else .ok (mk e 2 l.ord l.cp l.bits (k * 2 ^ 22 + o) va va)
          | 3 => .ok (mk e 3 l.ord l.cp l.bits (l.addr + inPage) va va)
          | _ =>
            let peer := bitsOf l.addr 44 8
            match peerEntry s tenant peer with
            | .error f => .error f
            | .ok (w0, _) =>
              if bitsOf w0 63 1 = 0 then xfail 0x05 1 va false
              else
                let pageSz := if l.large then 2 ^ 21 else 2 ^ 14
                .ok (mk e 4 l.ord l.cp l.bits
                  ((peer * 2 ^ 16 + bitsOf l.addr 28 16) * 2 ^ 40 + bitsOf l.addr 14 14 * pageSz + inPage) va va)

/-- The same for byte `off`: a fault names the address of the access itself (R345). -/
def walk (s : State) (die tenant space obj : Nat) (gen : Option Nat) (off : Nat) : Except XFail TlbEntry :=
  match walkPiece s die tenant space obj gen off with
  | .error f => .error (if f.cause = 0x06 ∧ f.table = false then { f with addr := f.addr + off % 16384 } else f)
  | .ok e => .ok e

/-- A combined entry that an access may use: its generations are current (R340). -/
def tlbLookup (s : State) (die tenant space obj off : Nat) : Option TlbEntry :=
  s.xlat.tlb.find? fun e =>
    decide (e.die = die) && decide (e.tenant = tenant) && decide (e.space = space) && decide (e.obj = obj) &&
      decide (e.page = off / 16384) && decide (e.fsg = fsgOf s tenant) && decide (e.ssg = ssgOf s tenant)

/-- The state after a walk has filled the cache; at most one entry for each piece. -/
def tlbFill (s : State) (e : TlbEntry) : State :=
  { s with xlat := { s.xlat with
      tlb := e :: s.xlat.tlb.filter fun x =>
        !(decide (x.die = e.die) && decide (x.tenant = e.tenant) && decide (x.space = e.space) &&
          decide (x.obj = e.obj) && decide (x.page = e.page)) } }

/-- The combined entry an access uses: one the cache still holds, or a fresh walk (R341). -/
def combined (s : State) (die tenant space obj : Nat) (gen : Option Nat) (off : Nat) : State × Except XFail TlbEntry :=
  let fresh (s : State) : State × Except XFail TlbEntry :=
    match walk s die tenant space obj gen off with
    | .error f => (s, .error f)
    | .ok e => (tlbFill s e, .ok e)
  match tlbLookup s die tenant space obj off with
  | none => fresh s
  | some e =>
    let s' := { s with freeCtr := s.freeCtr + 1 }
    if Config.cacheKept s.freeCtr then (s', .ok e) else fresh s'

/-- Steps 5b, 7b and 7c of R338 on a combined entry, and the place of the unit. `agent`: the message comes from a Yarrow die, which reaches every partition (R396). -/
def entryCheck (s : State) (e : TlbEntry) (gen : Option Nat) (off : Nat) (k : AccKind) (agent : Bool) : Except XFail Acc :=
  let inPiece := off % 16384
  -- a message between partitions is refused at its source stop (R396)
  let cross (die : Nat) : Bool := agent || mayCross s e.tenant e.die die
  let refuse : Except XFail Acc := if k.returns then xfail 0x07 1 e.va false else .ok ⟨10, 0, e.ord, e.cp, 0, e.obj, off, 0⟩
  if gen.getD e.gen ≠ e.gen then xfail 0x05 1 0 false
  else if !hasRights e.rights k.rights then xfail 0x07 1 e.va false
  else if !hasRights e.pbits k.bits then xfail 0x07 1 e.va false
  else if e.tgt = 3 ∧ k.hostOk = false then xfail 0x07 1 e.va false
  else if e.tgt ≠ 2 ∧ k.spadOnly = true then xfail 0x07 1 e.va false
  else match e.tgt with
  | 0 =>
    -- the home slice stands on a die of the quarter whose stack holds the line (R280)
    if !cross (2 * (((hbmPlace s (e.frame + inPiece)).map (·.1)).getD 0 / 3)) then refuse
    else .ok ⟨0, physKey s (e.frame + inPiece), e.ord, e.cp, 0, 0, 0, 0⟩
  | 1 =>
    let o := e.frame % 2 ^ 26 + inPiece
    if !cross (e.frame / 2 ^ 26) then refuse
    else .ok ⟨1, commonsKey (e.frame / 2 ^ 26) o, e.ord, e.cp, 0, 0, 0, 0⟩
  | 2 =>
    let sk := e.frame / 2 ^ 22
    let o := e.frame % 2 ^ 22 + inPiece
    match asGet s.crews sk with
    | none => xfail 0x07 1 e.va true
    | some c =>
      if 64 * (c.ra + c.rb) < o + 1 then xfail 0x07 1 e.va true
      else if !cross (sk / 64) then refuse
      else .ok ⟨2, crewRowKey (sk / 2) c o, e.ord, e.cp, 0, e.obj, off, sk⟩
  | 3 => .ok ⟨3, hostKey (e.frame + inPiece), e.ord, e.cp, 0, 0, 0, 0⟩
  | _ =>
    let po := e.frame / 2 ^ 40
    match peerEntry s e.tenant (po / 2 ^ 16) with
    | .error f => .error f
    | .ok (w0, _) =>
      if bitsOf w0 63 1 = 0 then xfail 0x05 1 0 false
      else if bitsOf w0 62 1 = 1 ∧ k.returns = true then xfail 0x07 1 e.va false
      else .ok ⟨4, 0, e.ord, e.cp, w0, po % 2 ^ 16, e.frame % 2 ^ 40 + inPiece, 0⟩

/-- Steps 5 to 7 of R128 for spaces 4 to 6. A remote object of space 5 has its generation checked by its owner (R336),
and the kind of the page it reaches there is not known here (R277, R284; log entry 84). -/
def portAccess (s : State) (die tenant space obj : Nat) (gen : Option Nat) (off : Nat) (k : AccKind)
    (agent : Bool := false) :
    State × Except XFail Acc :=
  if space = 5 then
    match peerEntry s tenant (obj / 2 ^ 16) with
    | .error f => (s, .error f)
    | .ok (w0, _) =>
      if bitsOf w0 63 1 = 0 then (s, xfail 0x05 1 0 false)
      else if k.spadOnly then (s, xfail 0x07 1 0 false)
      else if bitsOf w0 62 1 = 1 ∧ k.returns = true then (s, xfail 0x07 1 0 false)
      else (s, .ok ⟨4, 0, (Config.remoteKind (bitsOf w0 0 16) (obj % 2 ^ 16) off).val, 0, w0, obj % 2 ^ 16, off, 0⟩)
  else
    match combined s die tenant space obj gen off with
    | (s', .error f) => (s', .error f)
    | (s', .ok e) => (s', entryCheck s' e gen off k agent)

/-- A place in the accessing crew's own partition is its own scratchpad, through whatever page it is reached: the page gives the
order kind, and every rule of R129, R286, R289 and R295 on own rows holds. -/
def ownPlace (core slot : Nat) (a : Acc) : Acc :=
  if a.tgt = 2 ∧ a.slotKey = 2 * core + slot then { a with tgt := 8 } else a

/-- All checks of R128 for one unit `u` of `size` bytes reached through capability `c` by the crew on `core`, and the
place it reaches. -/
def access (s : State) (core slot : Nat) (cw : Crew) (c : Cap) (k : AccKind) (u size : Nat) :
    State × Except XFail Acc :=
  match capCheck c k.rights u size with
  | some cause => (s, xfail cause 0 0 false)
  | none =>
    match boundsCheck s core cw (capSpace c) u size with
    | some cause => (s, xfail cause 0 0 false)
    | none =>
      if capSpace c = 1 then (s, .ok ⟨8, crewRowKey core cw u, 1, 0, 0, 0, 0, 2 * core + slot⟩)
      else if capSpace c = 3 then
        (if k.spadOnly then (s, xfail 0x07 1 0 false)
         else (s, .ok ⟨9, commonsKey (dieOf core) u, 1, 0, 0, 0, 0, 0⟩))
      else
        let (s1, r) := portAccess s (dieOf core) cw.tenant (capSpace c) (capObj c) (some (capGen c)) u k
        (s1, r.map (ownPlace core slot))

/-! ### Accesses by object number, outside a crew's capabilities (tables, completion objects, records) -/

/-- An access by object and offset with the object's current generation, made by a unit of `die`. -/
def objAccess (s : State) (die tenant obj off : Nat) (k : AccKind) : State × Except XFail Acc :=
  portAccess s die tenant 4 obj none off k

/-- The absence that holds an access to a byte of an extent object: the object's entry, its list or its frame is behind an
absent page of the second stage, or the frame has still to be pulled (R339, R413). -/
def extentMiss (s : State) (tenant obj off : Nat) : Option XFail :=
  let absent (f : XFail) : Option XFail := if f.cause = 0x06 then some f else none
  match lookupObj s tenant obj with
  | .error f => absent f
  | .ok e =>
    match extentAt s tenant e.xlist off e.count with
    | .error f => absent f
    | .ok a =>
      match tenantPhys s tenant a with
      | .error f => absent f
      | .ok _ =>
        match tenantHbm s tenant a with
        | some pa => if framePend s pa then some { cause := 0x06, stage := 3, addr := pa, record := false } else none
        | none => none

/-- Whether an access to a byte of an extent object is held. -/
def extentPend (s : State) (tenant obj off : Nat) : Bool := (extentMiss s tenant obj off).isSome

/-- Key of a byte of a current extent object, for records and tables (R330), or the failure that the walk meets. -/
def extentPlace (s : State) (tenant obj off : Nat) : Except XFail Nat :=
  match lookupObj s tenant obj with
  | .error f => .error f
  | .ok e =>
    if e.paged ∨ e.size ≤ off then xfail 0x05 1 0 false
    else match extentAt s tenant e.xlist off e.count with
    | .error f => .error f
    | .ok a =>
      match tenantPhys s tenant a with
      | .error f => .error f
      | .ok (k, _) => .ok k

def extentKey (s : State) (tenant obj off : Nat) : Option Nat :=
  match extentPlace s tenant obj off with
  | .ok k => some k
  | .error _ => none

/-- Offsets at which `[off, off + n)` enters a 16 KiB piece of an object, and its last byte's. -/
def pieceStarts (off n : Nat) : List Nat :=
  (List.range ((n + 16383) / 16384 + 1)).map fun k => min (off + 16384 * k) (off + n - 1)

/-- Reads `n` bytes (within one row) of an extent object. -/
def extentRead (s : State) (tenant obj off n : Nat) : Option Nat :=
  (extentKey s tenant obj off).map fun k => memReadN s.mem k n

/-- Reads `rows` consecutive rows of an extent object. -/
def extentRows (s : State) (tenant obj off : Nat) : Nat → Option (List Row)
  | 0 => some []
  | n + 1 =>
    match extentRead s tenant obj off 64, extentRows s tenant obj (off + 64) n with
    | some x, some rest => some (BitVec.ofNat 512 x :: rest)
    | _, _ => none

end Sys2Proof.Machine
end

