-- ==== Sys2Proof/Machine/Ops.lean ====
section
/-!
DEFINITION. Machine/Ops.lean: crews, streams and their registers; retiring and waiting; queues; error records;
completion increments; and the one shared operation that raises a fault, takes a trap or ends the crew, with the
return from a trap beside it.
-/
namespace Sys2Proof.Machine

/-- What a meaning answers. -/
abbrev Out := Host.Outcome State Fault Refusal

/-! ### Crews and streams -/

/-- The crew resident on a slot. -/
def crewAt (s : State) (core slot : Nat) : Option Crew := asGet s.crews (2 * core + slot)
def putCrew (s : State) (core slot : Nat) (c : Crew) : State := { s with crews := asSet s.crews (2 * core + slot) c }
def dropCrew (s : State) (core slot : Nat) : State := { s with crews := asDel s.crews (2 * core + slot) }

/-- Bit of an engine in the ENG coding (R303). -/
def engBit : Eng → Nat
  | .a => 0
  | .c => 1
  | .v => 2
  | .m => 3
  | .s => 4

/-- TCAUSE.STREAM coding (R242), also the engine numbers of the queue table (R80). -/
def engCode : Eng → Nat
  | .c => 0
  | .a => 1
  | .v => 2
  | .m => 3
  | .s => 4

def engOfCode : Nat → Eng
  | 0 => .c
  | 1 => .a
  | 2 => .v
  | 3 => .m
  | _ => .s

/-- Whether the launch declared the engine's stream active (R258). -/
def active (c : Crew) (e : Eng) : Bool := c.eng.getLsbD (engBit e)

def strOf (c : Crew) : Eng → Stream
  | .c => c.strC
  | .a => c.strA
  | .v => c.strV
  | .m => c.strM
  | .s => c.strS

def setStr (c : Crew) (e : Eng) (x : Stream) : Crew :=
  match e with
  | .c => { c with strC := x }
  | .a => { c with strA := x }
  | .v => { c with strV := x }
  | .m => { c with strM := x }
  | .s => { c with strS := x }

def allEngs : List Eng := [.c, .a, .v, .m, .s]

/-- Applies a change to every active stream. -/
def mapStreams (c : Crew) (f : Eng → Stream → Stream) : Crew :=
  allEngs.foldl (fun c e => if active c e then setStr c e (f e (strOf c e)) else c) c

/-- Launch FLAGS as R303 numbers them. -/
def isPriv (c : Crew) : Bool := c.flags.getLsbD 0
def isDet (c : Crew) : Bool := c.flags.getLsbD 1
def isCheck (c : Crew) : Bool := c.flags.getLsbD 2
def isNoMig (c : Crew) : Bool := c.flags.getLsbD 4
def isShapeInd (c : Crew) : Bool := c.flags.getLsbD 5

/-- Runs a meaning on the current crew, whose stream `e` must be active. -/
def onCrew (s : State) (e : Eng) (f : Crew → Out) : Out :=
  match crewAt s s.cur.core s.cur.slot with
  | none => .fault .noStream
  | some c => if active c e then f c else .fault .noStream

/-! ### Registers (R77) -/

/-- A scalar register; s0 reads zero. In handler mode C and A read their handler banks (R241). -/
def sRead (c : Crew) (e : Eng) (i : BitVec 5) : Word :=
  if i = 0 then 0
  else match e with
    | .a => spGet (if c.trap.inHandler then c.trap.has else c.as) i.toNat
    | _ => spGet (if c.trap.inHandler then c.trap.hcs else c.cs) i.toNat

/-- Writes a scalar register; a write to s0 is discarded. -/
def sWrite (c : Crew) (e : Eng) (i : BitVec 5) (x : Word) : Crew :=
  if i = 0 then c
  else match e with
    | .a => if c.trap.inHandler then { c with trap := { c.trap with has := spSet c.trap.has i.toNat x } }
            else { c with as := spSet c.as i.toNat x }
    | _ => if c.trap.inHandler then { c with trap := { c.trap with hcs := spSet c.trap.hcs i.toNat x } }
            else { c with cs := spSet c.cs i.toNat x }

/-- A predicate; p0 reads true. -/
def pRead (c : Crew) (e : Eng) (i : BitVec 4) : Bool :=
  if i = 0 then true
  else match e with
    | .a => (if c.trap.inHandler then c.trap.hap else c.ap).getLsbD i.toNat
    | _ => (if c.trap.inHandler then c.trap.hcp else c.cp).getLsbD i.toNat

/-- Sets or clears one bit. -/
def setBit {w : Nat} (x : BitVec w) (i : Nat) (b : Bool) : BitVec w :=
  if b then x ||| BitVec.ofNat w (2 ^ i) else x &&& ~~~ BitVec.ofNat w (2 ^ i)

/-- Writes a predicate; a write to p0 is discarded. -/
def pWrite (c : Crew) (e : Eng) (i : BitVec 4) (b : Bool) : Crew :=
  if i = 0 then c
  else match e with
    | .a => if c.trap.inHandler then { c with trap := { c.trap with hap := setBit c.trap.hap i.toNat b } }
            else { c with ap := setBit c.ap i.toNat b }
    | _ => if c.trap.inHandler then { c with trap := { c.trap with hcp := setBit c.trap.hcp i.toNat b } }
            else { c with cp := setBit c.cp i.toNat b }

/-- A capability register; k0 is the null capability. -/
def kRead (c : Crew) (i : BitVec 5) : Cap :=
  if i = 0 then 0 else spGet (if c.trap.inHandler then c.trap.hk else c.k) i.toNat

/-- Writes a capability register; a write to k0 is discarded. -/
def kWrite (c : Crew) (i : BitVec 5) (x : Cap) : Crew :=
  if i = 0 then c
  else if c.trap.inHandler then { c with trap := { c.trap with hk := spSet c.trap.hk i.toNat x } }
  else { c with k := spSet c.k i.toNat x }

/-- A lane mask; m0 reads all-true. -/
def mRead (c : Crew) (i : Nat) : Word := if i = 0 then BitVec.allOnes 64 else spGet c.mask i

/-- Writes a lane mask; a write to m0 is discarded. -/
def mWrite (c : Crew) (i : Nat) (x : Word) : Crew := if i = 0 then c else { c with mask := spSet c.mask i x }

/-- A stream's copy of a valid count; n0 reads 0xFFFF (R77, R272). -/
def nRead (c : Crew) (e : Eng) (i : BitVec 3) : Nat :=
  if i = 0 then 0xFFFF else (spGet (strOf c e).n i.toNat).toNat

/-- Writes a stream's copy of a valid count; n0 keeps meaning "all" (R115). -/
def nWrite (c : Crew) (e : Eng) (i : Nat) (x : BitVec 16) : Crew :=
  if i = 0 then c else setStr c e { strOf c e with n := spSet (strOf c e).n i x }

/-- A dependence counter (R270). -/
def dRead (c : Crew) (e : Eng) (i : Nat) : Nat := (spGet (strOf c e).d i).toNat
def dWrite (c : Crew) (e : Eng) (i x : Nat) : Crew :=
  setStr c e { strOf c e with d := spSet (strOf c e).d i (BitVec.ofNat 10 x) }

/-- A vector register. -/
def vRead (c : Crew) (i : Nat) : Row := spGet c.v i
def vWrite (c : Crew) (i : Nat) (x : Row) : Crew := { c with v := spSet c.v i x }

/-- Sets FSTAT flags (R41): bit numbers as R41 gives them. -/
def setFlags (c : Crew) (f : BitVec 6) : Crew := { c with fstat := c.fstat ||| f }

/-- The guard of a C, A or X word (R65). -/
def guard (c : Crew) (e : Eng) (n : BitVec 1) (g : BitVec 4) : Bool := pRead c e g != decide (n = 1)

/-! ### Program counters, retiring and waiting -/

/-- A stream's PC; in handler mode C and A are at their handler PCs (R241). -/
def pcOf (c : Crew) (e : Eng) : Nat :=
  if c.trap.inHandler then (match e with | .a => c.trap.hpcA | .c => c.trap.hpcC | _ => (strOf c e).pc)
  else (strOf c e).pc

/-- Moves a stream's PC without walking text. -/
def setPc (c : Crew) (e : Eng) (pc : Nat) : Crew :=
  if c.trap.inHandler then
    (match e with
     | .a => { c with trap := { c.trap with hpcA := pc } }
     | .c => { c with trap := { c.trap with hpcC := pc } }
     | _ => setStr c e { strOf c e with pc := pc })
  else setStr c e { strOf c e with pc := pc }

/-- Walks `len` bytes of text (R259): C's PATH stays while its call depth is not zero, and a handler walks none. -/
def walkPath (c : Crew) (e : Eng) (len : Nat) : Crew :=
  if c.trap.inHandler ∨ (e = .c ∧ c.cd ≠ 0) then c
  else setStr c e { strOf c e with path := (strOf c e).path + len }

/-- What a stream is doing; in handler mode C and A do what the handler does (R241). -/
def statusOf (c : Crew) (e : Eng) : StreamStatus :=
  if c.trap.inHandler then (match e with | .a => c.trap.hstA | .c => c.trap.hstC | _ => (strOf c e).status)
  else (strOf c e).status

def setStatus (c : Crew) (e : Eng) (x : StreamStatus) : Crew :=
  if c.trap.inHandler then
    (match e with
     | .a => { c with trap := { c.trap with hstA := x } }
     | .c => { c with trap := { c.trap with hstC := x } }
     | _ => setStr c e { strOf c e with status := x })
  else setStr c e { strOf c e with status := x }

/-- A stream's wait class (R267). -/
def setWait (c : Crew) (e : Eng) (w : Nat) : Crew :=
  if c.trap.inHandler then
    (match e with
     | .a => { c with trap := { c.trap with hwaitA := w } }
     | .c => { c with trap := { c.trap with hwaitC := w } }
     | _ => setStr c e { strOf c e with wait := w })
  else setStr c e { strOf c e with wait := w }

/-- The debugger holds the crew (R256). -/
def debugStopped (c : Crew) : Bool := decide (fld c.ctl.dbgstat 1 1 = 1)

/-- What each active stream is doing, the crew's own and, in handler mode, the handler's. -/
def statuses (c : Crew) : List StreamStatus :=
  (allEngs.filter (active c)).map (fun e => (strOf c e).status) ++
    (if c.trap.inHandler then [c.trap.hstC, c.trap.hstA] else [])

/-- A page fault holds a stream of the crew (R343). -/
def faultHeld (c : Crew) : Bool := (statuses c).any fun x => match x with | .held _ _ => true | _ => false

/-- Progress clears the stall counter (R268). -/
def clearStall (c : Crew) : Crew := { c with ctl := { c.ctl with stall := 0 } }

/-- Goes on at a PC: path walked, wait class and stall counter cleared. -/
def advance (c : Crew) (e : Eng) (len pc : Nat) : Crew :=
  clearStall (setWait (setPc (walkPath c e len) e pc) e 0)

/-- Skips another engine's instruction by its length (R60). -/
def skipOver (c : Crew) (e : Eng) (len : Nat) : Crew := advance c e len (pcOf c e + len)

/-- A single step over stream `e` has seen its retirement (R257). -/
def noteStep (c : Crew) (e : Eng) : Crew :=
  if c.ctl.stepping = 1 ∧ fld c.ctl.dbgctl 5 3 = engCode e then { c with ctl := { c.ctl with stepping := 2 } } else c

/-- Retires at a PC. -/
def goto (c : Crew) (e : Eng) (len pc : Nat) : Crew := noteStep (advance c e len pc) e

/-- Retires to the next instruction. -/
def retire (c : Crew) (e : Eng) (len : Nat) : Crew := goto c e len (pcOf c e + len)

/-- The state after the crew of the current stream retires an instruction of `len` bytes. -/
def done (s : State) (c : Crew) (e : Eng) (len : Nat) : Out := .next (putCrew s s.cur.core s.cur.slot (retire c e len))

/-- The state in which the current stream waits (R103): nothing of the instruction is done. -/
def wait (s : State) (c : Crew) (e : Eng) (cls : Nat) : Out :=
  .next (putCrew s s.cur.core s.cur.slot (setWait c e cls))

/-! ### Queues (R80, R265) -/

/-- Depths of q0 to q13. -/
def qDepth (q : Nat) : Nat := [16, 16, 32, 32, 16, 16, 16, 8, 8, 32, 16, 16, 8, 16].getD q 0

def queueOf (c : Crew) (q : Nat) : List QEntry := c.queues.getD q []
def setQueue (c : Crew) (q : Nat) (l : List QEntry) : Crew := { c with queues := setNth c.queues q l }

/-- An entry of plain data. -/
def entryOf (x : Row) : QEntry := { data := x, fail := 0, pending := false, pc := 0, addr := 0 }

/-- Producer and consumer of a queue (R80). -/
def qProdEng (q : Nat) : Eng := engOfCode ([1, 1, 1, 0, 0, 0, 2, 4, 2, 0, 3, 2, 4, 1].getD q 5)
def qConsEng (q : Nat) : Eng := engOfCode ([2, 3, 0, 1, 2, 4, 0, 2, 4, 3, 2, 1, 1, 4].getD q 5)

/-- The other endpoint of a queue is an active stream (R258). -/
def peerActive (c : Crew) (e : Eng) (q : Nat) : Bool :=
  if qProdEng q = e then active c (qConsEng q) else active c (qProdEng q)

/-- What a pop finds. -/
inductive Popped where
  | empty
  /-- the entry is reserved and its data has not arrived: also a wait in class 0x1 -/
  | data (x : Row) (c : Crew)
  /-- marked: the cause of R134, the LDQ's PC and offset -/
  | failed (cause pc addr : Nat)
deriving DecidableEq, Repr

/-- Pops the oldest entry of a queue (R265); an entry still awaiting its data blocks. -/
def qPop (c : Crew) (q : Nat) : Popped :=
  match queueOf c q with
  | [] => .empty
  | x :: rest =>
    if x.pending then .empty
    else if x.fail ≠ 0 then .failed x.fail x.pc x.addr
    else .data x.data (setQueue c q rest)

/-- Whether a queue has room. -/
def qRoom (c : Crew) (q : Nat) : Bool := decide ((queueOf c q).length < qDepth q)

/-- Appends an entry. -/
def qPush (c : Crew) (q : Nat) (x : Row) : Crew := setQueue c q (queueOf c q ++ [entryOf x])

/-! ### Error records (R417 to R420) -/

/-- A field of a record: value, byte position and byte count. -/
def put (v pos n : Nat) : Nat := v % 2 ^ (8 * n) * 2 ^ (8 * pos)

/-- The launch of a crew. -/
def launchById (s : State) (id : Nat) : Option Launch := s.sched.launches.find? fun l => decide (l.id = id)
def setLaunch (s : State) (l : Launch) : State :=
  { s with sched := { s.sched with launches := s.sched.launches.map fun x => if x.id = l.id then l else x } }
def doneOf (s : State) (c : Crew) : Nat := ((launchById s c.launch).map fun l => l.doneObj.toNat).getD 0

/-- Bytes 0 to 63 of a record without ESEQ and FLAGS: the type area and the common bytes of a crew, or of none. -/
def errRow (s : State) (type cause area : Nat) (who : Option (Crew × Nat)) : Nat :=
  put type 0 1 + put cause 1 1 + area + put s.cycle.toNat 32 8 +
    (match who with
     | some (c, core) => put c.rank 44 4 + put (doneOf s c) 48 8 + put core 56 4
     | none => put 0xFFFF_FFFF 44 4 + put 0xFFFF_FFFF 56 4)

/-- Slots of a ring register's LOG2SZ field (R419, R432). -/
def ringSlots (cfg : Word) : Nat := 2 ^ (min (fld cfg 0 4) 12 + 4)

/-- Writes a 64-byte host slot. -/
def hostWrite (s : State) (a x n : Nat) : State := { s with mem := memWriteN s.mem (hostKey a) x n }

/-- Writes the slots of one record of function `fn`, whose sequence number every slot repeats (R417, R419). -/
def eqWrite (s : State) (fn seq : Nat) : Nat → List Nat → State
  | _, [] => s
  | tail, r :: rest =>
    let cfg := regGet s fn rEQCFG
    let base := (regGet s fn rEQBASE).toNat / 4096 * 4096
    let x := r + put seq 40 4 + put (if rest.isEmpty then 0 else 1) 60 1
    eqWrite (hostWrite s (base + 64 * (tail % ringSlots cfg)) x 64) fn seq (tail + 1) rest

/-- An MSI-X vector of a function is raised (R419, R429: 32 for each). -/
def raiseVector (s : State) (fn : Nat) (cfg : Word) : State :=
  let k := 32 * fn + fld cfg 16 5
  { s with host := { s.host with msix := spSet s.host.msix k (spGet s.host.msix k + 1) } }

/-- Whether a function's error queue takes a record of `n` slots; none is written while the host link fails. -/
def eqTakes (s : State) (fn n : Nat) : Bool :=
  let cfg := regGet s fn rEQCFG
  let used := ((regGet s fn rEQTAIL) - (regGet s fn rEQHEAD)).toNat % 2 ^ 32
  decide (fld cfg 31 1 = 1) && decide (n ≤ ringSlots cfg - used) && s.host.linkUp

/-- An event waits for its slot in a device event queue (R433). -/
def postEvent (s : State) (e : DevEvent) : State :=
  { s with host := { s.host with events := s.host.events ++ [e] }, agenda := s.agenda ++ [.event .deviceEvent { fn := e.fn }] }

/-- One record into one function's queue: written whole, TAIL advanced and the vector raised; or dropped and counted (R419). -/
def eqPost1 (s : State) (fn : Nat) (slots : List Nat) : State :=
  if eqTakes s fn slots.length then
    let tail := (regGet s fn rEQTAIL).toNat % 2 ^ 32
    let s1 := raiseVector (regSet (eqWrite s fn (tail + 1) tail slots) fn rEQTAIL (BitVec.ofNat 64 ((tail + slots.length) % 2 ^ 32)))
      fn (regGet s fn rEQCFG)
    if fld (regGet s1 fn rDEQCFG) 31 1 = 1 then
      postEvent s1 { fn := fn, hseq := 0, status := 0, type := 2, eseq := (tail + 1) % 2 ^ 32 }
    else s1
  else
    regSet s fn rEQLOST (BitVec.ofNat 64 (min ((regGet s fn rEQLOST).toNat + 1) 0xFFFF_FFFF))

/-- A record for function `fn`; a dropped record of a virtual function also goes to the physical function's queue. -/
def eqPost (s : State) (fn : Nat) (slots : List Nat) : State :=
  if fn ≠ 0 ∧ eqTakes s fn slots.length = false then eqPost1 (eqPost1 s fn slots) 0 slots
  else eqPost1 s fn slots

/-- A record for a tenant. -/
def tenantError (s : State) (tenant : Nat) (slots : List Nat) : State := eqPost s (fnOf s tenant) slots

/-- Passes a crew's context error queue to its tenant's queue, in order (R420). -/
def drainErrs (s : State) (core slot : Nat) : State :=
  match crewAt s core slot with
  | none => s
  | some c =>
    c.errs.foldl (fun s r => tenantError s c.tenant [r.toNat]) (putCrew s core slot { c with errs := [] })

/-- Places a record in a crew's context error queue; a 17th record sends the oldest on. -/
def ctxError (s : State) (core slot : Nat) (r : Nat) : State :=
  match crewAt s core slot with
  | none => s
  | some c =>
    match c.errs with
    | x :: rest =>
      if c.errs.length ≥ 16 then
        tenantError (putCrew s core slot { c with errs := rest ++ [BitVec.ofNat 512 r] }) c.tenant [x.toNat]
      else putCrew s core slot { c with errs := c.errs ++ [BitVec.ofNat 512 r] }
    | [] => putCrew s core slot { c with errs := [BitVec.ofNat 512 r] }

/-- The type 13 record of a refused translation (R334, R339, R418: no object while a table is read); a second-stage one also goes to the physical function. -/
def translationRecord (s : State) (tenant obj off : Nat) (f : XFail) : State :=
  if f.record then
    let r := errRow s 13 f.cause (put f.stage 2 1 + put (if f.table then 0 else obj * 2 ^ 40 + off) 8 8 + put f.addr 16 8) none
    let s1 := tenantError s tenant [r]
    if f.stage = 2 ∧ fnOf s tenant ≠ 0 then eqPost1 s1 0 [r] else s1
  else s

/-! ### Local units of storage -/

/-- Poison of a 64-byte unit of addressed storage (R421). -/
def isPoisoned (s : State) (key : Nat) : Bool := s.host.poison.any fun p => decide (p.1 = 0) && decide (p.2 = key / 64)

/-- Writes `n` bytes at a key; a write of the whole 64-byte unit clears its poison (R421). -/
def writeUnit (s : State) (key n x : Nat) : State :=
  let s1 := { s with mem := memWriteN s.mem key x n }
  if n = 64 then
    { s1 with host := { s1.host with poison := s1.host.poison.filter fun p => !(decide (p.1 = 0) && decide (p.2 = key / 64)) } }
  else s1

/-- Writes a row of an extent object (R330). -/
def extentWriteRow (s : State) (tenant obj off : Nat) (r : Row) : State :=
  match extentKey s tenant obj off with
  | some k => writeUnit s k 64 r.toNat
  | none => s

/-- Number of a storage unit of the crew on a slot (R421): kinds 0 vector register, 1 accumulator tile row
(128·t + m), 2 state tile row (512·h + row), 3 remainder-stack row by position, 4 A-bypass row. -/
def crewUnit (core slot kind idx : Nat) : Nat := ((2 * core + slot) * 8 + kind) * 2 ^ 24 + idx

/-- Poison of a storage unit of a crew. -/
def unitPoisoned (s : State) (core slot kind idx : Nat) : Bool := s.host.poison.contains (1, crewUnit core slot kind idx)

/-- A write that covers the whole unit clears its poison (R421). -/
def clearUnit (s : State) (core slot kind idx : Nat) : State :=
  { s with host := { s.host with poison := s.host.poison.filter fun p => !decide (p = (1, crewUnit core slot kind idx)) } }

/-- Poison carried into a unit. -/
def poisonUnit (s : State) (core slot kind idx : Nat) : State :=
  if unitPoisoned s core slot kind idx then s
  else { s with host := { s.host with poison := s.host.poison ++ [(1, crewUnit core slot kind idx)] } }

/-- Poison carried into a 64-byte unit of addressed storage. -/
def poisonKey (s : State) (key : Nat) : State :=
  if isPoisoned s key then s else { s with host := { s.host with poison := s.host.poison ++ [(0, key / 64)] } }

/-- Zeroes every byte whose key a test selects; the test selects whole 64-byte units, whose poison goes (R421). -/
def zeroWhere (s : State) (p : Nat → Bool) : State :=
  { s with mem := s.mem.filter (fun x => !p x.1)
           host := { s.host with poison := s.host.poison.filter fun x => !(decide (x.1 = 0) && p (64 * x.2)) } }

/-- Zeroes `n` bytes, whole units, from a key. -/
def zeroKeys (s : State) (key n : Nat) : State := zeroWhere s fun k => decide (key ≤ k) && decide (k < key + n)

/-- Reads `n` bytes at a key. -/
def readUnit (s : State) (key n : Nat) : Nat := memReadN s.mem key n

/-- The bridge station that a message to a device takes: of a pair chosen by a hash among the stations present (R377, R424). -/
def stationFor (s : State) (dev page : Nat) : Nat :=
  let l := (List.range 4).filter fun i => (regGet s 0 rPRESPORT).getLsbD (4 + i)
  if l.length ≤ 1 then l.headD 0 else l.getD (Config.pairHash dev page % l.length) 0

/-- Ring stop of a station: Y0 is stop 9, Y1 stop 4 (R12, R377). -/
def stationStop (i : Nat) : Nat := if i < 2 then 9 else 4

/-- Operation codes of the notices between devices about a monitor entry: its waiter is woken; its waiter has gone (R142). -/
def opWake : Nat := 0x1F3
def opUnwatch : Nat := 0x1F4

/-- Sends a notice about the A stream of a slot to another device; nobody waits for its answer. -/
def sendNotice (s : State) (dev op cid core slot : Nat) : State :=
  let st := stationFor s dev 0
  let m : FabMsg :=
    { id := s.fabric.nextMsg, src := stopOf 0, dst := stationStop st, unit := st, cid := cid, cls := 2, form := 0, peer := dev,
      obj := 0, gen := 0, off := 0, size := 8, op := op, data := .raw 0, cmp := BitVec.ofNat 512 (2 * core + slot), core := 2 ^ 17, slot := 0,
      pc := 0, waiter := 5, widx := 0, phase := 0, retries := 0, refused := 0, reply := .raw 0, resends := 0, cause := 0,
      inbound := false, due := 0, expires := none, step := 0, from_ := 0, members := [] }
  { s with fabric := { s.fabric with msgs := s.fabric.msgs ++ [m], nextMsg := s.fabric.nextMsg + 1 } }

/-- Unit number of the entry that stands here for a waiter whose word another device owns: the device is added (DESIGN CHOICE, log 116). -/
def farUnit : Nat := 2 ^ 41

/-- The A stream of a slot sleeps no more. -/
def wakeStream (s : State) (core slot : Nat) : State :=
  match crewAt s core slot with
  | none => s
  | some c =>
    let c1 := if c.strA.status = .sleeping then { c with strA := { c.strA with status := .running } } else c
    putCrew s core slot
      (if c1.trap.hstA = .sleeping then { c1 with trap := { c1.trap with hstA := .running } } else c1)

/-- Wakes every waiter registered on a row (R142); one of another device by a notice. -/
def wakeRow (s : State) (row : Nat) : State :=
  let ms := s.monitors.filter fun m => decide (m.row = row)
  let s1 := { s with monitors := s.monitors.filter fun m => !decide (m.row = row) }
  ms.foldl (fun s m =>
    match m.dev with
    | none => wakeStream s m.core m.slot
    | some d => sendNotice s d opWake (cidOf s 0) m.core m.slot) s1

/-! ### Completion objects (R151, R325) -/

/-- Writes word `i` of an object-table entry (R327: the port keeps TEXTUSE and the rest). -/
def writeObjWord (s : State) (tenant obj i v : Nat) : State :=
  match tenantPhys s tenant (objEntAddr s tenant obj + 8 * i) with
  | .ok (k, _) => { s with mem := memWriteN s.mem k v 8 }
  | .error _ => s

/-- Changes TEXTUSE of a text object (R64, R328); behind an absent page the change waits (R339). -/
def addTextUse (s : State) (tenant obj : Nat) (up : Bool) : State :=
  match lookupObj s tenant obj with
  | .error f =>
    if f.cause = 0x06 then { s with sched := { s.sched with textLate := s.sched.textLate ++ [(tenant, obj, up)] } } else s
  | .ok e =>
    let u := if up then e.textuse + 1 else e.textuse - 1
    writeObjWord s tenant obj 1 (u % 2 ^ 16 * 2 ^ 48 + e.w1 % 2 ^ 48)

/-- The header of an acknowledgement (TYPE 3) or a credit (TYPE 4), which the reverse direction of a link carries (R368 to
R370). -/
def linkReply (type seq : Nat) : WirePacket :=
  { header := BitVec.ofNat 512 (put type 0 1 + put seq 44 4), records := [], marks := [], bad := false }

/-- A receiver's link with `n` more credits on their way back: one for each packet whose room is free again (R370). Those of
a port leave the package. -/
def giveCredits (k : CarryLink) (n : Nat) : CarryLink :=
  if k.id < 7 then { k with freed := k.freed ++ List.replicate n (linkReply 4 0) } else k

/-- Forgets the exchanges of a launch, and frees the carry-store room of the packets they held (R371). -/
def dropExchanges (s : State) (launch : Nat) : State :=
  let gone := s.fabric.exchanges.filter fun x => decide (x.launch = launch)
  { s with fabric := { s.fabric with
      exchanges := s.fabric.exchanges.filter fun x => !decide (x.launch = launch)
      links := s.fabric.links.map fun k =>
        giveCredits k ((gone.filter fun x => decide (x.inLink = k.id)).map fun x => x.held.length).sum } }

/-- The bindings of a launch no longer give their crews (R335): every combined entry that reaches one of its partitions goes. -/
def dropBound (s : State) (launch : Nat) : State :=
  { s with xlat := { s.xlat with tlb := s.xlat.tlb.filter fun e =>
      !(decide (e.tgt = 2) && (match asGet s.crews (e.frame / 2 ^ 22) with | some c => decide (c.launch = launch) | none => false)) } }

/-- A launch whose completion object has reached TARGET has completed: parked contexts are discarded (R325), its pipelines are
no longer read, and its bindings give 0x07 (R335). -/
def completeLaunch (s : State) (l : Launch) : State :=
  let s1 := dropBound (setLaunch s { l with completed := true }) l.id
  let s2 := { s1 with sched := { s1.sched with
    saved := s1.sched.saved.filter (fun c => !(decide (c.launch = l.id) && decide (c.kind = 7)))
    pipes := s1.sched.pipes.filter fun p => decide (p.1 ≠ l.id) } }
  addTextUse (dropExchanges s2 l.id) l.tenant l.text false

/-- Key of a launch's completion object, while the generation that the launch was accepted with stands (R325). -/
def doneKey (s : State) (l : Launch) : Option Nat :=
  match objOf? s l.tenant (fld l.doneObj 40 24) with
  | some e => if e.gen = l.doneGen then extentKey s l.tenant (fld l.doneObj 40 24) (fld l.doneObj 0 40 / 8 * 8) else none
  | none => none

/-- Completes every uncompleted launch whose completion object is the word at a key just written, once its count has
reached TARGET (R325). -/
def doneReached (s : State) (key : Nat) : State :=
  let n := readUnit s (key / 8 * 8) 8 % 2 ^ 63
  s.sched.launches.foldl (fun s l =>
    if l.completed = false ∧ l.target ≤ n ∧ doneKey s l = some (key / 8 * 8) then completeLaunch s l else s) s

/-- The same for every word of a row just written. -/
def doneReachedRow (s : State) (key n : Nat) : State :=
  (List.range (max 1 (n / 8))).foldl (fun s i => doneReached s (key + 8 * i)) s

/-- The new value of a completion object: bits 62:0 count, bit 63 sticky ERR (R151). -/
def countUp (old n : Nat) (err : Bool) : Nat :=
  (old % 2 ^ 63 + n) % 2 ^ 63 + (if err ∨ old / 2 ^ 63 % 2 = 1 then 2 ^ 63 else 0)

/-- An increment that is not made: a type 15 record (R325). -/
def lostIncrement (s : State) (tenant : Nat) (word : Word) (n : Nat) (err : Bool) : State :=
  tenantError s tenant [errRow s 15 0 (put word.toNat 8 8 + put (n + (if err then 2 ^ 63 else 0)) 16 8) none]

/-- A signalled increment of a completion object named in the form of DONE (R303); the object no longer current makes
a type 15 record (R325), as one of another generation than `gen` does. An increment of a frame still to be pulled is held
until it is (R413). -/
def doneIncrementFor (s : State) (tenant : Nat) (word : Word) (n : Nat) (err : Bool) (gen : Option Nat) : State :=
  let lost : State := lostIncrement s tenant word n err
  if extentPend s tenant (fld word 40 24) (fld word 0 40) then
    { s with sched := { s.sched with late := s.sched.late ++ [(tenant, word, n, err, gen)] } }
  else match objOf? s tenant (fld word 40 24), extentPlace s tenant (fld word 40 24) (fld word 0 40 / 8 * 8) with
  | some e, .ok k =>
    if gen.getD e.gen ≠ e.gen then lost
    else doneReached (wakeRow (writeUnit s k 8 (countUp (readUnit s k 8) n err)) (k / 64)) k
  | some _, .error f => translationRecord lost tenant (fld word 40 24) (fld word 0 40) f
  | none, _ => lost

/-- An increment that names the object's current generation. -/
def doneIncrement (s : State) (tenant : Nat) (word : Word) (n : Nat) (err : Bool) : State :=
  doneIncrementFor s tenant word n err none

/-- Whether a launch's increments are held back (R361). -/
def isDigested (l : Launch) : Bool := l.flags.getLsbD 7 || l.flags.getLsbD 2

/-- One increment of a launch's DONE by a crew (R249, R240, R361). -/
def crewIncrement (s : State) (launch : Nat) (err : Bool) : State :=
  match launchById s launch with
  | none => s
  | some l =>
    if isDigested l then setLaunch s { l with held := l.held + 1, heldErr := l.heldErr || err }
    else doneIncrementFor s l.tenant l.doneObj 1 err (some l.doneGen)

/-! ### Engine operations (R136, R148, R150) -/

/-- Rows of an engine operation: LDV's COUNT, or ROWS. -/
def opRows (o : EngOp) : Nat :=
  if o.kind = 1 then (if fld o.desc 10 6 = 0 then 64 else fld o.desc 10 6)
  else if fld o.desc 0 16 = 0 then 65536 else fld o.desc 0 16

/-- Dependence counter of an operation. -/
def opDc (o : EngOp) : Nat := fld o.desc 16 3
/-- CE of a copy's descriptor. -/
def opCe (o : EngOp) : Bool := decide (o.kind ≠ 1) && decide (fld o.desc 19 1 = 1)

/-- Every row has been written and counted, or the operation moves no further row. -/
def rowsDone (o : EngOp) : Bool := o.nulled || decide (o.fault ≠ 0) || decide (opRows o ≤ o.next)

/-- The operation has completed: its rows are done and, with CE = 1, its increment has been made or has failed. -/
def opDone (o : EngOp) : Bool := rowsDone o && (!opCe o || o.nulled || o.signalled)

/-- Registers that an LDV fills. -/
def ldvReaches (o : EngOp) (r : Nat) : Bool :=
  decide (fld o.desc 0 10 ≤ r) && decide (r < fld o.desc 0 10 + opRows o)

/-! ### Ending a crew -/

/-- One more than every progress number: all of a rank's numbers are complete (R58). -/
def progressAll : Nat := 2 ^ 40

/-- Records that a rank has ended or completed everything below a number (R58). -/
def setProgress (s : State) (launch rank n : Nat) : State :=
  match launchById s launch with
  | none => s
  | some l => setLaunch s { l with progress := spSet l.progress rank (BitVec.ofNat 64 n) }

/-- The requests of a crew that leaves its slot: a store's failure is the tenant's (R153); nobody waits any more for the returning
ones, which stay on their way until their answer or their void reply comes back (R378, R386). A message on its way to the slot
is translated again where it arrives (R335, R341). -/
def orphan (core slot : Nat) (l : List FabMsg) : List FabMsg :=
  l.filterMap fun m =>
    if !m.inbound && decide (m.core = core) && decide (m.slot = slot) then
      (if m.waiter = 0 then some { m with core := 2 ^ 17 }
       else if m.phase ≤ 1 then some { m with core := 2 ^ 17, waiter := 5 } else none)
    else if (m.acc.map (·.slotKey)) = some (2 * core + slot) ∧ m.phase ≤ 1 then some { m with acc := none }
    else some m

/-- Where a slot's runs of a store start: slot 0 at the bottom, slot 1 at the top (log entry 21). -/
def runBase (slot total n : Nat) : Nat := if slot = 0 then 0 else total - n

/-- Replaces the elements of `[lo, lo + n)` of what is left on a core by a crew's own. -/
def leaveRange {w : Nat} (left : Sp w) (lo n : Nat) (own : Sp w) : Sp w :=
  left.filter (fun p => decide (p.1 < lo)) ++ (own.filter fun p => decide (p.1 < n)).map (fun p => (lo + p.1, p.2)) ++
    left.filter fun p => decide (lo + n ≤ p.1)

/-- Where the units of a crew's vector registers, tiles and state tiles lie in its core's stores, by kind of `crewUnit`
(0, 1, 2): first physical unit, units. -/
def unitRun (slot : Nat) (c : Crew) (kind : Nat) : Nat × Nat :=
  match kind with
  | 0 => (runBase slot 768 c.nv, c.nv)
  | 1 => (128 * runBase slot 16 c.nt, 128 * c.nt)
  | _ => (512 * runBase slot 16 c.nh, 512 * c.nh)

/-- The contents and the poison of a crew's tiles, state tiles and vector registers stay behind in the core (R15). -/
def leaveBehind (s : State) (core slot : Nat) (c : Crew) : State :=
  let own (k : Nat) : List (Nat × Nat) :=
    s.host.poison.filterMap fun p =>
      if p.1 = 1 ∧ p.2 / 2 ^ 24 = (2 * core + slot) * 8 + k ∧ p.2 % 2 ^ 24 < (unitRun slot c k).2 then
        some (8 * core + k, (unitRun slot c k).1 + p.2 % 2 ^ 24) else none
  let gone (p : Nat × Nat) : Bool := [0, 1, 2].any fun k =>
    decide (p.1 = 8 * core + k) && decide ((unitRun slot c k).1 ≤ p.2) &&
      decide (p.2 < (unitRun slot c k).1 + (unitRun slot c k).2)
  { s with left :=
    { acc := leaveRange s.left.acc (core * 2 ^ 18 + 16384 * runBase slot 16 c.nt) (16384 * c.nt) c.acc
      st := leaveRange s.left.st (core * 2 ^ 17 + 8192 * runBase slot 16 c.nh) (8192 * c.nh) c.st
      v := leaveRange s.left.v (core * 2 ^ 10 + runBase slot 768 c.nv) c.nv c.v
      poison := s.left.poison.filter (fun p => !gone p) ++ own 0 ++ own 1 ++ own 2 } }

/-- Removes a crew from its slot: its monitor entries go, and so do the combined entries of the bindings that reach it
(R335); its regions keep their contents and tags (R274). -/
def freeSlot (s : State) (core slot : Nat) : State :=
  let s0 := match crewAt s core slot with
    | some c => leaveBehind s core slot c
    | none => s
  let mine (m : Monitor) : Bool := decide (m.core = core) && decide (m.slot = slot) && m.dev.isNone
  -- an entry at another device's unit is given up too (R142)
  let s1 := (s0.monitors.filter fun m => mine m && decide (farUnit ≤ m.unit)).foldl
    (fun s m => sendNotice s (m.unit - farUnit) opUnwatch (cidOf s 0) core slot) (dropCrew s0 core slot)
  { s1 with monitors := s1.monitors.filter (fun m => !mine m)
            fabric := { s1.fabric with msgs := orphan core slot s1.fabric.msgs }
            xlat := { s1.xlat with tlb := s1.xlat.tlb.filter fun e =>
              !(decide (e.tgt = 2) && decide (e.frame / 2 ^ 22 = 2 * core + slot)) }
            host := { s1.host with poison := s1.host.poison.filter fun p =>
              !(decide (p.1 = 1) && decide (p.2 / 2 ^ 27 = 2 * core + slot)) } }

/-- Counts a crew of a launch as retired, and all its reduction numbers as complete (R58, R274). -/
def countRetired (s : State) (launch rank : Nat) : State :=
  match launchById s launch with
  | none => s
  | some l =>
    setLaunch s { l with retired := l.retired + 1, progress := spSet l.progress rank (BitVec.ofNat 64 progressAll) }

/-- A crew retires: its slot is free again. -/
def retireCrew (s : State) (core slot : Nat) : State :=
  match crewAt s core slot with
  | none => s
  | some c => countRetired (freeSlot (drainErrs s core slot) core slot) c.launch c.rank

/-- The crew ends under R240: its record (type 4) enters the tenant's error queue, DONE rises with ERR, and the crew
retires without passing its NOTIFY. `second` is the cause of a fault inside a handler. -/
def endCrew (s : State) (core slot : Nat) (c : Crew) (f : FaultInfo) (second : Nat) : State :=
  let s1 := drainErrs s core slot
  let r := errRow s 4 f.cause (put (engCode f.eng) 2 1 + put second 3 1 + put f.pc 4 4 + put f.addr 8 8 + put f.info 16 8)
    (some (c, core))
  retireCrew (crewIncrement (tenantError s1 c.tenant [r]) c.launch true) core slot

/-! ### Traps (R240 to R243) -/

/-- Causes that a handler may take (R240). -/
def handleable (cause : Nat) : Bool :=
  [0x01, 0x02, 0x03, 0x04, 0x05, 0x07, 0x08, 0x09, 0x0A, 0x0B, 0x0C, 0x0D, 0x0E, 0x0F, 0x11, 0x13, 0x14, 0x15, 0x18,
    0x1A].contains cause

def handlerFor (s : State) (tenant cause : Nat) : Option Handler :=
  s.xlat.handlers.find? fun h => decide (h.tenant = tenant) && decide (h.cause = cause)

/-- The TCAUSE value of a fault (R242), SKIP clear. -/
def tcauseOf (f : FaultInfo) : Word :=
  BitVec.ofNat 64 (f.swc % 2 ^ 12 * 2 ^ 18 + (if f.engop then 2 ^ 11 else 0) + engCode f.eng * 2 ^ 8 + f.cause % 256)

/-- The handler data capability: space 4, the data object, R, W and AT, the whole object (R241). -/
def handlerData (s : State) (tenant : Nat) (h : Handler) : Cap :=
  if h.data = 0 then 0
  else match objOf? s tenant h.data with
    | none => 0
    | some e => mkCap 4 (rightR + rightW + rightAT) h.data e.gen e.size 0

/-- Taking a trap: the trap registers are written, handler mode is entered with fresh banks, and C and A run from the
handler's entry, whatever the crew's own C and A were waiting for. Every stream of the crew keeps its own PC; a pending
fault of another stream has committed nothing and is raised again. -/
def takeTrap (s : State) (core slot : Nat) (c : Crew) (f : FaultInfo) (h : Handler) : State :=
  let c1 := mapStreams c fun _ x => { x with status := (match x.status with | .faulted _ => .running | y => y) }
  putCrew s core slot
    { c1 with
      trap := { inHandler := true, tcause := tcauseOf f, tpc := BitVec.ofNat 64 f.pc, taddr := BitVec.ofNat 64 f.addr,
                tinfo := BitVec.ofNat 64 f.info, hcs := [], has := [], hk := spSet [] 1 (handlerData s c.tenant h),
                hcp := 0, hap := 0, hpcC := h.entry, hpcA := h.entry, hwaitC := 0, hwaitA := 0, htext := h.text,
                hstC := .running, hstA := .running } }

/-- The first pending fault of a crew in the order C, A, V, M, S (R240). -/
def pendingFault (c : Crew) : Option FaultInfo :=
  (allEngs.filterMap fun e =>
    if active c e then (match (strOf c e).status with | .faulted f => some f | _ => none) else none).head?

/-- Serves a fault of a crew that has stopped: the handler takes it, or the crew ends; 0x10 waits for the scheduler
(R358). -/
def settle (s : State) (core slot : Nat) (c : Crew) (f : FaultInfo) : State :=
  if f.cause = 0x10 then s
  else match (if handleable f.cause then handlerFor s c.tenant f.cause else none) with
    | some h => takeTrap s core slot c f h
    | none => endCrew s core slot c f 0

/-- Raises a fault in a stream of the crew on a slot, which stops with it. Of several pending faults the first in the order
C, A, V, M, S is served (R240), so one behind a pending 0x10 waits for the scheduler with it. In handler mode a fault ends
the crew, whose record carries both causes (R241). DESIGN CHOICE (log 111): beside the first trap's cause, the record's stream, PC and
TADDR are those of the fault in the handler. -/
def raise (s : State) (core slot : Nat) (c : Crew) (f : FaultInfo) : State :=
  if c.trap.inHandler then
    endCrew s core slot c { f with cause := (fld c.trap.tcause 0 8) } f.cause
  else
    let c1 := setStr c f.eng { strOf c f.eng with status := .faulted f, wait := 0 }
    let s1 := putCrew s core slot c1
    if f.cause = 0x10 then { s1 with agenda := s1.agenda ++ [.event .migrateTrap { core := core, slot := slot }] }
    else settle s1 core slot c1 ((pendingFault c1).getD f)

/-- A precise fault of the current stream at its own PC (R240). -/
def faultInfo (c : Crew) (e : Eng) (cause addr : Nat) : FaultInfo :=
  { cause := cause, eng := e, pc := pcOf c e, addr := addr, info := 0, swc := 0, engop := false }

def raiseHere (s : State) (c : Crew) (e : Eng) (cause addr : Nat) : Out :=
  .next (raise s s.cur.core s.cur.slot c (faultInfo c e cause addr))

/-- Length of the instruction at which a stream of this engine stands, for SKIP (R60, R243): by its tag. -/
def lenOfTag (tag : Nat) : Nat :=
  match tag with
  | 0 => 4
  | 1 => 4
  | 2 => 12
  | 3 => 24
  | 4 => 12
  | 5 => 4
  | _ => 0

/-- Lowers a counter of a stream by one. -/
def dDrop (c : Crew) (e : Eng) (k : Nat) : Crew := dWrite c e k (dRead c e k - 1)

def idleMctx (m : MCtx) : MCtx :=
  { m with fw := none, mprog := 0, gather := [], scatter := [], group := [], flags := 0 }
def idleSctx : SCtx := { active := false, sprog := 0, flags := 0, rowX := none }

/-- Clears the progress fields of a stream (R243): VREP and the held values of V, MPROG of M, SPROG of S; the counter
that a command under way had raised falls with it. -/
def clearProgress (c : Crew) (e : Eng) : Crew :=
  match e with
  | .v => { c with vctx := { vrep := 0, guard := none, d1val := none, d2val := none } }
  | .m =>
    let c1 := match c.mctx.fw with
      | some fw => dDrop c .m (fld fw 14 3)
      | none => c
    { c1 with mctx := idleMctx c1.mctx }
  | .s =>
    let c1 := if c.sctx.active then dDrop c .s 0 else c
    { c1 with sctx := idleSctx }
  | _ => c

/-- Leaving handler mode (R243): the banks are discarded and every stream stands where it stopped. With SKIP, the
trapping instruction, `len` bytes long, retires with no effect; for a software trap SKIP has none. -/
def trapReturn (c : Crew) (len : Nat) : Crew :=
  let e := engOfCode (fld c.trap.tcause 8 3)
  let skip := decide (fld c.trap.tcause 30 1 = 1) && decide (fld c.trap.tcause 0 8 ≠ 0x15)
  let c1 := { c with trap := { c.trap with inHandler := false, hcs := [], has := [], hk := [], hcp := 0, hap := 0,
                                           hpcC := 0, hpcA := 0, hwaitC := 0, hwaitA := 0, htext := 0, hstC := .running, hstA := .running } }
  let c2 := clearStall c1
  if skip then retire (clearProgress c2 e) e len else c2

end Sys2Proof.Machine
end

