-- ==== Sys2Proof/Machine/Flags.lean ====
section
/-!
DEFINITION. Machine/Flags.lean: the FSTAT flags (R41, R42) and how results carry them.
-/
namespace Sys2Proof.Machine

def flNV : BitVec 6 := 1
def flDZ : BitVec 6 := 2
def flOF : BitVec 6 := 4
def flUF : BitVec 6 := 8
def flNX : BitVec 6 := 16
def flIDZ : BitVec 6 := 32

/-- A flag when a condition holds. -/
def flIf (b : Bool) (f : BitVec 6) : BitVec 6 := if b then f else 0

/-- A result's bits with the flags it raises. -/
structure FRes where
  bits : Nat
  flags : BitVec 6
deriving DecidableEq, Repr

/-- Flags of one rounding (R42): `tiny` is judged before rounding, and an exact subnormal raises nothing. -/
def roundFlags (tiny inexact : Bool) : BitVec 6 := flIf inexact flNX ||| flIf (tiny && inexact) flUF

/-- Flags of an overflow, in the plain and the saturating form alike (R42). -/
def overflowFlags : BitVec 6 := flOF ||| flNX

/-- Sum of the flags of several results. -/
def orFlags (l : List FRes) : BitVec 6 := l.foldl (fun a r => a ||| r.flags) 0

end Sys2Proof.Machine
end

