-- ==== Sys2Proof/Machine/Fp.lean ====
section
/-!
DEFINITION. Machine/Fp.lean: the floating-point formats (R23 to R28), exact values, rounding (R37 to R39), minimum and
maximum (R40) and the correctly rounded functions (R45).
-/
namespace Sys2Proof.Machine

/-! ### Formats (R23) -/

/-- Fields of a floating format. -/
structure Fmt where
  eb : Nat
  fb : Nat
  bias : Nat
  /-- .e4m3: no infinities, one NaN fraction -/
  e4 : Bool
deriving DecidableEq, Repr

def fF32 : Fmt := ⟨8, 23, 127, false⟩
def fBf16 : Fmt := ⟨8, 7, 127, false⟩
def fF16 : Fmt := ⟨5, 10, 15, false⟩
def fE4m3 : Fmt := ⟨4, 3, 7, true⟩
def fE5m2 : Fmt := ⟨5, 2, 15, false⟩

/-- The format of a code of R19. -/
def fmtOf (ty : Nat) : Fmt :=
  match ty with
  | 8 => fF32
  | 9 => fBf16
  | 10 => fF16
  | 11 => fE4m3
  | _ => fE5m2

def Fmt.width (f : Fmt) : Nat := 1 + f.eb + f.fb
/-- Exponent of the last place of the smallest binade. -/
def Fmt.emin (f : Fmt) : Int := 1 - (f.bias : Int) - (f.fb : Int)
def Fmt.signBit (f : Fmt) : Nat := 2 ^ (f.eb + f.fb)
/-- Canonical NaN (R23). -/
def Fmt.cnan (f : Fmt) : Nat := if f.e4 then 0x7F else (2 ^ f.eb - 1) * 2 ^ f.fb + 2 ^ (f.fb - 1)
/-- Infinity of a sign; not for .e4m3. -/
def Fmt.inf (f : Fmt) (s : Bool) : Nat := (if s then f.signBit else 0) + (2 ^ f.eb - 1) * 2 ^ f.fb
/-- Largest finite magnitude of a sign (R23). -/
def Fmt.max (f : Fmt) (s : Bool) : Nat :=
  (if s then f.signBit else 0) + (if f.e4 then 0x7E else (2 ^ f.eb - 1) * 2 ^ f.fb - 1)
def Fmt.zero (f : Fmt) (s : Bool) : Nat := if s then f.signBit else 0

/-! ### Values (R24) -/

/-- An exact value: (-1)^s * m * 2^e, an infinity or a NaN. -/
inductive Fv where
  | nan
  | inf (s : Bool)
  | fin (s : Bool) (m : Nat) (e : Int)
deriving DecidableEq, Repr

def Fv.zero (s : Bool) : Fv := .fin s 0 0
def Fv.isNan : Fv → Bool
  | .nan => true
  | _ => false
def Fv.isZero : Fv → Bool
  | .fin _ m _ => decide (m = 0)
  | _ => false
def Fv.neg : Fv → Fv
  | .nan => .nan
  | .inf s => .inf (!s)
  | .fin s m e => .fin (!s) m e
def Fv.sign : Fv → Bool
  | .nan => false
  | .inf s => s
  | .fin s _ _ => s

/-- The value of a pattern (R24). -/
def fval (f : Fmt) (b : Nat) : Fv :=
  let fr := b % 2 ^ f.fb
  let e := b / 2 ^ f.fb % 2 ^ f.eb
  let s := decide (b / f.signBit % 2 = 1)
  if e = 0 then .fin s fr f.emin
  else if e + 1 = 2 ^ f.eb ∧ (f.e4 = false ∨ fr = 7) then
    (if fr = 0 then .inf s else .nan)
  else .fin s (2 ^ f.fb + fr) ((e : Int) - (f.bias : Int) - (f.fb : Int))

/-- Whether a pattern is a NaN. -/
def isNanBits (f : Fmt) (b : Nat) : Bool := (fval f b).isNan

/-! ### Rounding (R37, R38) and encoding (R27) -/

/-- A magnitude scaled by a power of two, when that is exact or is to be cut: quotient and remainder share. -/
def scaleMag (m : Nat) (k : Int) : Nat × Nat × Nat :=
  if 0 ≤ k then (m / 2 ^ k.toNat, m % 2 ^ k.toNat, 2 ^ k.toNat) else (m * 2 ^ (-k).toNat, 0, 1)

/-- Whether a cut magnitude `q + r/u` goes up to `q + 1`. Modes: 0 rne, 1 rtz, 2 rdn, 3 rup. -/
def roundUp (mode : Nat) (s : Bool) (q r u : Nat) : Bool :=
  match mode with
  | 0 => decide (u < 2 * r) || (decide (2 * r = u) && decide (q % 2 = 1))
  | 1 => false
  | 2 => s && decide (r ≠ 0)
  | _ => !s && decide (r ≠ 0)

/-- The encoded result of an overflow (R27). -/
def overflowBits (mode : Nat) (sat s : Bool) (f : Fmt) : Nat :=
  if sat then f.max s
  else if f.e4 then f.cnan
  else match mode with
    | 0 => f.inf s
    | 1 => f.max s
    | 2 => if s then f.inf true else f.max false
    | _ => if s then f.max true else f.inf false

/-- Rounds (-1)^s * m * 2^e once to the format and encodes it (R38, R27, R42). -/
def encFin (mode : Nat) (sat : Bool) (f : Fmt) (s : Bool) (m : Nat) (e : Int) : FRes :=
  if m = 0 then ⟨f.zero s, 0⟩
  else
    let top := (Nat.log2 m : Int) + e
    let l := max (top - (f.fb : Int)) f.emin
    let (q, r, u) := scaleMag m (l - e)
    let q1 := if roundUp mode s q r u then q + 1 else q
    let (q2, l2) := if q1 = 2 ^ (f.fb + 1) then (2 ^ f.fb, l + 1) else (q1, l)
    let inexact := decide (r ≠ 0)
    let tiny := decide (top < f.emin + (f.fb : Int))
    let sb := f.zero s
    if q2 < 2 ^ f.fb then ⟨sb + q2, roundFlags tiny inexact⟩
    else
      let be := (l2 - f.emin + 1).toNat
      let fr := q2 - 2 ^ f.fb
      let ovf := if f.e4 then decide (15 < be) || (decide (be = 15) && decide (fr = 7)) else decide (2 ^ f.eb ≤ be + 1)
      if ovf then ⟨overflowBits mode sat s f, overflowFlags⟩
      else ⟨sb + be * 2 ^ f.fb + fr, roundFlags tiny inexact⟩

/-- Encodes an exact infinite result (R27, R42). -/
def encInf (sat : Bool) (f : Fmt) (s : Bool) : FRes :=
  if sat then ⟨f.max s, flNX⟩ else if f.e4 then ⟨f.cnan, flNV⟩ else ⟨f.inf s, 0⟩

/-- Encodes any exact value: enc and satenc of R6. -/
def enc (mode : Nat) (sat : Bool) (f : Fmt) (v : Fv) : FRes :=
  match v with
  | .nan => ⟨f.cnan, 0⟩
  | .inf s => encInf sat f s
  | .fin s m e => encFin mode sat f s m e

/-- Adds flags to a result. -/
def FRes.or (r : FRes) (f : BitVec 6) : FRes := ⟨r.bits, r.flags ||| f⟩

/-! ### Exact arithmetic (R39) -/

/-- Signed integer of a dyadic at exponent `e0`, which is not above its own. -/
def scaled (s : Bool) (m : Nat) (e e0 : Int) : Int :=
  let x : Int := (m * 2 ^ (e - e0).toNat : Nat)
  if s then -x else x

/-- Sign of an exact zero sum (R39). -/
def zeroSumSign (mode : Nat) (s1 s2 : Bool) : Bool := if s1 = s2 then s1 else decide (mode = 2)

/-- Exact sum; the flag is NV when a NaN arises from infinities. -/
def fadd (mode : Nat) (a b : Fv) : Fv × BitVec 6 :=
  match a, b with
  | .nan, _ => (.nan, 0)
  | _, .nan => (.nan, 0)
  | .inf s, .inf t => if s = t then (.inf s, 0) else (.nan, flNV)
  | .inf s, _ => (.inf s, 0)
  | _, .inf t => (.inf t, 0)
  | .fin s m e, .fin t n g =>
    if m = 0 ∧ n = 0 then (.fin (zeroSumSign mode s t) 0 0, 0)
    else
      let e0 := min e g
      let x := scaled s m e e0 + scaled t n g e0
      if x = 0 then (.fin (decide (mode = 2)) 0 0, 0) else (.fin (decide (x < 0)) x.natAbs e0, 0)

/-- Exact product. -/
def fmul (a b : Fv) : Fv × BitVec 6 :=
  match a, b with
  | .nan, _ => (.nan, 0)
  | _, .nan => (.nan, 0)
  | .inf s, .inf t => (.inf (s != t), 0)
  | .inf s, .fin t n _ => if n = 0 then (.nan, flNV) else (.inf (s != t), 0)
  | .fin s m _, .inf t => if m = 0 then (.nan, flNV) else (.inf (s != t), 0)
  | .fin s m e, .fin t n g => (.fin (s != t) (m * n) (e + g), 0)

/-- Exact a * b + c. NV is raised only when no operand is a NaN. -/
def fmadd (mode : Nat) (a b c : Fv) : Fv × BitVec 6 :=
  let (p, f1) := fmul a b
  let (r, f2) := fadd mode p c
  (r, if a.isNan || b.isNan || c.isNan then 0 else f1 ||| f2)

/-- Rounds the exact result of an operation. -/
def encOp (mode : Nat) (sat : Bool) (f : Fmt) (x : Fv × BitVec 6) : FRes := (enc mode sat f x.1).or x.2

/-- enc(a + b) of patterns in FP32 with rne, the addition of reductions, scans and the matrix update. -/
def add32 (a b : Nat) : FRes := encOp 0 false fF32 (fadd 0 (fval fF32 a) (fval fF32 b))
def mul32 (a b : Nat) : FRes := encOp 0 false fF32 (fmul (fval fF32 a) (fval fF32 b))
def fma32 (a b c : Nat) : FRes := encOp 0 false fF32 (fmadd 0 (fval fF32 a) (fval fF32 b) (fval fF32 c))

/-! ### Order (R40, R162) -/

/-- Strict order of two non-NaN values, with -0 below +0 when `zeros` is set. -/
def fvLt (zeros : Bool) (a b : Fv) : Bool :=
  match a, b with
  | .nan, _ => false
  | _, .nan => false
  | .inf s, .inf t => s && !t
  | .inf s, .fin _ _ _ => s
  | .fin _ _ _, .inf t => !t
  | .fin s m e, .fin t n g =>
    if m = 0 ∧ n = 0 then zeros && s && !t
    else
      let e0 := min e g
      decide (scaled s m e e0 < scaled t n g e0)

/-- Equality of values; the two zeros are equal. -/
def fvEq (a b : Fv) : Bool := !a.isNan && !b.isNan && !fvLt false a b && !fvLt false b a

/-- Minimum (or maximum) of two patterns (R40): bits of the selected operand. -/
def fminmax (mx : Bool) (f : Fmt) (a b : Nat) : Nat :=
  let x := fval f a
  let y := fval f b
  if x.isNan || y.isNan then f.cnan
  else if mx then (if fvLt true x y then b else a) else (if fvLt true y x then b else a)

/-! ### Integer conversion (R28) -/

/-- Integer of a value in a mode, with whether it was inexact. -/
def roundInt (mode : Nat) (s : Bool) (m : Nat) (e : Int) : Int × Bool :=
  let (q, r, u) := scaleMag m (-e)
  let q1 := if roundUp mode s q r u then q + 1 else q
  (if s then -(q1 : Int) else (q1 : Int), decide (r ≠ 0))

/-- Bounds of an integer format (R21). -/
def intMin (signed : Bool) (w : Nat) : Int := if signed then -(2 ^ (w - 1) : Nat) else 0
def intMax (signed : Bool) (w : Nat) : Int := if signed then (2 ^ (w - 1) : Nat) - 1 else (2 ^ w : Nat) - 1

/-- Nearest bound of R21. -/
def clampInt (signed : Bool) (w : Nat) (x : Int) : Int := max (intMin signed w) (min (intMax signed w) x)

/-- A floating value to an integer format (R28, R42). -/
def toInt (mode : Nat) (signed : Bool) (w : Nat) (v : Fv) : FRes :=
  match v with
  | .nan => ⟨0, flNV⟩
  | .inf s => ⟨wrapN (if s then intMin signed w else intMax signed w) w, flNV⟩
  | .fin s m e =>
    let (x, inexact) := roundInt mode s m e
    if intMin signed w ≤ x ∧ x ≤ intMax signed w then ⟨wrapN x w, flIf inexact flNX⟩
    else ⟨wrapN (clampInt signed w x) w, flNV⟩

/-- An integer as an exact value; zero is +0. -/
def ofInt (x : Int) : Fv := .fin (decide (x < 0)) x.natAbs 0

/-- The integer an element of a format holds (R21). -/
def intOf (signed : Bool) (w b : Nat) : Int := if signed then sextN b w else ((b % 2 ^ w : Nat) : Int)

/-! ### Correctly rounded functions (R45) -/

/-- Integer square root by bits, from bit `n - 1` down. -/
def isqrtAux (x : Nat) : Nat → Nat → Nat
  | 0, r => r
  | n + 1, r => if (r + 2 ^ n) * (r + 2 ^ n) ≤ x then isqrtAux x n (r + 2 ^ n) else isqrtAux x n r

/-- floor(sqrt x). -/
def isqrt (x : Nat) : Nat := isqrtAux x (Nat.log2 x / 2 + 1) 0

/-- A quotient or root cut at a unit well below the last place, made inexact by a low bit when something was cut. -/
def sticky (q : Nat) (cut : Bool) : Nat := 4 * q + (if cut then 1 else 0)

/-- 1/x. -/
def frcp (mode : Nat) (sat : Bool) (f : Fmt) (v : Fv) : FRes :=
  match v with
  | .nan => ⟨f.cnan, 0⟩
  | .inf s => ⟨f.zero s, 0⟩
  | .fin s m e =>
    if m = 0 then (encInf sat f s).or flDZ
    else
      let k := Nat.log2 m + f.fb + 8
      encFin mode sat f s (sticky (2 ^ k / m) (decide (2 ^ k % m ≠ 0))) (-(k : Int) - e - 2)

/-- sqrt x. -/
def fsqrt (mode : Nat) (sat : Bool) (f : Fmt) (v : Fv) : FRes :=
  match v with
  | .nan => ⟨f.cnan, 0⟩
  | .inf s => if s then ⟨f.cnan, flNV⟩ else encInf sat f false
  | .fin s m e =>
    if m = 0 then ⟨f.zero s, 0⟩
    else if s then ⟨f.cnan, flNV⟩
    else
      let k := 2 * (f.fb + 8) + (e % 2).toNat
      let x := m * 2 ^ k
      let q := isqrt x
      encFin mode sat f false (sticky q (decide (q * q ≠ x))) ((e - (k : Int)) / 2 - 2)

/-- 1/sqrt x. -/
def frsq (mode : Nat) (sat : Bool) (f : Fmt) (v : Fv) : FRes :=
  match v with
  | .nan => ⟨f.cnan, 0⟩
  | .inf s => if s then ⟨f.cnan, flNV⟩ else ⟨f.zero false, 0⟩
  | .fin s m e =>
    if m = 0 then (encInf sat f s).or flDZ
    else if s then ⟨f.cnan, flNV⟩
    else
      -- 2^k / m with k + e even
      let k0 := 2 * (f.fb + 8) + Nat.log2 m
      let k := if ((k0 : Int) + e) % 2 = 0 then k0 else k0 + 1
      let x := 2 ^ k / m
      let q := isqrt x
      encFin mode sat f false (sticky q (decide (q * q * m ≠ 2 ^ k))) (-((k : Int) + e) / 2 - 2)

/-- Ceiling of a quotient by a power of two. -/
def shrUp (x n : Nat) : Nat := (x + 2 ^ n - 1) / 2 ^ n

/-- Bounds of 2^(f/2^n) scaled by 2^p, for f < 2^n: the product over the bits of f of the successive square roots of 2. -/
def exp2Bounds (p : Nat) : Nat → Nat → Nat × Nat → Nat × Nat → Nat × Nat
  | 0, _, _, acc => acc
  | n + 1, f, (rl, rh), (al, ah) =>
    -- the next root: 2^(2^-k)
    let rl1 := isqrt (rl * 2 ^ p)
    let rh1 := isqrt (rh * 2 ^ p) + 1
    let acc := if f / 2 ^ n % 2 = 1 then (al * rl1 / 2 ^ p, shrUp (ah * rh1) p) else (al, ah)
    exp2Bounds p n (f % 2 ^ n) (rl1, rh1) acc

/-- Encodes the value that lies strictly between two close bounds, when both give one result. -/
def encBetween (mode : Nat) (sat : Bool) (f : Fmt) (s : Bool) (lo hi : Nat) (e : Int) : Option FRes :=
  let a := encFin mode sat f s (4 * lo + 1) (e - 2)
  let b := encFin mode sat f s (4 * hi - 1) (e - 2)
  if a = b then some a else none

/-- Tries growing precisions. -/
def firstSome {α : Type} (g : Nat → Option α) : List Nat → α → α
  | [], d => d
  | p :: rest, d => match g p with
    | some x => x
    | none => firstSome g rest d

/-- 2^x. -/
def fexp2 (mode : Nat) (sat : Bool) (f : Fmt) (v : Fv) : FRes :=
  match v with
  | .nan => ⟨f.cnan, 0⟩
  | .inf s => if s then ⟨f.zero false, 0⟩ else encInf sat f false
  | .fin s m e =>
    if m = 0 then encFin mode sat f false 1 0
    else
      let big := decide (12 < (Nat.log2 m : Int) + e)
      -- far outside the format's range: any value there rounds alike
      if big then (if s then encFin mode sat f false 1 (-4096) else encFin mode sat f false 5 4096)
      else
        -- x = i + fr / 2^n
        let n := (-e).toNat
        let x := scaled s m e (min e 0)
        let i := x / ((2 ^ n : Nat) : Int)
        let fr := (x % ((2 ^ n : Nat) : Int)).toNat
        if fr = 0 then encFin mode sat f false 1 i
        else
          firstSome (fun p =>
            let (lo, hi) := exp2Bounds p n fr (2 ^ (p + 1), 2 ^ (p + 1)) (2 ^ p, 2 ^ p)
            encBetween mode sat f false lo (hi + 1) (i - (p : Int)))
            [n + 64, n + 192, n + 512] (encFin mode sat f false (4 * 2 ^ n + 1) (i - (n : Int) - 2))

/-- The bits of log2 of y/2^p, for y between lo and hi in [2^p, 2^(p+1)): repeated squaring; none when the bounds part. -/
def log2Bits (p : Nat) : Nat → Nat → Nat → Nat → Option Nat
  | 0, _, _, acc => some acc
  | n + 1, lo, hi, acc =>
    let l2 := lo * lo / 2 ^ p
    let h2 := shrUp (hi * hi) p
    if 2 ^ (p + 1) ≤ l2 then log2Bits p n (l2 / 2) (shrUp h2 1) (2 * acc + 1)
    else if h2 < 2 ^ (p + 1) then log2Bits p n l2 h2 (2 * acc)
    else none

/-- log2 x. -/
def flog2 (mode : Nat) (sat : Bool) (f : Fmt) (v : Fv) : FRes :=
  match v with
  | .nan => ⟨f.cnan, 0⟩
  | .inf s => if s then ⟨f.cnan, flNV⟩ else encInf sat f false
  | .fin s m e =>
    if m = 0 then (encInf sat f true).or flDZ
    else if s then ⟨f.cnan, flNV⟩
    else
      let t := Nat.log2 m
      let i := (t : Int) + e
      if m = 2 ^ t then enc mode sat f (ofInt i)
      else
        firstSome (fun n =>
          let p := 2 * n + 64
          match log2Bits p n (m * 2 ^ p / 2 ^ t) (m * 2 ^ p / 2 ^ t + (if m * 2 ^ p % 2 ^ t = 0 then 0 else 1)) 0 with
          | none => none
          | some b =>
            let x := i * ((2 ^ n : Nat) : Int) + (b : Int)
            if 0 ≤ x then encBetween mode sat f false x.toNat (x.toNat + 1) (-(n : Int))
            else encBetween mode sat f true ((-x).toNat - 1) (-x).toNat (-(n : Int)))
          [96, 160, 320] (enc mode sat f (ofInt i))

end Sys2Proof.Machine
end

