-- ==== Sys2Proof/Machine/Record.lean ====
section
/-!
DEFINITION. Machine/Record.lean: row records, the form in which every whole 64-byte row travels on rings, station links and
carry ports (R32 to R34).
-/
namespace Sys2Proof.Machine

/-! ### The words of a row (R32) -/

def wordExp (r : Row) (i : Nat) : Nat := fld r (32 * i + 23) 8
def wordSign (r : Row) (i : Nat) : Nat := fld r (32 * i + 31) 1
def wordMant (r : Row) (i : Nat) : Nat := fld r (32 * i) 23

/-- The largest exponent field of a row. -/
def recordBase (r : Row) : Nat := (List.range 16).foldl (fun b i => max b (wordExp r i)) 0

/-- Delta code of word `i`; 7 is an escape. -/
def recordCode (r : Row) (i : Nat) : Nat := if recordBase r - wordExp r i ≤ 6 then recordBase r - wordExp r i else 7

/-- The words that need an escape byte, in order. -/
def recordEscapes (r : Row) : List Nat := (List.range 16).filter fun i => decide (recordCode r i = 7)

/-- The record of a row (R33). -/
def encodeRecord (r : Row) : RowRecord :=
  let es := recordEscapes r
  if es.length ≤ 8 then
    let body := recordBase r + ((List.range 16).map fun i =>
      recordCode r i * 2 ^ (8 + 3 * i) + wordSign r i * 2 ^ (56 + i) + wordMant r i * 2 ^ (72 + 23 * i)).sum
    { desc := BitVec.ofNat 8 (128 + es.length)
      payload := leBytes body 55 ++ es.map fun i => BitVec.ofNat 8 (wordExp r i) }
  else { desc := 0, payload := leBytes r.toNat 64 }

/-- The row of a record; none where it is malformed (R34). -/
def decodeRecord (x : RowRecord) : Option Row :=
  let d := x.desc.toNat
  let esc := d % 32
  let b := leNat x.payload
  if d / 32 % 4 ≠ 0 then none
  else if d / 128 = 0 then (if esc ≠ 0 then none else some (BitVec.ofNat 512 b))
  else if 8 < esc then none
  else
    let base := b % 256
    let code (i : Nat) : Nat := b / 2 ^ (8 + 3 * i) % 8
    let before (i : Nat) : Nat := ((List.range i).filter fun k => decide (code k = 7)).length
    if before 16 ≠ esc then none
    else if (List.range 16).any fun i => decide (code i ≤ 6) && decide (base < code i) then none
    else some (rowOf 32 16 fun i =>
      (b / 2 ^ (56 + i) % 2) * 2 ^ 31 +
        (if code i = 7 then b / 2 ^ (440 + 8 * before i) % 256 else base - code i) * 2 ^ 23 + b / 2 ^ (72 + 23 * i) % 2 ^ 23)

/-- The body of a message that carries `size` bytes: a whole row as its record, a shorter payload raw (R32, R373). -/
def payloadOf (size x : Nat) : Payload :=
  if size = 64 then .record (encodeRecord (BitVec.ofNat 512 x)) else .raw (BitVec.ofNat 512 x)

/-- What a receiver reads in a message's body; none where its record is malformed. -/
def Payload.row? : Payload → Option Row
  | .raw x => some x
  | .record r => decodeRecord r

/-- The contents of a body that has been delivered: a malformed one never is (R34). -/
def Payload.row (p : Payload) : Row := p.row?.getD 0

end Sys2Proof.Machine
end

