-- ==== Sys2Proof/Machine/Access.lean ====
section
/-!
DEFINITION. Machine/Access.lean: what an access of the A stream shares with every other: page faults (R343 to R346),
phase sets (R247, R295), resting and keyed reductions (R55 to R58, R139, R140), remote requests (R153, R373 to R381).
-/
namespace Sys2Proof.Machine

/-! ### Page faults -/

/-- The function whose pager serves a fault (R344). -/
def pagerOf (s : State) (tenant stage : Nat) : Nat := if stage = 2 then 0 else fnOf s tenant

/-- A page-fault record (R345). -/
def faultRow (s : State) (p : PageFault) (fseq : Nat) : Nat :=
  put 0x20 0 1 + put p.stage 1 1 + put p.form 2 1 + put p.tenant 3 1 + put p.tag 4 2 + put (p.obj * 2 ^ 40 + p.off) 8 8 +
    put p.addr 16 8 + put s.cycle.toNat 32 8 + put fseq 40 4

/-- Whether a function's fault queue has a free slot that the host link reaches; else the record waits. -/
def fqRoom (s : State) (fn : Nat) : Bool :=
  let used := ((regGet s fn rFQTAIL) - (regGet s fn rFQHEAD)).toNat % 2 ^ 32
  decide (used < ringSlots (regGet s fn rFQCFG)) && s.host.linkUp

/-- Writes a fault record into its slot, before FQTAIL advances and the vector is raised. -/
def fqWrite (s : State) (fn : Nat) (p : PageFault) : State :=
  let tail := (regGet s fn rFQTAIL).toNat % 2 ^ 32
  let base := (regGet s fn rFQBASE).toNat / 4096 * 4096
  let s1 := hostWrite s (base + 64 * (tail % ringSlots (regGet s fn rFQCFG))) (faultRow s p (tail + 1)) 64
  raiseVector (regSet s1 fn rFQTAIL (BitVec.ofNat 64 ((tail + 1) % 2 ^ 32))) fn (regGet s fn rFQCFG)

/-- An outstanding fault on the same page and stage, which further faults join (R344); the page is 2 MiB where a large-page
leaf is absent. -/
def sameFault (s : State) (tenant stage addr : Nat) : Option PageFault :=
  s.xlat.faults.find? fun p =>
    decide (p.tenant = tenant) && decide (p.stage = stage) && decide (p.addr / p.size = addr / p.size)

/-- Opens (or joins) a page fault (stage 3: a frame still to be pulled, served by the pull engine, R413): the tag that holds the access, or none where the pager's queue is off, which acts as
a RESOLVE with fail (R345). A second-stage fault met while walking a table names no object (R345). -/
def openFault (s : State) (tenant : Nat) (f : XFail) (form : Form) (obj' off' : Nat) : State × Option Nat :=
  let obj := if f.stage = 2 ∧ f.table = true then 0 else obj'
  let off := if f.stage = 2 ∧ f.table = true then 0 else off'
  let size := if f.large then 2 ^ 21 else 2 ^ 14
  match sameFault s tenant f.stage f.addr with
  | some p => (s, some p.tag)
  | none =>
    let fn := pagerOf s tenant f.stage
    if f.stage = 3 then
      let p : PageFault :=
        { tag := s.xlat.nextTag, tenant := tenant, pager := fn, stage := 3, form := formCode form, obj := obj, off := off,
          addr := f.addr, size := size, written := true, pull := true }
      ({ s with xlat := { s.xlat with faults := s.xlat.faults ++ [p], nextTag := (s.xlat.nextTag + 1) % 2 ^ 16 } }, some p.tag)
    else
    if fld (regGet s fn rFQCFG) 31 1 = 0 then
      (regSet s fn rFQLOST (BitVec.ofNat 64 (min ((regGet s fn rFQLOST).toNat + 1) 0xFFFF_FFFF)), none)
    else
      let room := fqRoom s fn
      let p : PageFault :=
        { tag := s.xlat.nextTag, tenant := tenant, pager := fn, stage := f.stage, form := formCode form, obj := obj,
          off := off, addr := f.addr, size := size, written := room, pull := false }
      let s1 := { s with xlat := { s.xlat with faults := s.xlat.faults ++ [p], nextTag := (s.xlat.nextTag + 1) % 2 ^ 16 } }
      (if room then fqWrite s1 fn p else s1, some p.tag)

/-- A crew ends with a cause that no handler receives (R240, R421); inside a handler its record carries both causes (R241). -/
def endUnhandled (s : State) (core slot : Nat) (c : Crew) (f : FaultInfo) : State :=
  if c.trap.inHandler then endCrew s core slot c { f with cause := fld c.trap.tcause 0 8 } f.cause else endCrew s core slot c f 0

/-- A stream meets a page fault: it is held at its instruction (R343), or its crew ends with 0x06 (R346 fail). -/
def holdStream (s : State) (core slot : Nat) (c : Crew) (e : Eng) (f : XFail) (form : Form) (obj off : Nat) : State :=
  match openFault s c.tenant f form obj off with
  | (s1, some tag) =>
    putCrew s1 core slot (setWait (setStatus c e (.held tag off)) e 0)
  | (s1, none) => endUnhandled s1 core slot c (faultInfo c e 0x06 off)

/-- Any failing check of R128 in the current stream: a page fault holds the stream; every other cause is raised
precisely, with the type 13 record where one is due. -/
def failAccess (s : State) (c : Crew) (e : Eng) (cap : Cap) (form : Form) (u : Nat) (f : XFail) : Out :=
  if f.cause = 0x06 then .next (holdStream s s.cur.core s.cur.slot c e f form (capObj cap) u)
  else raiseHere (translationRecord s c.tenant (capObj cap) u f) c e f.cause u

/-! ### Phase sets (R247, R295, R308) -/

/-- Whether a 32-bit range holds a row of the 15-bit form. -/
def rangeHas (rg row : Nat) : Bool :=
  let first := rg % 2 ^ 15
  let n := rg / 2 ^ 15 % 2 ^ 15
  decide (first / 2 ^ 14 = row / 2 ^ 14) && decide (first % 2 ^ 14 ≤ row % 2 ^ 14) &&
    decide (row % 2 ^ 14 < first % 2 ^ 14 + n)

/-- Byte at which an engine's set starts in a phase entry: reads, then writes 8 bytes on. -/
def phaseBase (e : Eng) : Nat :=
  match e with
  | .a => 0
  | .m => 16
  | .s => 32
  | _ => 48

/-- Whether a phase entry lets an engine read or write a crew row. -/
def phaseHas (entry : Row) (e : Eng) (write : Bool) (row : Nat) : Bool :=
  let b := phaseBase e + (if write then 8 else 0)
  rangeHas (rowElem entry 32 (b / 4)) row || rangeHas (rowElem entry 32 (b / 4 + 1)) row

/-- The phase entry in force for a crew; empty sets where there is none. -/
def phaseEntry (s : State) (c : Crew) : Row :=
  match c.phase, launchById s c.launch with
  | some n, some l => l.phases.getD n 0
  | _, _ => 0

/-- Outside deterministic mode no set is checked. -/
def phaseOk (s : State) (c : Crew) (e : Eng) (rd wr : Bool) (row : Nat) : Bool :=
  !isDet c || ((!rd || phaseHas (phaseEntry s c) e false row) && (!wr || phaseHas (phaseEntry s c) e true row))

/-- The request that the A stream at this PC waits for, or a fetch (`fetchPc`). -/
def myMsg (s : State) (core slot pc : Nat) : Option FabMsg :=
  s.fabric.msgs.find? fun m => !m.inbound && decide (m.core = core) && decide (m.slot = slot) && decide (m.waiter = 1) &&
    decide (m.pc = pc)

/-- The composition of the access that the A stream at this PC has under way: it stands until the answer is taken (R341, R342). -/
def underWay (s : State) (c : Crew) : Option Acc := (myMsg s s.cur.core s.cur.slot (pcOf c .a)).bind (·.acc)

/-- One access of the current A stream: every check of R128, then the phase sets for its own partition. An access that is
under way has been checked and translated. -/
def aAccess (s : State) (c : Crew) (cap : Cap) (k : AccKind) (rd wr : Bool) (u size : Nat) (go : State → Acc → Out) :
    Out :=
  match underWay s c with
  | some a => go s a
  | none =>
    match access s s.cur.core s.cur.slot c cap k u size with
    | (s1, .error f) => failAccess s1 c .a cap k.form u f
    | (s1, .ok a) => if a.tgt = 8 ∧ phaseOk s1 c .a rd wr (keyRow c a.key) = false then raiseHere s1 c .a 0x0F u else go s1 a

/-- A store-like access that its source stop refuses (R396) fails as R153 says: the instruction goes on, and a record of
type 1 enters the context's error queue. -/
def refusedPost (s : State) (c : Crew) (a : Acc) (cls : Nat) (go : State → Out) : Out :=
  match go s with
  | .next s1 =>
    .next (ctxError s1 s.cur.core s.cur.slot
      (errRow s 1 0x07 (put cls 2 1 + put 1 3 1 + put (pcOf c .a) 4 4 + put (a.robj * 2 ^ 40 + a.roff) 8 8 +
        put (cidOf s c.tenant) 18 2) (some (c, s.cur.core))))
  | o => o

/-! ### Atomic operations (R88, R138) -/

/-- The new value of a word of `size` bytes. `y` is the new value of .cas, `x` the operand (expected value of .cas). -/
def atomNew (op size old x y : Nat) : Nat :=
  let w := 8 * size
  match op with
  | 0 => (old + x) % 2 ^ w
  | 1 => (add32 old x).bits
  | 2 => Nat.land old x
  | 3 => Nat.lor old x
  | 4 => Nat.xor old x
  | 5 => if sextN x w < sextN old w then x else old
  | 6 => if sextN old w < sextN x w then x else old
  | 7 => if x < old then x else old
  | 8 => if old < x then x else old
  | 9 => fminmax false fF32 old x
  | 10 => fminmax true fF32 old x
  | 11 => x
  | _ => if old = x then y else old

/-- Applies an update at a key. -/
def applyUpdate (s : State) (key size op x y : Nat) : State :=
  writeUnit s key size (atomNew op size (readUnit s key size) x y)

/-- A crew owns a part of a resting row. -/
def ownsRow (c : Crew) (r : Resting) : Bool := r.owners.contains (c.launch, c.rank)

/-! ### Resting reductions (R139, R292) -/

/-- A held keyed update of an owner to the same word comes before a resting row (R129). -/
def restBlocked (s : State) (r : Resting) : Bool :=
  s.keyed.any fun k => r.owners.contains (k.launch, k.rank) && decide (k.key < r.key + r.size) && decide (r.key < k.key + 4)

def restApply (s : State) (r : Resting) : State := doneReached (applyUpdate s r.key r.size r.op r.x.toNat 0) r.key

/-- Two resting reductions of one core touch a common byte. -/
def restMeets (x r : Resting) : Bool :=
  decide (x.core = r.core) && decide (x.key < r.key + r.size) && decide (r.key < x.key + x.size)

/-- One resting reduction as a flush meets it: applied, or, behind a held keyed update or an earlier one that is due and touches
its bytes, due itself (R129). -/
def flushOne (p : Resting → Bool) (s : State) (r : Resting) : State :=
  if !p r then { s with resting := s.resting ++ [r] }
  else if restBlocked s r || s.resting.any (fun x => x.due && restMeets x r) then { s with resting := s.resting ++ [{ r with due := true }] }
  else restApply s r

/-- Applies, in arrival order, every resting reduction that a test selects; one that must follow another update is due and is
applied after it. -/
def flushWhere (s : State) (p : Resting → Bool) : State := s.resting.foldl (flushOne p) { s with resting := [] }

/-- Every resting row of a core's combining buffer. -/
def flushCore (s : State) (core : Nat) : State := flushWhere s fun r => decide (r.core = core)

/-- The rows of a crew that its own access of `n` bytes at a key touches. -/
def flushTouch (s : State) (core slot key n : Nat) : State :=
  match crewAt s core slot with
  | none => s
  | some c =>
    flushWhere s fun r =>
      decide (r.core = core) && ownsRow c r && decide (key / 64 ≤ r.key / 64) && decide (r.key / 64 ≤ (key + n - 1) / 64)

/-- A reduction of a crew still rests on a row that `n` bytes at a key touch. -/
def restTouch (s : State) (core : Nat) (c : Crew) (key n : Nat) : Bool :=
  s.resting.any fun r =>
    decide (r.core = core) && ownsRow c r && decide (key / 64 ≤ r.key / 64) && decide (r.key / 64 ≤ (key + n - 1) / 64)

/-- Distinct rows resting in a core's buffer. -/
def restingRows (s : State) (core : Nat) : List Nat :=
  (s.resting.filter fun r => decide (r.core = core)).foldl
    (fun acc r => if acc.contains (r.key / 64) then acc else acc ++ [r.key / 64]) []

/-- A reduction of the same operation on the same word, with which a new one merges in the order of arrival (R56, R139). -/
def restMerges (core key size op : Nat) (r : Resting) : Bool :=
  decide (r.core = core) && decide (r.key = key) && decide (r.size = size) && decide (r.op = op) && !r.due

/-- Rests a reduction of a crew in its core's buffer: merged with one of the same operation on the same word; another
operation's on that word is flushed first; a miss with all 32 rows occupied flushes the oldest row. None while that row must
stay behind a held update: the buffer holds 32 rows (R139). -/
def restAdd (s : State) (core : Nat) (c : Crew) (key size op : Nat) (x : Word) : Option State :=
  let own := (c.launch, c.rank)
  let s1 := flushWhere s fun r =>
    decide (r.core = core) && decide (r.key < key + size) && decide (key < r.key + r.size) && !restMerges core key size op r
  if s1.resting.any (restMerges core key size op) then
    some { s1 with resting := s1.resting.map fun r =>
        if restMerges core key size op r then
          { r with x := BitVec.ofNat 64 (atomNew op size r.x.toNat x.toNat 0)
                   owners := if r.owners.contains own then r.owners else r.owners ++ [own] } else r }
  else
    let rows := restingRows s1 core
    let s2 :=
      match rows with
      | [] => s1
      | oldest :: _ =>
        if rows.length ≥ 32 ∧ rows.contains (key / 64) = false then
          flushWhere s1 fun r => decide (r.core = core) && decide (r.key / 64 = oldest)
        else s1
    if (restingRows s2 core).length ≥ 32 ∧ (restingRows s2 core).contains (key / 64) = false then none
    else some { s2 with resting := s2.resting ++
        [{ core := core, owners := [own], due := false, key := key, size := size, op := op, x := x }] }

/-! ### Keyed reductions (R57, R58) -/

/-- Crews of a launch: the product of its level counts (R276). -/
def launchCrews (l : Launch) : Nat := l.levels.foldl (fun n x => n * x.count) 1

/-- P_n: crews of a unit of level `n` (R276). -/
def levelUnit (l : Launch) (n : Nat) : Nat := (l.levels.take n).foldl (fun p x => p * x.count) 1

/-- Crews of one instance of a pipeline stage, and of a whole stage (R322). -/
def instCrews (l : Launch) : Nat := levelUnit l (l.levels.length - 2)
def stageCrews (l : Launch) : Nat := levelUnit l (l.levels.length - 1)

/-- MINI of a stage entry (R310). -/
def stMin (e : BitVec 128) : Nat := fld e 0 16

/-- Whether this package places a rank: it lies in run PIDX (R316). -/
def rankHere (l : Launch) (r : Nat) : Bool := decide (l.pcnt ≤ 1) || decide (r / (launchCrews l / l.pcnt) = l.pidx)

/-- Whether a rank is placed as an ordinary crew here: of a pipeline, in an instance below MINI (R322, R324). -/
def rankOrdinary (l : Launch) (r : Nat) : Bool :=
  rankHere l r &&
    (!l.flags.getLsbD 6 || decide (r % stageCrews l / instCrews l < stMin (l.stages.getD (r / stageCrews l) 0)))

/-- Whether a held update may be applied: no update of its row with a smaller key is held, and none is still to be issued
by a crew of its launch. Crews that this package never places issue none to its banks; those of a launch that has been
discarded have ended (R58). -/
def keyedMayApply (s : State) (k : Keyed) : Bool :=
  (match launchById s k.launch with
   | none => true
   | some l =>
     (List.range (launchCrews l)).all fun r =>
       let p := (spGet l.progress r).toNat
       !rankOrdinary l r || decide (k.rank ≤ r ∧ k.issue ≤ p) || decide (k.issue < p)) &&
    (s.keyed.all fun x =>
      !(decide (x.launch = k.launch) && decide (x.key / 64 = k.key / 64) &&
        (decide (x.issue < k.issue) || (decide (x.issue = k.issue) && decide (x.rank < k.rank)))))

/-- The block of device memory of a key has still to be pulled (R404, R413). -/
def keyPend (s : State) (key : Nat) : Bool :=
  decide (key / 2 ^ 36 < 12) && (frameRec s (key / 2 ^ 36) (key % 2 ^ 36 / 4096)).getLsbD 2

/-- Applies held update `i`, if its key allows and its frame has been pulled, and the resting rows that had to follow it. -/
def keyedApply (s : State) (i : Nat) : State :=
  match s.keyed[i]? with
  | none => s
  | some k =>
    if keyedMayApply s k && !keyPend s k.key then
      let old := readUnit s k.key 4
      let s1 := doneReached (applyUpdate { s with keyed := delNth s.keyed i } k.key 4 1 k.x.toNat 0) k.key
      let s2 := if k.sig then wakeRow s1 (k.key / 64) else s1
      let s3 := flushWhere s2 fun r => r.due
      if k.atom then
        { s3 with keyedDone := s3.keyedDone ++ [{ launch := k.launch, rank := k.rank, old := BitVec.ofNat 32 old }] }
      else s3
    else s

/-- Applies every held update whose key allows, at most once for each that is held. -/
def keyedSettle (s : State) : State :=
  iter (fun s => (List.range s.keyed.length).foldl (fun s i => keyedApply s i) s) s.keyed.length s

/-- Issues a keyed reduction of a crew and publishes its progress. -/
def keyedIssue (s : State) (core slot : Nat) (c : Crew) (key : Nat) (x : BitVec 32) (atom sig strong : Bool) : State × Crew :=
  let k : Keyed := { launch := c.launch, issue := c.issueNo, rank := c.rank, key := key, x := x, atom := atom, sig := sig,
                     strong := strong, core := core, slot := slot }
  let s1 := setProgress { s with keyed := s.keyed ++ [k] } c.launch c.rank (c.issueNo + 1)
  (s1, { c with issueNo := c.issueNo + 1 })

/-- Whether a crew still has held updates (all, or those touching `n` bytes at a key). -/
def keyedHeld (s : State) (c : Crew) : Bool :=
  s.keyed.any fun k => decide (k.launch = c.launch) && decide (k.rank = c.rank)
/-- Whether one of them was issued on a strong page. -/
def keyedStrong (s : State) (c : Crew) : Bool :=
  s.keyed.any fun k => k.strong && decide (k.launch = c.launch) && decide (k.rank = c.rank)
def keyedTouch (s : State) (c : Crew) (key n : Nat) : Bool :=
  s.keyed.any fun k =>
    decide (k.launch = c.launch) && decide (k.rank = c.rank) && decide (k.key < key + n) && decide (key < k.key + 4)

/-- Whether a floating add is keyed (R57): deterministic mode, Commons or device memory. -/
def isKeyed (c : Crew) (op : Nat) (a : Acc) : Bool :=
  isDet c && decide (op = 1) && (decide (a.tgt = 9) || decide (a.tgt = 1) || decide (a.tgt = 0))

/-! ### Remote requests (R153, R373 to R381) -/

/-- Operation code of a fetch of text. -/
def opFetch : Nat := 0xF2

/-- Where a request goes: the destination stop and the unit there; the bank units of a peer core stand on its die, another
device is reached through a station (R373, R377). -/
def msgTarget (s : State) (a : Acc) : Nat × Nat :=
  if a.tgt = 2 then (stopOf (dieOf (a.slotKey / 2)), 16 + a.slotKey / 2)
  else
    let st := stationFor s (a.peer % 2 ^ 16) (a.roff / 16384)
    (stationStop st, st)

/-- The body of a request: a whole row of a store or a copy travels as a row record, every shorter operand raw (R32). -/
def bodyOf (op size data : Nat) : Payload :=
  if (op % 256 = 0x28 ∨ op % 256 = 0x5B) ∧ size = 64 then payloadOf size data else .raw (BitVec.ofNat 512 data)

/-- A request of a crew to a peer. Operation codes: the opcode of the issuing form. -/
def mkMsg (s : State) (core slot : Nat) (c : Crew) (a : Acc) (cls form size op gen : Nat) (data cmp : Nat) (pc waiter widx : Nat) :
    FabMsg :=
  { id := s.fabric.nextMsg, src := stopOf (dieOf core), dst := (msgTarget s a).1, unit := (msgTarget s a).2,
    cid := cidOf s c.tenant, cls := cls, form := form,
    peer := a.peer, obj := a.robj, gen := gen, off := a.roff, size := size, op := op, data := bodyOf op size data,
    cmp := BitVec.ofNat 512 cmp, core := core, slot := slot, pc := pc, waiter := waiter, widx := widx, phase := 0,
    retries := 0, refused := 0, reply := .raw 0, resends := 0, cause := 0, inbound := false, due := 0, expires := none,
    step := 0, from_ := 0, members := [], acc := some a }

/-- A message between two stops of this package: its unit is a core's bank units (R373). -/
def FabMsg.onPackage (m : FabMsg) : Bool := decide (16 ≤ m.unit)

/-- The group of a group peer: bit 62 of the peer word, identifier in bits 15:0 (R383, R384). -/
def groupOfPeer (s : State) (peer : Nat) : Option Group :=
  if peer.testBit 62 then s.fabric.groups.find? fun g => decide (g.num = bitsOf peer 4 12) && g.live else none

def setGroup (s : State) (g : Group) : State :=
  { s with fabric := { s.fabric with groups := s.fabric.groups.map fun x => if x.num = g.num then g else x } }

/-- Members that a group operation is delivered to: a reduction goes to the root of a reduction group, the first member;
every other form to each member (R384). -/
def groupTargets (g : Group) (op : Nat) : List Nat :=
  if g.kind = 1 ∧ op % 256 = 0x51 then g.members.take 1 else g.members

/-- A group operation for the member that this device is, which performs it as any member does (R384). -/
def localDelivery (s : State) (m : FabMsg) : List FabMsg :=
  if m.members.contains Config.deviceNumber then
    [{ m with id := s.fabric.nextMsg + 1, inbound := true, waiter := 0, widx := 0, from_ := Config.deviceNumber }]
  else []

/-- Sends a request; a group operation takes the group's next step number, or is a row of the one with step `st`; it is delivered
to each member, and is kept for members in retention (R384, R438). -/
def sendStep (s : State) (m : FabMsg) (st : Option Nat) : State :=
  match groupOfPeer s m.peer with
  | none => { s with fabric := { s.fabric with msgs := s.fabric.msgs ++ [m], nextMsg := s.fabric.nextMsg + 1 } }
  | some x =>
    let m1 := { m with step := st.getD x.steps, members := groupTargets x m.op }
    let s1 := setGroup s { x with steps := if st.isNone then (x.steps + 1) % 2 ^ 32 else x.steps
                                  kept := x.kept ++ (x.resting.filter m1.members.contains).map fun d => (d, m1) }
    { s1 with fabric := { s1.fabric with msgs := s1.fabric.msgs ++ m1 :: localDelivery s m1,
                                         nextMsg := s1.fabric.nextMsg + 2 } }

def sendMsg (s : State) (m : FabMsg) : State := sendStep s m none

def dropMsg (s : State) (id : Nat) : State :=
  { s with fabric := { s.fabric with msgs := s.fabric.msgs.filter fun m => !decide (m.id = id) } }

def updMsg (s : State) (m : FabMsg) : State :=
  { s with fabric := { s.fabric with msgs := s.fabric.msgs.map fun x => if x.id = m.id then m else x } }

/-- Requests of a core not yet answered (R381: at most 256). -/
def outstanding (s : State) (core : Nat) : Nat :=
  (s.fabric.msgs.filter fun m => !m.inbound && decide (m.core = core) && decide (m.phase ≤ 1)).length

/-- Stores and the like of a crew that have not been acknowledged, and rows of its LDQs that have not arrived (R286, R374):
what a release or a fence waits for. -/
def unacked (s : State) (core slot : Nat) : Bool :=
  s.fabric.msgs.any fun m => !m.inbound && decide (m.core = core) && decide (m.slot = slot) &&
    (decide (m.waiter = 0) || decide (m.waiter = 2)) && decide (m.phase ≤ 1)

/-- A row that an earlier LDQ of the crew reads on a strong page has not arrived: nothing of strong or release kind is performed
before that read (R286). -/
def strongPending (s : State) (core slot : Nat) : Bool :=
  s.fabric.msgs.any fun m => !m.inbound && decide (m.core = core) && decide (m.slot = slot) && decide (m.waiter = 2) &&
    decide (m.phase ≤ 1) && decide (m.acc.map (·.ord) = some 0)

/-- An earlier access of the crew to the same remote row that is not acknowledged: the later one is not sent (R374). -/
def rowBusy (s : State) (core slot : Nat) (a : Acc) : Bool :=
  s.fabric.msgs.any fun m => !m.inbound && decide (m.core = core) && decide (m.slot = slot) && decide (m.phase ≤ 1) &&
    decide (m.onPackage = decide (a.tgt = 2)) &&
    (if m.onPackage then decide (m.acc.map (·.key / 64) = some (a.key / 64))
     else decide (m.peer = a.peer) && decide (m.obj = a.robj) && decide (m.off / 64 = a.roff / 64))

/-- The cause with which a remote request failed (R153, R336); a row that came poisoned is met as poison (R421), and what the
bank unit of a peer core finds is met as at the own one. -/
def remoteCause (m : FabMsg) : Nat := if m.onPackage ∨ m.cause = 0x05 ∨ m.cause = 0x18 then m.cause else 0x11

/-- The type 1 record of a store-like request that failed (R382): stream 5 where it is of a copy engine's row; of the causes, 0x05
and 0x07 are the owner's own answers, any other failure is 0x11. DESIGN CHOICE (log 113): a peer core of this package has no peer
device number, and the field is 0. -/
def failRecord (s : State) (m : FabMsg) (cause : Nat) : State :=
  let copy := decide (m.waiter = 3) || decide (m.op % 256 = 0x5B) || decide (m.op % 256 = 0x5C)
  let why := if cause = 0x05 ∨ cause = 0x07 then cause else 0x11
  let area := put m.cls 2 1 + put (if copy then 5 else 1) 3 1 + put m.pc 4 4 + put (m.obj * 2 ^ 40 + m.off) 8 8 +
    put (m.peer % 2 ^ 16) 16 2 + put m.cid 18 2
  match crewAt s m.core m.slot with
  | some c => ctxError s m.core m.slot (errRow s 1 why area (some (c, m.core)))
  | none => tenantError s (m.cid / 256) [errRow s 1 why area none]

/-- A remote form that returns data: sent once, then waited for in class `cls6` (0x6 for data; 0x9 for WAITSIG, CWAIT, ring and barrier forms, R267); its failure is precise (R153). -/
def remoteReturning (s : State) (c : Crew) (a : Acc) (cls6 cls form size op gen data cmp : Nat) (go : State → Row → Out) : Out :=
  let core := s.cur.core
  let slot := s.cur.slot
  match myMsg s core slot (pcOf c .a) with
  | some m =>
    if m.phase = 2 then go (dropMsg s m.id) m.reply.row
    else if m.phase = 3 then raiseHere (dropMsg s m.id) c .a (remoteCause m) a.roff
    else wait s c .a cls6
  | none =>
    if 256 ≤ outstanding s core then wait s c .a 6
    else if rowBusy s core slot a then wait s c .a cls6
    else wait (sendMsg s (mkMsg s core slot c a cls form size op gen data cmp (pcOf c .a) 1 0)) c .a cls6

/-- A remote form that returns nothing: sent, and the instruction retires (R131, R153). -/
def remotePosted (s : State) (c : Crew) (a : Acc) (cls form size op gen data : Nat) (go : State → Out) : Out :=
  let core := s.cur.core
  let slot := s.cur.slot
  if rowBusy s core slot a ∨ 256 ≤ outstanding s core then wait s c .a 6
  else go (sendMsg s (mkMsg s core slot c a cls form size op gen data 0 (pcOf c .a) 0 0))

/-! ### Release and acquire (R131, R132, R144, R407) -/

/-- A system-scope order of a tenant-scope function: 0 none, 1 demoted (DEMOTE set), 2 trapped with 0x1A. -/
def demotion (s : State) (c : Crew) (systemScope : Bool) : Nat :=
  let f := fnOf s c.tenant
  if systemScope && fnTScope s f then (if fnDemTrap s f then 2 else 1) else 0

/-- Whether an access reaches system scope (R132, R283). -/
def reachesSystem (a : Acc) : Bool := a.isHost || decide (a.tgt = 4)

/-- A release: the core's resting reductions are applied, and nothing that it covers may be unperformed. None while
held reductions or unacknowledged remote stores keep the stream waiting (R58, R374). -/
def releaseReady (s : State) (core slot : Nat) (c : Crew) : Option State :=
  let s1 := keyedSettle (flushCore s core)
  if keyedHeld s1 c || s1.resting.any (ownsRow c) || unacked s1 core slot then none else some s1

end Sys2Proof.Machine
end

