-- ==== Sys2Proof/Machine/Footprint.lean ====
section
/-!
DEFINITION. Machine/Footprint.lean: the decode checks that depend on the crew and the core: tiles, state tiles and
vector registers beyond the declared footprint (R78), and opcodes absent from the core's profile (R17).
-/
namespace Sys2Proof.Machine
open FieldCheck

/-- The accumulator tile an M word names. -/
def tileOf? : Instr → Option Nat
  | .mstep w => some w.t.toNat
  | .mgather w => some w.t.toNat
  | .mzero w => some w.t.toNat
  | .mloadacc w => some w.t.toNat
  | .mdrain w => some w.t.toNat
  | .mrdrain w => some w.t.toNat
  | _ => none

/-- The state tile an S word names; only the h field is checked at decode (R211). -/
def stateTileOf? : Instr → Option Nat
  | .sload w => some w.h.toNat
  | .sstore w => some w.h.toNat
  | .szero w => some w.h.toNat
  | .sread w => some w.h.toNat
  | .scan w => some w.h.toNat
  | .sagg w => some w.h.toNat
  | .snet w => some w.h.toNat
  | .sapply w => some w.h.toNat
  | .step w => some w.h.toNat
  | _ => none

/-- Every vector register, tile and state tile that the instruction names lies within the footprint. -/
def footprintOk (c : Crew) (i : Instr) : Bool :=
  (match vspecOf i with
   | some (w, sp) =>
     let top := (c.nv : Int) - 1
     dRegsTo top (repOf w) w.d0 sp.d0 && dRegsTo top (repOf w) w.d1 sp.d1 && dRegsTo top (repOf w) w.d2 sp.d2
   | none => true) &&
  ((tileOf? i).getD 0 < c.nt || (tileOf? i).isNone) && ((stateTileOf? i).getD 0 < c.nh || (stateTileOf? i).isNone)

/-- The queue that an S word names. -/
def scanQueue? : Instr → Option Nat
  | .sload w => some w.q.toNat
  | .sstore w => some w.q.toNat
  | .sread w => some w.q.toNat
  | .scan w => some w.q.toNat
  | .sapply w => some w.q.toNat
  | .step w => some w.q.toNat
  | _ => none

/-- The queue whose kind an instruction mistakes (R80), which TADDR reports (R238): the first such descriptor of a V word. -/
def misusedQueue (i : Instr) : Nat :=
  match i with
  | .qpop _ _ _ _ q => q.toNat
  | .qsend _ _ _ q _ => q.toNat
  | .stq _ _ q _ _ => q.toNat
  | _ =>
    match vspecOf i with
    | some (w, sp) =>
      (([(w.d0, sp.d0), (w.d1, sp.d1), (w.d2, sp.d2)].find? fun d =>
        (dQueues d.1 d.2).any fun x => !x.1 && decide (x.2 = .queueMisuse)).map fun d => dBase d.1).getD 0
    | none => (scanQueue? i).getD 0

/-- The reversible vector class (R17). -/
def isReversible : Instr → Bool
  | .rmul _ => true
  | .radd _ => true
  | .rfma _ => true
  | .rnar _ => true
  | .rlrelu _ => true
  | .unmul _ => true
  | .unadd _ => true
  | .unfma _ => true
  | .unnar _ => true
  | .unlrelu _ => true
  | .rmark _ => true
  | .rdrop _ => true
  | _ => false

/-- What profile B lacks (R17). -/
def profileF (i : Instr) : Bool :=
  isReversible i ||
  (match i with
   | .mgather _ => true
   | .mrdrain _ => true
   | .sopsetBd2 _ => true
   | .sopsetBd4 _ => true
   | .sopsetBd8 _ => true
   | _ => false)

end Sys2Proof.Machine
end

