-- ==== Sys2Proof/Machine/Fetch.lean ====
section
/-!
DEFINITION. Machine/Fetch.lean: program text, engine tags, skipping, the slip window (R60 to R63, R258 to R264), and
what a stream does next: nothing, or one decoded instruction.
-/
namespace Sys2Proof.Machine

/-- The text object a stream reads: the launch's, or the handler's in handler mode (R241, R244). -/
def textOf (c : Crew) : Nat := if c.trap.inHandler then c.trap.htext else c.text

/-- The tag of an engine (R60). -/
def tagOfEng : Eng → Nat
  | .c => 0
  | .a => 1
  | .v => 2
  | .m => 3
  | .s => 4

/-- What a stream finds at its PC. -/
inductive Fetched where
  /-- first parcel's tag and the instruction's words; a skipped instruction's further words are not read -/
  | words (tag w : Nat)
  /-- the PC or the last parcel lies beyond the end of the text object (R63) -/
  | beyond
  /-- a row of the text is on its way from another device -/
  | waits
  | failed (f : XFail)
deriving DecidableEq, Repr

/-- Where a request for text of stream `e` names the PC that it waits at, apart from every PC of a load. -/
def fetchPc (e : Eng) (pc : Nat) : Nat := 2 ^ 64 * (1 + tagOfEng e) + pc

/-- A row of text that another device holds: sent for once, then waited for; a failure is precise, as for a load (R153). -/
def fetchRemote (s : State) (c : Crew) (a : Acc) (gen pc : Nat) : State × Except XFail (Option Nat) :=
  let core := s.cur.core
  let slot := s.cur.slot
  match myMsg s core slot (fetchPc s.cur.eng pc) with
  | some m =>
    if m.phase = 2 then (s, .ok (some m.reply.row.toNat))
    else if m.phase = 3 then (dropMsg s m.id, xfail (remoteCause m) 1 0 false)
    else (s, .ok none)
  | none =>
    if rowBusy s core slot a ∨ 256 ≤ outstanding s core then (s, .ok none)
    else (sendMsg s (mkMsg s core slot c { a with roff := a.roff / 64 * 64 } 0 8 64 opFetch gen 0 0 (fetchPc s.cur.eng pc) 1 0), .ok none)

/-- The 64-byte row of a tenant's text object that holds the parcel at `pc`, read by one access (R338); a poisoned row is
0x18. None while it is on its way. -/
def fetchRow (s : State) (c : Crew) (die text gen pc : Nat) : State × Except XFail (Option Nat) :=
  match objAccess s die c.tenant text pc kFetch with
  | (s1, .error f) => (s1, .error f)
  | (s1, .ok a) =>
    if a.remote then fetchRemote s1 c a gen pc
    else if isPoisoned s1 a.key then (s1, xfail 0x18 1 0 false)
    else (s1, .ok (some (readUnit s1 (a.key / 64 * 64) 64)))

/-- Where a row of remote text that a stream has fetched is kept for looking ahead (R137): by text object and row. -/
def keptPc (text row : Nat) : Nat := 2 ^ 64 * (16 + text) + row

/-- The rows that a stream's fetch has waited for are used up; one copy of each is kept while the crew stands, since the
interlocks of R137 look back at text that another stream has walked. -/
def fetchDone (s : State) (text pc : Nat) : State :=
  let mine (m : FabMsg) : Bool :=
    !m.inbound && decide (m.core = s.cur.core) && decide (m.slot = s.cur.slot) && decide (m.waiter = 1) &&
      decide (m.pc / 2 ^ 64 = fetchPc s.cur.eng pc / 2 ^ 64)
  let got := (s.fabric.msgs.filter fun m => mine m && decide (m.phase = 2)).map fun m =>
    { m with pc := keptPc text (m.pc % 2 ^ 64 / 64 * 64) }
  let fresh := got.filter fun m => !(s.fabric.msgs.any fun x =>
    decide (x.core = m.core) && decide (x.slot = m.slot) && decide (x.waiter = 1) && decide (x.pc = m.pc))
  { s with fabric := { s.fabric with msgs := s.fabric.msgs.filter (fun m => !mine m) ++ fresh } }

/-- Fetches the instruction at a PC for the current stream of crew `c`; only the first parcel unless `whole` says that the
stream executes this tag. -/
def fetch (s : State) (c : Crew) (die text pc : Nat) (whole : Nat → Bool) : State × Fetched :=
  match lookupObj s c.tenant text with
  | .error f => (s, .failed f)
  | .ok e =>
    if e.size < pc + 4 then (s, .beyond)
    else match fetchRow s c die text e.gen pc with
    | (s1, .error f) => (s1, .failed f)
    | (s1, .ok none) => (s1, .waits)
    | (s1, .ok (some r)) =>
      let here := r / 2 ^ (8 * (pc % 64))
      let tag := here % 2 ^ 32 / 2 ^ 29
      let len := lenOfTag tag
      if e.size < pc + len then (fetchDone s1 text pc, .beyond)
      else if !whole tag then (fetchDone s1 text pc, .words tag (here % 2 ^ 32))
      else if pc % 64 + len ≤ 64 then (fetchDone s1 text pc, .words tag (here % 2 ^ (8 * len)))
      else match fetchRow s1 c die text e.gen (pc / 64 * 64 + 64) with
        | (s2, .error f) => (s2, .failed f)
        | (s2, .ok none) => (s2, .waits)
        | (s2, .ok (some r2)) =>
          (fetchDone s2 text pc, .words tag ((here + r2 * 2 ^ (8 * (64 - pc % 64))) % 2 ^ (8 * len)))

/-- The bytes by which a stream's PATH grows when it passes an instruction of `len` bytes (R259): none in a handler; C's
PATH stays while its call depth is not zero, grows by the BRL's 4 bytes when the outermost RET retires, and not when the
outermost BRL is taken. -/
def pathGrowth (c : Crew) (e : Eng) (len : Nat) (i : Option Instr) : Nat :=
  if c.trap.inHandler then 0
  else match e, i with
  | .c, some (.brl n g _) => if c.cd ≠ 0 ∨ guard c .c n g = true then 0 else len
  | .c, some (.ret n g) => if c.cd = 0 ∨ (c.cd = 1 ∧ guard c .c n g = true) then len else 0
  | .c, _ => if c.cd ≠ 0 then 0 else len
  | _, _ => len

/-- The slip window stalls a stream that would take its PATH more than SLIPW bytes beyond the least PATH of the other active
streams that have not arrived at a retiring NOTIFY (R264). -/
def slipBlocked (c : Crew) (e : Eng) (grow : Nat) : Bool :=
  decide (0 < grow) &&
    (allEngs.any fun o =>
      active c o && decide (o ≠ e) && decide ((strOf c o).status ≠ .arrived) &&
        decide ((strOf c o).path + c.slipw < (strOf c e).path + grow))

/-- Whether a stream executes instructions at all. -/
def canRun (c : Crew) (e : Eng) : Bool :=
  active c e && decide (statusOf c e = .running) &&
    !c.ctl.scrubHold && !(decide (fld c.ctl.dbgstat 1 1 = 1)) && decide (c.ctl.stepping ≠ 2) &&
    (!c.trap.inHandler || decide (e = .c) || decide (e = .a))

/-- A stream's wait class as it stands; in handler mode C and A wait as the handler does. -/
def waitOf (c : Crew) (e : Eng) : Nat :=
  if c.trap.inHandler then (match e with | .a => c.trap.hwaitA | .c => c.trap.hwaitC | _ => (strOf c e).wait)
  else (strOf c e).wait

/-- Whether an engine may serve a slot's stream now: the two slots take turns, and a stream that waits or does not execute
gives up its turn (R260). -/
def hasTurn (s : State) (core slot : Nat) (e : Eng) : Bool :=
  decide ((spGet s.turns (5 * core + engCode e)).toNat ≠ slot + 1) ||
    (match crewAt s core (1 - slot) with
     | none => true
     | some c => !canRun c e || decide (waitOf c e ≠ 0))

/-- The engine serves a slot's stream, up to `part` boundaries of an instruction under way. -/
def takeTurn (s : State) (core slot : Nat) (e : Eng) (part : Option Nat) : State :=
  { s with cur := ⟨core, slot, e⟩, part := part, turns := spSet s.turns (5 * core + engCode e) (BitVec.ofNat 2 (slot + 1)) }

/-- What the stream does in one step. -/
inductive Prep where
  /-- no instruction executes; the state after the stream's turn -/
  | idle (s : State)
  /-- this instruction executes -/
  | run (s : State) (i : Instr)

/-- Whether an instruction is a SETN, which V, M and S meet although C executes it (R263). -/
def isSetn : Instr → Bool
  | .setnReg _ _ _ _ => true
  | .setnImm _ _ _ _ => true
  | _ => false

/-- Whether a FIFO that must be appended to is full (R262). -/
def fifoFull (c : Crew) (es : List Eng) : Bool :=
  es.any fun e => active c e && decide (64 ≤ (strOf c e).fifo.length)

/-- The streams that take joint entries, and those that take count entries. -/
def jointEngs : List Eng := [.a, .v, .m, .s]
def countEngs : List Eng := [.v, .m, .s]

/-- A stream stops at an X word that no opcode assigns; once every active stream has, the crew reports one illegal
instruction with that PC (R90). Where the paths have parted (R118), another stream waits for an outcome that C will not append,
and the fault of C is reported then (R94). One that C has skipped on leaving a handler passes in every stream as not taken, by
the entry that C has appended (R243); an entry of another instruction is a mismatch (R263). In a handler, and in C at a call
depth other than zero, any X word but NOP faults at once (R118, R241). -/
def stopUnassigned (s : State) (core slot : Nat) (c : Crew) (e : Eng) : State :=
  let head : Option Word := if e = .c then none else (strOf c e).fifo.head?
  if c.trap.inHandler ∨ (e = .c ∧ c.cd ≠ 0) then raise s core slot c (faultInfo c e 0x01 0)
  else match head with
  | some x =>
    if fld x 32 32 = pcOf c e % 2 ^ 32 ∧ fld x 30 2 = 0 then
      putCrew s core slot
        (retire (setStatus (setStr c e { strOf c e with fifo := (strOf c e).fifo.tail, joints := (strOf c e).joints + 1 }) e .running) e 4)
    else raise s core slot (setStatus c e .running) (faultInfo c e 0x01 0)
  | none =>
    let c1 := setWait (setStatus c e (.joint 3 0)) e 0
    let parked (o : Eng) : Bool := decide ((strOf c1 o).status = .joint 3 0)
    let starved (o : Eng) : Bool := decide (o ≠ .c) && active c1 o && decide ((strOf c1 o).wait = 3) && (strOf c1 o).fifo.isEmpty
    if parked .c && (allEngs.all (fun o => !active c1 o || parked o) || allEngs.any starved) then
      let c2 := mapStreams c1 fun _ x => if x.status = .joint 3 0 then { x with status := .running } else x
      raise s core slot c2 (faultInfo c2 .c 0x01 0)
    else putCrew s core slot c1

/-- Whether an X word's opcode is one that no instruction is assigned (R90); a reserved field of an assigned one is illegal at
once (R4). -/
def xUnassigned (w : Nat) : Bool := decide (w / 2 ^ 29 % 8 = 5) && (decide (w / 2 ^ 17 % 128 = 3) || decide (8 ≤ w / 2 ^ 17 % 128))

/-- A decode fault becomes the instruction that raises it, or the fault itself, in the order of R82: footprint registers
stand before queue naming, and the profile of the core comes last. -/
def prepDecoded (s : State) (core slot : Nat) (c : Crew) (e : Eng) (w : Nat) : Prep :=
  let fault (cause : Nat) : Prep := .idle (raise s core slot c (faultInfo c e cause 0))
  let queue : Nat := ((decodeFields w).map misusedQueue).getD 0
  let beyond := match decodeFields w with
    | some i => !footprintOk c i
    | none => false
  match decode w with
  | .ok i =>
    if beyond then fault 0x02
    else if profileF i && !isSaffron core then fault (if isNoMig c then 0x01 else 0x10)
    else .run s i
  | .error .illegal =>
    if e = .c ∧ w / 2 ^ 29 % 8 = 5 ∧ c.trap.inHandler = false ∧ c.cd = 0 ∧ fifoFull c jointEngs = true then
      .idle (putCrew s core slot (setWait c e 4))
    else if xUnassigned w then .idle (stopUnassigned s core slot c e) else .run s .illegalInstruction
  | .error .reservedReg => fault 0x02
  | .error .queueIllegal => if beyond then fault 0x02 else .run s .illegalInstruction
  | .error .queueMisuse =>
    if beyond then fault 0x02 else .idle (raise s core slot c (faultInfo c e 0x0B queue))

/-- One turn of a stream up to, and not including, its instruction's effect. -/
def prepare (s : State) (core slot : Nat) (e : Eng) : Prep :=
  match crewAt s core slot with
  | none => .idle s
  | some c =>
    if !canRun c e then
      (if active c e ∧ (strOf c e).status = .joint 3 0 ∧ debugStopped c = false ∧ c.trap.inHandler = false then .idle (stopUnassigned s core slot c e)
       else .idle s)
    else
      let pc := pcOf c e
      let mine (tag : Nat) : Bool :=
        decide (tag = tagOfEng e) || decide (tag = 5) ||
          (decide (tag = 0) && decide (e ≠ .a) && !c.trap.inHandler)
      match fetch s c (dieOf core) (textOf c) pc mine with
      | (s1, .beyond) => .run s1 .fetchCapabilityBounds
      | (s1, .waits) => .idle (putCrew s1 core slot (setWait c e 6))
      | (s1, .failed f) =>
        if f.cause = 0x06 then .idle (holdStream s1 core slot c e f .fetch (textOf c) pc)
        else .idle (raise (translationRecord s1 c.tenant (textOf c) pc f) core slot c (faultInfo c e f.cause pc))
      | (s1, .words tag w) =>
        let len := lenOfTag tag
        if len = 0 then .run s1 .illegalInstruction
        else if slipBlocked c e (pathGrowth c e len (if tag = 0 ∧ e = .c then decodeFields w else none)) then .idle (putCrew s1 core slot (setWait c e 5))
        else if tag = tagOfEng e ∨ tag = 5 then prepDecoded s1 core slot c e w
        else
          -- an instruction of another engine: skipped by its length, but for the SETNs that V, M and S meet
          let skip : Prep := .idle (putCrew s1 core slot (skipOver c e len))
          if mine tag then
            (match decode w with
             | .ok i => if isSetn i then .run s1 i else skip
             | .error _ => skip)
          else skip

end Sys2Proof.Machine
end

