-- ==== Sys2Proof/Machine/Streams.lean ====
section
/-!
DEFINITION. Machine/Streams.lean: joint instructions and outcome FIFOs (R245 to R249, R258 to R275), and the events of
fetching and decoding.
-/
namespace Sys2Proof.Machine

/-! ### Outcome entries (R261) -/

/-- A joint entry. -/
def jointEntry (pc : Nat) (taken : Bool) : Word :=
  BitVec.ofNat 64 (pc % 2 ^ 32 * 2 ^ 32 + (if taken then 2 ^ 30 else 0))

/-- A count entry. -/
def countEntry (pc : Nat) (keep : Bool) (k : Nat) (v : BitVec 16) : Word :=
  BitVec.ofNat 64 (pc % 2 ^ 32 * 2 ^ 32 + 2 * 2 ^ 30 + (if keep then 2 ^ 19 else 0) + k % 8 * 2 ^ 16 + v.toNat)

def entryPc (x : Word) : Nat := fld x 32 32
def entryKind (x : Word) : Nat := fld x 30 2

/-- Appends an entry to the FIFO of each active stream of a list. -/
def fifoPush (c : Crew) (es : List Eng) (x : Word) : Crew :=
  es.foldl (fun c e => if active c e then setStr c e { strOf c e with fifo := (strOf c e).fifo ++ [x] } else c) c

/-- A stream counts a joint outcome it has taken. -/
def countJoint (c : Crew) (e : Eng) : Crew := setStr c e { strOf c e with joints := (strOf c e).joints + 1 }

/-- What a stream's pop of its outcome FIFO gives (R263). -/
inductive Outcome1 where
  | empty
  | mismatch
  | got (x : Word) (c : Crew)
deriving DecidableEq, Repr

/-- Pops the head entry when it is of the kinds expected and bears the stream's PC. -/
def fifoPop (c : Crew) (e : Eng) (kinds : List Nat) : Outcome1 :=
  match (strOf c e).fifo with
  | [] => .empty
  | x :: rest =>
    if entryPc x = pcOf c e % 2 ^ 32 ∧ kinds.contains (entryKind x) then
      .got x (setStr c e { strOf c e with fifo := rest })
    else .mismatch

/-- Runs a meaning on the crew and engine of the current stream, which must be active. -/
def onStream (s : State) (f : Crew → Eng → Out) : Out :=
  match crewAt s s.cur.core s.cur.slot with
  | none => .fault .noStream
  | some c => if active c s.cur.eng then f c s.cur.eng else .fault .noStream

/-- The outcome of an X word in the current stream. C decides it with `decide`, which may fault, and delivers it; every
other stream pops it. C waits while a FIFO is full before anything else, so that the word's entry has room even where it faults
and a handler skips it (R243, R262; log 31). `act` is what the stream then does. In a handler, and in C at a call depth other than zero, an
X word other than NOP is illegal (R118, R241). -/
def joint (s : State) (check : Crew → Option (Nat × Nat)) (decideC : Crew → Bool × Crew) (act : Crew → Eng → Bool → Out) :
    Out :=
  onStream s fun c e =>
    if c.trap.inHandler then raiseHere s c e 0x01 0
    else if e = .c then
      if c.cd ≠ 0 then raiseHere s c e 0x01 0
      else if fifoFull c jointEngs then wait s c e 4
      else match check c with
      | some (cause, addr) => raiseHere s c e cause addr
      | none =>
          let (taken, c1) := decideC c
          act (countJoint (fifoPush c1 jointEngs (jointEntry (pcOf c e) taken)) .c) e taken
    else match fifoPop c e [0, 1] with
      | .empty => wait s c e 3
      | .mismatch => raiseHere s c e 0x01 0
      | .got x c1 => act (countJoint c1 e) e (decide (entryKind x = 1))

/-- NOP (R245): none; in a handler and in a subroutine it is a no-operation of one stream. -/
def execNop (n : BitVec 1) (g : BitVec 4) (s : State) : Out :=
  onStream s fun c e =>
    if c.trap.inHandler ∨ (e = .c ∧ c.cd ≠ 0) then done s c e 4
    else joint s (fun _ => none) (fun c => (guard c .c n g && false, c)) fun c e _ => done s c e 4

/-- A relative branch target, wrapping at 2^64 (R67): a target outside the text faults on fetch (R63). -/
def branchTarget (pc : Nat) (o : BitVec 17) : Nat := (BitVec.ofNat 64 pc + 4#64 * o.signExtend 64).toNat

/-- Retires a branch. -/
def doneBranch (s : State) (c : Crew) (e : Eng) (taken : Bool) (o : BitVec 17) : Out :=
  .next (putCrew s s.cur.core s.cur.slot (goto c e 4 (if taken then branchTarget (pcOf c e) o else pcOf c e + 4)))

/-- BR (R245). -/
def execBr (n : BitVec 1) (g : BitVec 4) (o : BitVec 17) (s : State) : Out :=
  joint s (fun _ => none) (fun c => (guard c .c n g, c)) fun c e taken => doneBranch s c e taken o

/-- LOOP (R245): C lowers s30 when the guard is true. -/
def execLoop (n : BitVec 1) (g : BitVec 4) (o : BitVec 17) (s : State) : Out :=
  joint s (fun _ => none)
    (fun c =>
      if guard c .c n g then
        let x := sRead c .c 30 - 1
        (decide (x ≠ 0), sWrite c .c 30 x)
      else (false, c))
    fun c e taken => doneBranch s c e taken o

/-! ### Meeting points -/

/-- Every active stream satisfies a test on its status. -/
def allStatus (c : Crew) (p : StreamStatus → Bool) : Bool := allEngs.all fun e => !active c e || p (strOf c e).status

/-- Every active stream passes the instruction at which it met the others. -/
def passAll (c : Crew) : Crew :=
  allEngs.foldl (fun c e =>
    if active c e then retire (setStr c e { strOf c e with status := .running }) e 4 else c) c

/-- The first faulted engine operation of a crew, in issue order. -/
def faultedOp (c : Crew) : Option EngOp := c.ops.find? fun o => decide (o.fault ≠ 0)

/-- The fault of an engine operation at its join (R150, R249): the issuing address, and the completion object's offset
in TINFO. -/
def opFault (o : EngOp) (e : Eng) (pc : Nat) : FaultInfo :=
  { cause := o.fault, eng := e, pc := pc, addr := o.faultOff,
    info := capCursor o.ccap, swc := 0, engop := true }

/-- Every engine operation of the crew has completed. -/
def opsComplete (c : Crew) : Bool := c.ops.all opDone

/-- The combiner's steps 1 to 3 of R249: flush, wait for the forked operations and join them, and increment DONE.
`wait` while something is unfinished; a fault of a joined operation ends the crew. -/
inductive Combined where
  | wait
  | ended (s : State)
  | passed (s : State)

def combine (s : State) (core slot : Nat) : Combined :=
  match crewAt s core slot with
  | none => .wait
  | some c =>
    match releaseReady s core slot c with
    | none => .wait
    | some s1 =>
      if !opsComplete c then .wait
      else match faultedOp c with
      | some o => .ended (endCrew s1 core slot c (opFault o .a o.pc) 0)
      | none =>
        let c1 := { c with ops := [], strA := { c.strA with d := [] } }
        .passed (crewIncrement (putCrew s1 core slot c1) c.launch false)

/-- Lets the streams of a crew pass the point at which all of them have met (R246, R247, R249, R274, R275); a crew that the
debugger has stopped stays (R256). -/
def meet (s : State) (core slot : Nat) : State :=
  match crewAt s core slot with
  | none => s
  | some c =>
    if debugStopped c then s
    else if allStatus c (fun x => decide (x = .arrived)) then
      match combine s core slot with
      | .wait => s
      | .ended s1 => s1
      | .passed s1 => retireCrew s1 core slot
    else match c.strC.status with
    | .joint kind arg =>
      if allStatus c (fun x => match x with | .joint k _ => decide (k = kind) | _ => false) then
        match kind with
        | 0 => putCrew s core slot (passAll c)
        | 1 => putCrew s core slot (passAll (if isDet c then { c with phase := some arg } else c))
        | _ =>
          match combine s core slot with
          | .wait => s
          | .ended s1 => s1
          | .passed s1 =>
            (match crewAt s1 core slot with
             | none => s1
             | some c1 => putCrew s1 core slot (passAll c1))
      else s
    | .yielded _ =>
      if allStatus c (fun x => match x with | .yielded _ => true | _ => false) then
        { s with agenda := s.agenda ++ [.event .yieldSave { core := core, slot := slot }] }
      else s
    | _ => s

/-- The current stream stops at a meeting point (wait class 0xB); arriving retires nothing, so the stall counter runs on
(R268). -/
def stopAt (s : State) (c : Crew) (e : Eng) (st : StreamStatus) : Out :=
  let c1 := setWait (setStr c e { strOf c e with status := st }) e 0xB
  .next (meet (putCrew s s.cur.core s.cur.slot c1) s.cur.core s.cur.slot)

/-- CBAR (R246). -/
def execCbar (n : BitVec 1) (g : BitVec 4) (s : State) : Out :=
  joint s (fun _ => none) (fun c => (guard c .c n g, c)) fun c e taken =>
    if taken then stopAt s c e (.joint 0 0) else done s c e 4

/-- Rows that a range of a phase entry and a range of another share. -/
def rangesMeet (a b : Nat) : Bool :=
  let n := a / 2 ^ 15 % 2 ^ 15
  let m := b / 2 ^ 15 % 2 ^ 15
  let fa := a % 2 ^ 14
  let fb := b % 2 ^ 14
  decide (a / 2 ^ 14 % 2 = b / 2 ^ 14 % 2) && decide (0 < n) && decide (0 < m) && decide (fa < fb + m) && decide (fb < fa + n)

/-- Whether one engine's write set overlaps another engine's read or write set (R247). -/
def phaseOverlap (x : Row) : Bool :=
  let rs (e : Eng) (w : Bool) : List Nat :=
    let b := (phaseBase e + (if w then 8 else 0)) / 4
    [rowElem x 32 b, rowElem x 32 (b + 1)]
  let es : List Eng := [.a, .m, .s]
  es.any fun e => es.any fun o =>
    decide (e ≠ o) && ((rs e true).any fun a => (rs o true ++ rs o false).any fun b => rangesMeet a b)

/-- PHASE (R247). -/
def execPhase (n : BitVec 1) (g : BitVec 4) (p : BitVec 12) (s : State) : Out :=
  joint s
    (fun c =>
      if guard c .c n g then
        match launchById s c.launch with
        | none => some (0x01, 0)
        | some l =>
          if l.phases.length ≤ p.toNat then some (0x01, 0)
          else if isDet c && phaseOverlap (l.phases.getD p.toNat 0) then some (0x0F, 0)
          else none
      else none)
    (fun c => (guard c .c n g, c))
    fun c e taken => if taken then stopAt s c e (.joint 1 p.toNat) else done s c e 4

/-- YIELD (R248): taken when the guard is true and pre-emption is requested. -/
def execYield (n : BitVec 1) (g : BitVec 4) (l : BitVec 12) (s : State) : Out :=
  joint s
    (fun c =>
      if guard c .c n g then
        match launchById s c.launch with
        | none => some (0x01, 0)
        | some x => if x.yields.length ≤ l.toNat then some (0x01, 0) else none
      else none)
    (fun c => (guard c .c n g && c.ctl.preq, c))
    fun c e taken => if taken then stopAt s c e (.yielded l.toNat) else done s c e 4

/-- NOTIFY (R249, R274): the stream arrives; when all have, the combiner ends the crew. -/
def execNotify (n : BitVec 1) (g : BitVec 4) (s : State) : Out :=
  joint s (fun _ => none) (fun c => (guard c .c n g, c)) fun c e taken =>
    if taken then stopAt s c e .arrived else done s c e 4

/-- NOTIFY.cont (R249, R275). -/
def execNotifyCont (n : BitVec 1) (g : BitVec 4) (s : State) : Out :=
  joint s (fun _ => none) (fun c => (guard c .c n g, c)) fun c e taken =>
    if taken then stopAt s c e (.joint 2 0) else done s c e 4

/-! ### SETN (R115, R118, R262, R263) -/

/-- SETN in the current stream: C appends a count entry, V, M and S pop it, A skips it. A handler's C, which executes C words
(R241), appends its entry as R262 words it, with the handler's PC (log entry 88). -/
def setnCore (n : BitVec 1) (g : BitVec 4) (k : BitVec 3) (val : Crew → BitVec 16) (s : State) : Out :=
  onStream s fun c e =>
    match e with
    | .c =>
      if c.cd ≠ 0 then raiseHere s c e 0x01 0
      else if fifoFull c countEngs then wait s c e 4
      else done s (fifoPush c countEngs (countEntry (pcOf c e) (!guard c .c n g) k.toNat (val c))) e 4
    | .a => done s c e 4
    | _ =>
      match fifoPop c e [2] with
      | .empty => wait s c e 3
      | .mismatch => raiseHere s c e 0x01 0
      | .got x c1 =>
        done s (if x.getLsbD 19 then c1 else nWrite c1 e (fld x 16 3) (BitVec.ofNat 16 x.toNat)) e 4

/-- SETN from a register. -/
def execSetnReg (n : BitVec 1) (g : BitVec 4) (k : BitVec 3) (a : BitVec 5) (s : State) : Out :=
  setnCore n g k (fun c => BitVec.ofNat 16 (sRead c .c a).toNat) s

/-- SETN of an immediate. -/
def execSetnImm (n : BitVec 1) (g : BitVec 4) (k : BitVec 3) (i : BitVec 12) (s : State) : Out :=
  setnCore n g k (fun _ => i.zeroExtend 16) s

/-! ### Faults of fetching and decoding (R61, R63, R82, R90) -/

/-- A word that no instruction assigns: illegal instruction in the stream that meets it. -/
def execIllegalInstruction (s : State) : Out := onStream s fun c e => raiseHere s c e 0x01 0

/-- A fetch beyond the end of the text object. -/
def execFetchCapabilityBounds (s : State) : Out := onStream s fun c e => raiseHere s c e 0x03 (pcOf c e)

end Sys2Proof.Machine
end

