-- ==== Sys2Proof/Machine/Place.lean ====
section
/-!
DEFINITION. Machine/Place.lean: creating a crew on a slot: registers at their created values (R77), initial values
(R307), carving and the zeroing of regions that another tenant held (R15, R317).
-/
namespace Sys2Proof.Machine

/-! ### Regions and tags (R317) -/

/-- The part of a region outside `[b, b + n)`. -/
def trimRegion (b n : Nat) (r : Region) : List Region :=
  (if r.base < b then [{ r with count := min r.count (b - r.base) }] else []) ++
  (if b + n < r.base + r.count then
     [{ r with base := max r.base (b + n), count := r.base + r.count - max r.base (b + n) }] else [])

/-- Whether a tagged region meets the units `[b, b + n)` of a kind on a core. -/
def regionMeets (core kind b n : Nat) (r : Region) : Bool :=
  decide (r.core = core) && decide (r.kind = kind) && decide (0 < n) && decide (r.base < b + n) &&
    decide (b < r.base + r.count)

/-- Zeroes the units of a region that lie in `[b, b + n)`: scratchpad rows, and what stands in the tiles, state tiles and
vector registers, with its poison. Outcome FIFOs, A-bypass and remainder stack are created empty (R185, R220, R261). -/
def zeroUnits (s : State) (core kind b n : Nat) (r : Region) : State :=
  let lo := max b r.base
  let hi := min (b + n) (r.base + r.count)
  let clean (k u : Nat) : List (Nat × Nat) := s.left.poison.filter fun p =>
    !(decide (p.1 = 8 * core + k) && decide (u * lo ≤ p.2) && decide (p.2 < u * hi))
  if hi ≤ lo then s
  else if kind ≤ 1 then zeroKeys s (spadKey core kind lo 0) (64 * (hi - lo))
  else match kind with
  | 2 => { s with left := { s.left with acc := spClear s.left.acc (core * 2 ^ 18 + 16384 * lo) (16384 * (hi - lo)), poison := clean 1 128 } }
  | 3 => { s with left := { s.left with st := spClear s.left.st (core * 2 ^ 17 + 8192 * lo) (8192 * (hi - lo)), poison := clean 2 512 } }
  | 4 => { s with left := { s.left with v := spClear s.left.v (core * 2 ^ 10 + lo) (hi - lo), poison := clean 0 1 } }
  | _ => s

/-- Carves units for a tenant: every unit that another tenant last held is zeroed, and the tags change. The second
component says whether anything had to be zeroed. -/
def carveRegion (core kind b n tenant : Nat) (x : State × Bool) : State × Bool :=
  let (s, held) := x
  if n = 0 then x
  else
    let foreign := s.tags.filter fun r => regionMeets core kind b n r && decide (r.tenant ≠ tenant)
    let s1 := foreign.foldl (fun s r => zeroUnits s core kind b n r) s
    let kept := (s1.tags.map fun r => if regionMeets core kind b n r then trimRegion b n r else [r]).flatten
    ({ s1 with tags := { core := core, kind := kind, base := b, count := n, tenant := tenant } :: kept },
     held || !foreign.isEmpty)

/-- Carves a whole footprint on a slot (R15, R317). -/
def carve (s : State) (core slot : Nat) (c : Crew) : State × Bool :=
  carveRegion core 7 slot 1 c.tenant <| carveRegion core 6 slot 1 c.tenant <| carveRegion core 5 slot 1 c.tenant <|
  carveRegion core 4 (runBase slot 768 c.nv) c.nv c.tenant <| carveRegion core 3 (runBase slot 16 c.nh) c.nh c.tenant <|
  carveRegion core 2 (runBase slot 16 c.nt) c.nt c.tenant <| carveRegion core 1 c.baseB c.rb c.tenant <|
  carveRegion core 0 c.baseA c.ra c.tenant (s, false)

/-! ### A fresh crew (R77, R117, R155, R238, R259, R261) -/

/-- SLIPW of a SLIPU field (R116, R303). -/
def slipBytes (u : Nat) : Nat := if u = 0 then 65536 else 16 * u

/-- One initial-value entry (R307): SEL and VALUE. -/
def applyInit (c : Crew) (x : Nat × Cap) : Crew :=
  let r := BitVec.ofNat 5 x.1
  match x.1 / 2 ^ 10 % 4 with
  | 0 => sWrite c .c r (x.2.truncate 64)
  | 1 => sWrite c .a r (x.2.truncate 64)
  | 2 => kWrite c r x.2
  | _ => c

def freshVctx : VCtx := { vrep := 0, guard := none, d1val := none, d2val := none }
def freshMctx : MCtx :=
  { fw := none, mprog := 0, gather := [], scatter := [], group := [], flags := 0, bypValid := false, bypFmt := 0,
    byp := [] }
def freshSctx : SCtx := { active := false, sprog := 0, flags := 0, rowX := none }
def freshTrap : TrapCtx :=
  { inHandler := false, tcause := 0, tpc := 0, taddr := 0, tinfo := 0, hcs := [], has := [], hk := [], hcp := 0, hap := 0,
    hpcC := 0, hpcA := 0, hwaitC := 0, hwaitA := 0, htext := 0, hstC := .running, hstA := .running }
def freshCtl : CtlCtx :=
  { preq := false, preqFor := 0, deadline := 0, noDeadline := false, pbres := 0, dbgctl := 0, dbgstat := 0, stepping := 0, deferSeen := false,
    stall := 0, scrubHold := false }

/-- The crew of a rank of a launch, at its creation on a slot. -/
def freshCrew (l : Launch) (rank slot : Nat) : Crew :=
  let c : Crew :=
    { launch := l.id, rank := rank, tenant := l.tenant, flags := l.flags, text := l.text, ra := l.ra, rb := l.rb,
      nt := l.nt, nh := l.nh, nv := l.nv, baseA := runBase slot 16384 l.ra, baseB := runBase slot 16384 l.rb, eng := l.eng,
      strC := Stream.fresh, strA := Stream.fresh, strV := Stream.fresh, strM := Stream.fresh, strS := Stream.fresh,
      cs := [], as := [], cp := 0, ap := 0, k := [], mask := [], v := [], acc := [], st := [], o := [],
      queues := List.replicate 14 [], fstat := 0, slipw := l.slipw, demote := false, cd := 0, ors := 0, issueNo := 0,
      exchNo := 0, born := 0, phase := if l.flags.getLsbD 1 ∧ l.phases ≠ [] then some 0 else none, vctx := freshVctx,
      mctx := freshMctx, sctx := freshSctx, trap := freshTrap, ctl := freshCtl,
      rem := { rdepth := 0, rspill := 0, row := [], tag := [] }, ops := [], errs := [] }
  l.inits.foldl applyInit c

/-- The creation of a crew on a slot: its tiles, state tiles and vector registers, whose contents the carve has kept where its
own tenant held them (R15), are created zero (R77, R307). DEDUCED (log 8): the carve keeps, the creation then zeroes; only the
scratchpad rows, which are no register space of R77, show a new crew what an earlier one left. -/
def createZero (s : State) (core slot : Nat) (c : Crew) : State :=
  let mine (p : Nat × Nat) : Bool := [0, 1, 2].any fun k =>
    decide (p.1 = 8 * core + k) && decide ((unitRun slot c k).1 ≤ p.2) && decide (p.2 < (unitRun slot c k).1 + (unitRun slot c k).2)
  { s with left :=
    { acc := spClear s.left.acc (core * 2 ^ 18 + 16384 * runBase slot 16 c.nt) (16384 * c.nt)
      st := spClear s.left.st (core * 2 ^ 17 + 8192 * runBase slot 16 c.nh) (8192 * c.nh)
      v := spClear s.left.v (core * 2 ^ 10 + runBase slot 768 c.nv) c.nv
      poison := s.left.poison.filter fun p => !mine p } }

/-- Places a fresh crew on a slot (R15, R77, R307, R317); it is held while regions of another tenant are zeroed. -/
def placeCrew (s : State) (l : Launch) (rank core slot : Nat) : State :=
  let c := freshCrew l rank slot
  let (s1, held) := carve s core slot c
  let s2 := createZero { s1 with sched := { s1.sched with nextOrder := s1.sched.nextOrder + 1 } } core slot c
  putCrew s2 core slot { c with ctl := { c.ctl with scrubHold := held }, born := s1.sched.nextOrder }

/-! ### One instruction placed from outside, for the host's questions -/

/-- A launch of tenant 0 with every stream, the whole of a core's stores and system privilege, whose text is object 1. -/
def textLaunch (id : Nat) : Launch :=
  { id := id, fn := 0, tenant := 0, queue := 0, cls := 0, flags := 1, eng := 0x1F, levels := [⟨1, 0, 0⟩], migl := 0,
    scanl := none, text := 1, slipw := 4096, stallLimit := 2 ^ 24, doneObj := 0, target := 1, ra := 16384, rb := 16384,
    nt := 16, nh := 16, nv := 768, save := 0, rem := 0, cto := 1024 * 1024, pidx := 0, pcnt := 1, deps := [], phases := [],
    yields := [], inits := [], digl := 0, digList := [], doneGen := 0, tabs := [], stages := [], nextRank := 1, placed := [], retired := 0, completed := false,
    held := 0, heldErr := false, inDig := [], outDig := [], run := 0, seqs := [], progress := [] }

/-- Text object 1 of tenant 0: its table entry at 0x20, its extent list at 0x40 and its frame at 0x4000, where the words
stand; both frames owned by tenant 0 (R328, R404). -/
def textMemory (m : Memory) (w : Nat) : Memory :=
  memWriteN (memWriteN (memWriteN (memWriteN (memWriteN m 0x20 (2 ^ 63 + 2 ^ 60 + 5 * 2 ^ 50 + 64) 8) 0x28 1 8) 0x30
    (2 ^ 56 + 0x40) 8) 0x40 (2 ^ 48 + 0x4000) 8) 0x4000 w 24

/-- The engine that executes a word, by its tag. -/
def engOfTag (tag : Nat) : Eng :=
  match tag with
  | 1 => .a
  | 2 => .v
  | 3 => .m
  | 4 => .s
  | _ => .c

/-- The state with the words of one instruction as text, a crew to run them, and that stream next. -/
def placeText (s : State) (w : Nat) : State :=
  let l := textLaunch s.sched.nextLaunch
  let s1 := { s with
    mem := textMemory s.mem w
    sched := { s.sched with launches := s.sched.launches ++ [l], nextLaunch := s.sched.nextLaunch + 1 }
    xlat := { s.xlat with tlb := [], frames := (List.range 8).foldl (fun f b => spSet f b 1) s.xlat.frames }
    agenda := [.stream 0 0 (engOfTag (w / 2 ^ 29 % 8))] }
  placeCrew (regSet s1 0 rOTBASE (BitVec.ofNat 64 (2 * 2 ^ 40))) l 0 0 0

end Sys2Proof.Machine
end

