-- ==== Sys2Proof/Machine/Operands.lean ====
section
/-!
DEFINITION. Machine/Operands.lean: the operand forms that scalar instructions share: the executing engine of the shared
block, guards, immediates, conditions (R65 to R68, R107, R108).
-/
namespace Sys2Proof.Machine

/-- The engine of a shared-block word: C or A by its tag (R60). -/
def engOf (t : BitVec 1) : Eng := if t = 0 then .c else .a

/-- A guarded scalar instruction of `e`: a false guard only retires (R66, R101). -/
def guarded (s : State) (e : Eng) (n : BitVec 1) (g : BitVec 4) (act : Crew → Out) : Out :=
  onCrew s e fun c => if guard c e n g then act c else done s c e 4

/-- A privileged instruction of C: illegal without system privilege when it issues, whatever the guard (R89, R237). -/
def privileged (s : State) (n : BitVec 1) (g : BitVec 4) (act : Crew → Out) : Out :=
  onCrew s .c fun c =>
    if !isPriv c then raiseHere s c .c 0x01 0
    else if guard c .c n g then act c else done s c .c 4

/-- Writes sd and retires. -/
def writeDone (s : State) (c : Crew) (e : Eng) (d : BitVec 5) (x : Word) : Out := done s (sWrite c e d x) e 4

/-- A register-register form: sd := f sa sb. -/
def alu2 (t n : BitVec 1) (g : BitVec 4) (d a b : BitVec 5) (f : Word → Word → Word) (s : State) : Out :=
  guarded s (engOf t) n g fun c => writeDone s c (engOf t) d (f (sRead c (engOf t) a) (sRead c (engOf t) b))

/-- A single-source form: sd := f sa. -/
def alu1 (t n : BitVec 1) (g : BitVec 4) (d a : BitVec 5) (f : Word → Word) (s : State) : Out :=
  guarded s (engOf t) n g fun c => writeDone s c (engOf t) d (f (sRead c (engOf t) a))

/-- The signed imm7 of the immediate forms, as a 64-bit word (R107). -/
def imm7 (i : BitVec 7) : Word := i.signExtend 64

/-- Conditions of the compare class (R68): eq, ne, lt, ge (signed), ltz, gez (unsigned), any, none. -/
def condHolds (c : BitVec 3) (a b : Word) : Bool :=
  match c.toNat with
  | 0 => decide (a = b)
  | 1 => decide (a ≠ b)
  | 2 => BitVec.slt a b
  | 3 => !BitVec.slt a b
  | 4 => BitVec.ult a b
  | 5 => !BitVec.ult a b
  | 6 => decide (a &&& b ≠ 0)
  | _ => decide (a &&& b = 0)

/-- Number of one bits among the low `n`. -/
def popCount (x : Nat) : Nat → Nat
  | 0 => 0
  | n + 1 => popCount x n + (if x.testBit n then 1 else 0)

/-- Leading zero bits of a 64-bit value. -/
def leadingZeros (x : Nat) : Nat := if x = 0 then 64 else 63 - Nat.log2 x

/-- Shift count b<5:0>. -/
def shiftCount (b : Word) : Nat := b.toNat % 64

end Sys2Proof.Machine
end

