-- ==== Sys2Proof/Machine/Memory.lean ====
section
/-!
DEFINITION. Machine/Memory.lean: loads, stores, queue transfers, atomics, reductions, signals, waits, fences and cache
keeping of the A engine (R124 to R135, R138 to R144, R151, R152).
-/
namespace Sys2Proof.Machine

/-! ### Forming an access (R127) -/

/-- The unit of `size` bytes (a power of two) at or below an offset. -/
def unitOf (size x : Nat) : Nat := x / size * size

/-- u of [ka+sb]. -/
def memUnit (c : Crew) (k b : BitVec 5) (size : Nat) : Nat :=
  unitOf size (capCursor (kRead c k) + (sRead c .a b).toNat)

/-- Access size of a 2-bit sub-op. -/
def sizeOf2 (z : BitVec 2) : Nat := 2 ^ z.toNat

/-! ### Loads (R130, R132) -/

/-- What an order form does before it acts: 0x1A where a demotion traps, else the crew with DEMOTE set where one is
made (R132, R407). `orders` says that the access orders at its reach. -/
def demoted (s : State) (c : Crew) (sys : Bool) : Option Crew :=
  match demotion s c sys with
  | 2 => none
  | 1 => some { c with demote := true }
  | _ => some c

/-- An access is performed after what R286 keeps before it: one that orders is a release if it writes (R144); if it loads, it
follows every store not yet acknowledged and every strong reduction that is held for its key. One that does not order, but is
not on a loose page, follows the earlier strong loads alone. None while the stream must wait. -/
def orderAt (s : State) (c : Crew) (wr orders loose : Bool) : Option State :=
  if !orders then (if !loose && strongPending s s.cur.core s.cur.slot then none else some s)
  else if wr then releaseReady s s.cur.core s.cur.slot c
  else if unacked s s.cur.core s.cur.slot || keyedStrong s c then none else some s

/-- A strong access of a form that has no acquire or release of its own orders at its reach (R283, R407): 0x1A where that
is trapped, else `go` with the crew that is to retire. While its order keeps it back it waits in class `cls` (R267 names one for
loads and waits; for other forms the class is the model's, log 65). -/
def strongAt (s : State) (c : Crew) (a : Acc) (wr : Bool) (u cls : Nat) (go : State → Crew → Out) : Out :=
  match demoted s c (reachesSystem a && decide (a.ord = 0)) with
  | none => raiseHere s c .a 0x1A u
  | some c1 =>
    match orderAt s c wr (a.ord = 0) a.loose with
    | none => wait s c .a cls
    | some s1 => go s1 c1

/-- Extends a loaded unit to 64 bits. -/
def extendTo64 (signed : Bool) (size x : Nat) : Word :=
  if signed then BitVec.ofInt 64 (sextN x (8 * size)) else BitVec.ofNat 64 (x % 2 ^ (8 * size))

/-- The current stream's own reductions to `n` bytes at a key are performed first (R129, R139); none while one is held
for its key, or must follow one that is. -/
def ownFirst (s : State) (c : Crew) (key n : Nat) : Option State :=
  let s1 := flushTouch s s.cur.core s.cur.slot key n
  let s2 := if keyedTouch s1 c key n then keyedSettle s1 else s1
  if keyedTouch s2 c key n || restTouch s2 s.cur.core c key n then none else some s2

/-- As `ownFirst`, for a reduction that is to be held for its key itself: of its own keyed reductions it may follow any, since
the key keeps their order (R57), but none that rests may follow it. -/
def restFirst (s : State) (c : Crew) (key n : Nat) : Option State :=
  let s1 := flushTouch s s.cur.core s.cur.slot key n
  if restTouch s1 s.cur.core c key n then none else some s1

/-- A load of `size` bytes at a checked place, handed to `go`: waits for remote data (in class `cls`) or held reductions,
raises 0x18 for poison and 0x11 (or 0x05) for a remote failure. `op` is the opcode that a request carries. -/
def loadAt (s : State) (c : Crew) (a : Acc) (u size gen op cls : Nat) (go : State → Nat → Out) : Out :=
  if a.remote then
    remoteReturning s c a cls 0 1 size op gen 0 0 fun s1 r => go s1 (r.toNat % 2 ^ (8 * size))
  else match ownFirst s c a.key size with
  | none => wait s c .a cls
  | some s1 => if isPoisoned s1 a.key then raiseHere s1 c .a 0x18 u else go s1 (readUnit s1 a.key size)

/-- LD and LD.acq. On a loose page the acquire form is plain; a strong load orders at its reach. -/
def load (signed acq : Bool) (n : BitVec 1) (g : BitVec 4) (d k b : BitVec 5) (z : BitVec 2) (s : State) : Out :=
  guarded s .a n g fun c =>
    let size := sizeOf2 z
    let cap := kRead c k
    let u := memUnit c k b size
    aAccess s c cap kLoad true false u size fun s1 a =>
      let orders := (acq && !a.loose) || decide (a.ord = 0)
      match demoted s1 c (reachesSystem a && orders) with
      | none => raiseHere s1 c .a 0x1A u
      | some c1 =>
        match orderAt s1 c false orders a.loose with
        | none => wait s1 c .a 6
        | some s2 => loadAt s2 c a u size (capGen cap) 0x48 6 fun s3 x => writeDone s3 c1 .a d (extendTo64 signed size x)

def execLdZ (n : BitVec 1) (g : BitVec 4) (d k b : BitVec 5) (z : BitVec 2) (s : State) : Out := load false false n g d k b z s
def execLdS (n : BitVec 1) (g : BitVec 4) (d k b : BitVec 5) (z : BitVec 2) (s : State) : Out := load true false n g d k b z s
def execLdAcqZ (n : BitVec 1) (g : BitVec 4) (d k b : BitVec 5) (z : BitVec 2) (s : State) : Out :=
  load false true n g d k b z s
def execLdAcqS (n : BitVec 1) (g : BitVec 4) (d k b : BitVec 5) (z : BitVec 2) (s : State) : Out :=
  load true true n g d k b z s

/-! ### Stores (R131) -/

/-- A store of `size` bytes at a checked place, then `go`. -/
def storeAt (s : State) (c : Crew) (a : Acc) (size gen op x : Nat) (sig : Bool) (go : State → Out) : Out :=
  if a.tgt = 10 then refusedPost s c a (if sig then 2 else 3) go
  else if a.remote then remotePosted s c a (if sig then 2 else 3) 2 size op gen x go
  else match ownFirst s c a.key size with
  | none => wait s c .a 6
  | some s1 =>
    let s2 := doneReachedRow (writeUnit s1 a.key size x) a.key size
    go (if sig then wakeRow s2 (a.key / 64) else s2)

/-- ST and its release and signal forms. A release, and a store to a strong page, flushes the combining buffer and
waits for what it covers. -/
def store (rel sig : Bool) (n : BitVec 1) (g : BitVec 4) (r k b : BitVec 5) (z : BitVec 2) (s : State) : Out :=
  guarded s .a n g fun c =>
    let size := sizeOf2 z
    let cap := kRead c k
    let u := memUnit c k b size
    aAccess s c cap (if sig then kStoreSig else kStore) false true u size fun s1 a =>
      let orders := (rel && !a.loose) || decide (a.ord = 0)
      match demoted s1 c (reachesSystem a && orders) with
      | none => raiseHere s1 c .a 0x1A u
      | some c1 =>
        match orderAt s1 c true orders a.loose with
        | none => wait s1 c .a 6
        | some s2 =>
          storeAt s2 c a size (capGen cap) 0x4C ((sRead c .a r).toNat % 2 ^ (8 * size)) sig fun s3 => done s3 c1 .a 4

def execSt (n : BitVec 1) (g : BitVec 4) (c k b : BitVec 5) (z : BitVec 2) (s : State) : Out := store false false n g c k b z s
def execStRel (n : BitVec 1) (g : BitVec 4) (c k b : BitVec 5) (z : BitVec 2) (s : State) : Out :=
  store true false n g c k b z s
def execStSig (n : BitVec 1) (g : BitVec 4) (c k b : BitVec 5) (z : BitVec 2) (s : State) : Out :=
  store false true n g c k b z s
def execStRelSig (n : BitVec 1) (g : BitVec 4) (c k b : BitVec 5) (z : BitVec 2) (s : State) : Out :=
  store true true n g c k b z s

/-! ### Capabilities in memory (R124, R125) -/

/-- Words 0 and 1 of a mirror entry of a peer (R336); none where there is none. -/
def mirrorEntry (s : State) (tenant peer n : Nat) : Except XFail (Option (Nat × Nat)) := do
  let (w0, w1) ← peerEntry s tenant peer
  if bitsOf w0 63 1 = 0 ∨ bitsOf w1 48 16 ≤ n then return none
  else
    let a := bitsOf w1 4 36 * 16 + 16 * n
    let x ← rdTable s tenant a
    let y ← rdTable s tenant (a + 8)
    return some (x, y)

/-- Whether a table entry backs a capability: valid, current, with its limit and rights within the entry's. -/
def entryBacks (e : ObjEnt) (c : Cap) : Bool :=
  e.valid && decide (e.gen = capGen c) && decide (capLimit c ≤ e.size) && hasRights e.rights (capRights c)

/-- What a lookup in a table gives for a capability: whether the entry backs it; the page fault where the table's own frame
is absent at the second stage or still to be pulled (R339, R345, R413); no entry for any other failure. -/
def tableBacks (c : Cap) (r : Except XFail ObjEnt) : Except XFail Bool :=
  match r with
  | .ok e => .ok (entryBacks e c)
  | .error f => if f.cause = 0x06 then .error f else .ok false

/-- Validation of a capability (R124) against the tables, for a footprint in bytes, a die and a tenant. -/
def capBacked (s : State) (footprint die tenant : Nat) (c : Cap) : Except XFail Bool :=
  if capLimit c < capCursor c then .ok false
  else match capSpace c with
  | 1 => .ok (decide (capLimit c ≤ footprint))
  | 3 => .ok (decide (capLimit c ≤ commonsBytes s die))
  | 4 => tableBacks c (lookupObj s tenant (capObj c))
  | 5 => tableBacks c (match mirrorEntry s tenant (capObj c / 2 ^ 16) (capObj c % 2 ^ 16) with
         | .ok (some (x, y)) => .ok ⟨x, y, 0, 0⟩
         | .ok none => xfail 0x05 1 0 false
         | .error f => .error f)
  | 6 => tableBacks c (lookupHost s tenant (capObj c))
  | _ => .ok false

/-- A capability that validates. -/
def capValid (s : State) (footprint die tenant : Nat) (c : Cap) : Bool :=
  match capBacked s footprint die tenant c with
  | .ok b => b
  | .error _ => false

/-- KLD: the loaded value when it validates, else null; a table whose frame is absent holds it. -/
def execKld (n : BitVec 1) (g : BitVec 4) (d a b : BitVec 5) (s : State) : Out :=
  guarded s .a n g fun c =>
    let cap := kRead c a
    let u := memUnit c a b 16
    aAccess s c cap kKld true false u 16 fun s1 p => strongAt s1 c p false u 6 fun s1 c1 =>
      loadAt s1 c p u 16 (capGen cap) 0x45 6 fun s2 x =>
        let v : Cap := BitVec.ofNat 128 x
        match capBacked s2 (64 * (c.ra + c.rb)) (dieOf s2.cur.core) c.tenant v with
        | .ok ok => done s2 (kWrite c1 d (if ok then v else 0)) .a 4
        | .error f => failAccess s2 c .a v kKld.form u f

/-- KST. -/
def execKst (n : BitVec 1) (g : BitVec 4) (r a b : BitVec 5) (s : State) : Out :=
  guarded s .a n g fun c =>
    let cap := kRead c a
    let u := memUnit c a b 16
    aAccess s c cap kKst false true u 16 fun s1 p => strongAt s1 c p true u 6 fun s1 c1 =>
      storeAt s1 c p 16 (capGen cap) 0x46 (kRead c r).toNat false fun s2 => done s2 c1 .a 4

/-! ### Queue transfers (R133 to R135) -/

/-- LDQ: a row, or for q2 a unit of the sub-op's size. A remote row reserves its entry, which fills when data returns. -/
def execLdq (n : BitVec 1) (g q : BitVec 4) (k b : BitVec 5) (z : BitVec 2) (s : State) : Out :=
  guarded s .a n g fun c =>
    let size := if q.toNat = 2 then sizeOf2 z else 64
    let cap := kRead c k
    let u := memUnit c k b size
    if !peerActive c .a q.toNat then raiseHere s c .a 0x0B q.toNat
    else if !qRoom c q.toNat then wait s c .a 2
    else aAccess s c cap kLdq true false u size fun s1 p => strongAt s1 c p false u 6 fun s1 c1 =>
      let entry (x : Nat) (fail : Nat) (pend : Bool) : QEntry :=
        { data := BitVec.ofNat 512 x, fail := fail, pending := pend, pc := pcOf c .a, addr := u }
      let push (s2 : State) (e : QEntry) : Out :=
        done s2 (setQueue c1 q.toNat (queueOf c1 q.toNat ++ [e])) .a 4
      if p.remote then
        (if rowBusy s1 s1.cur.core s1.cur.slot p ∨ 256 ≤ outstanding s1 s1.cur.core then wait s1 c .a 6
         else
           let m := mkMsg s1 s1.cur.core s1.cur.slot c p 0 3 size 0x26 (capGen cap) 0 0 (pcOf c .a) 2 q.toNat
           push (sendMsg s1 m) (entry m.id 0 true))
      else match ownFirst s1 c p.key size with
      | none => wait s1 c .a 6
      | some s2 =>
        if isPoisoned s2 p.key then push s2 (entry 0 0x18 false) else push s2 (entry (readUnit s2 p.key size) 0 false)

/-- STQ: the pop happens only after the checks. -/
def execStq (n : BitVec 1) (g q : BitVec 4) (k b : BitVec 5) (s : State) : Out :=
  guarded s .a n g fun c =>
    let cap := kRead c k
    let u := memUnit c k b 64
    if !peerActive c .a q.toNat then raiseHere s c .a 0x0B q.toNat
    else aAccess s c cap kStq false true u 64 fun s1 p => strongAt s1 c p true u 6 fun s1 c0 =>
      match qPop c0 q.toNat with
      | .empty => wait s1 c .a 1
      | .failed cause pc addr => raiseMarked s1 c cause pc addr
      | .data x c1 =>
        storeAt s1 c p 64 (capGen cap) 0x28 x.toNat false fun s2 => done s2 c1 .a 4
where
  /-- A failure-marked entry of q11 or q12 cannot arise; it is raised as at any pop (R134). -/
  raiseMarked (s : State) (c : Crew) (cause pc addr : Nat) : Out :=
    .next (raise s s.cur.core s.cur.slot c { faultInfo c .a cause addr with pc := pc })

/-! ### Atomics and reductions (R138 to R141) -/

/-- The unit of [ka] for an atomic of a 1-bit size. -/
def atomSize (z : BitVec 1) : Nat := if z = 0 then 4 else 8

/-- ATOM. -/
def execAtom (n : BitVec 1) (g : BitVec 4) (d k o : BitVec 5) (z sub : BitVec 1) (s : State) : Out :=
  guarded s .a n g fun c =>
    let size := atomSize z
    let cap := kRead c k
    let u := unitOf size (capCursor cap)
    let sig := decide (sub = 1)
    let x := (sRead c .a d).toNat % 2 ^ (8 * size)
    let y := (sRead c .a (d + 1)).toNat % 2 ^ (8 * size)
    aAccess s c cap (kAtom sig) true true u size fun s1 a => strongAt s1 c a true u 6 fun s1 c1 =>
      let finish (s2 : State) (old : Nat) : Out := writeDone s2 c1 .a d (BitVec.ofNat 64 (old % 2 ^ (8 * size)))
      if a.remote then
        remoteReturning s1 c a 6 2 6 size (0x50 + 2 ^ 8 * o.toNat + (if sig then 2 ^ 16 else 0)) (capGen cap) x y
          fun s2 r => finish s2 r.toNat
      else if isPoisoned s1 a.key then raiseHere s1 c .a 0x18 u
      else if isKeyed c o.toNat a then
        -- the update is issued once, held for its key, and its old value collected (R57, R140)
        match s1.keyedDone.find? (fun x => decide (x.launch = c.launch) && decide (x.rank = c.rank)) with
        | some r =>
          finish { s1 with keyedDone := s1.keyedDone.filter fun x =>
            !(decide (x.launch = c.launch) && decide (x.rank = c.rank)) } r.old.toNat
        | none =>
          if s1.keyed.any fun x => x.atom && decide (x.launch = c.launch) && decide (x.rank = c.rank) then wait s1 c .a 6
          else match restFirst s1 c a.key size with
          | none => wait s1 c .a 6
          | some s0 =>
            let (s2, c2) := keyedIssue s0 s0.cur.core s0.cur.slot c a.key (BitVec.ofNat 32 x) true sig (decide (a.ord = 0))
            let s3 := keyedSettle s2
            match s3.keyedDone.find? (fun x => decide (x.launch = c.launch) && decide (x.rank = c.rank)) with
            | some r =>
              writeDone { s3 with keyedDone := s3.keyedDone.filter fun x =>
                !(decide (x.launch = c.launch) && decide (x.rank = c.rank)) } c2 .a d (BitVec.ofNat 64 r.old.toNat)
            | none => wait s3 c2 .a 6
      else match ownFirst s1 c a.key size with
      | none => wait s1 c .a 6
      | some s2 =>
        let old := readUnit s2 a.key size
        let s3 := doneReached (applyUpdate s2 a.key size o.toNat x y) a.key
        finish (if sig then wakeRow s3 (a.key / 64) else s3) old

/-- RED: rests in the combining buffer unless it carries the signal bit; a floating add in deterministic mode does not
rest (R56, R57), nor does one on a strong page (R286). DESIGN CHOICE (log 89): it returns nothing, and R139 gives no result for
poison, so a poisoned word is updated as any other: no 0x18 is raised, and the unit stays poisoned. -/
def execRed (n : BitVec 1) (g : BitVec 4) (r k o : BitVec 5) (z sub : BitVec 1) (s : State) : Out :=
  guarded s .a n g fun c =>
    let size := atomSize z
    let cap := kRead c k
    let u := unitOf size (capCursor cap)
    let sig := decide (sub = 1)
    let x := (sRead c .a r).toNat % 2 ^ (8 * size)
    aAccess s c cap (kRed sig) false true u size fun s1 a => strongAt s1 c a true u 6 fun s1 c1 =>
      if a.tgt = 10 then refusedPost s1 c a 2 fun s2 => done s2 c1 .a 4
      else if a.remote then
        remotePosted s1 c a 2 6 size (0x51 + 2 ^ 8 * o.toNat + (if sig then 2 ^ 16 else 0)) (capGen cap) x
          fun s2 => done s2 c1 .a 4
      else if isKeyed c o.toNat a then
        match restFirst s1 c a.key size with
        | none => wait s1 c .a 6
        | some s0 =>
          let (s2, c2) := keyedIssue s0 s0.cur.core s0.cur.slot c1 a.key (BitVec.ofNat 32 x) false sig (decide (a.ord = 0))
          done (keyedSettle s2) c2 .a 4
      else if sig || (isDet c && decide (o.toNat = 1)) || decide (a.ord = 0) then
        match ownFirst s1 c a.key size with
        | none => wait s1 c .a 6
        | some s2 =>
          let s3 := doneReached (applyUpdate s2 a.key size o.toNat x 0) a.key
          done (if sig then wakeRow s3 (a.key / 64) else s3) c1 .a 4
      else match restAdd s1 s1.cur.core c a.key size o.toNat (BitVec.ofNat 64 x) with
      | none => wait s1 c .a 6
      | some s2 => done s2 c1 .a 4

/-! ### Signals and waiting (R142, R143, R151) -/

/-- The unit whose monitor table serves a word (R142): a scratchpad bank, or the L2 slice that holds it: of the Commons
(R279), or the home slice of a line of device memory (R280). -/
def monitorUnit (s : State) (a : Acc) : Nat :=
  if a.isSpad then a.key / 2 ^ 20 % 2 ^ 12 * 16 + a.key / 64 % 16
  else if a.tgt = 9 ∨ a.tgt = 1 then
    let o := a.key - commonsKey 0 0
    2 ^ 20 + 128 * (o / 2 ^ 26) + commonsSlice s (o / 2 ^ 26) (o % 2 ^ 26)
  else
    let h := homeSlice s (a.key / 2 ^ 36) (a.key / 128)
    2 ^ 20 + 128 * h.1 + h.2

/-- The A stream goes to sleep on a row, or polls where the unit's 64-entry table is full. -/
def sleepOn (s : State) (c : Crew) (a : Acc) : Out :=
  let un := monitorUnit s a
  let full := decide (64 ≤ (s.monitors.filter fun m => decide (m.unit = un)).length)
  let c1 := setWait (setStatus c .a (if full then .polling else .sleeping)) .a 9
  let s1 : State := if full then s else
    { s with monitors := s.monitors ++ [{ unit := un, row := a.key / 64, core := s.cur.core, slot := s.cur.slot }] }
  .next (putCrew s1 s.cur.core s.cur.slot c1)

/-- Whether a wait ends at a word: WAITSIG's when it differs from `old`, CWAIT's when bits 62:0 reach those of `old`. -/
def waitReady (count : Bool) (size w old : Nat) : Bool :=
  if count then decide (old % 2 ^ 63 ≤ w % 2 ^ 63) else decide (w ≠ old % 2 ^ (8 * size))

/-- The A stream goes to sleep on a word of another unit, which has answered that it has registered it; the entry of another
device stands here as a marker. Where the entry has gone in the meantime, the wait goes round again. -/
def sleepFar (s : State) (c : Crew) (a : Acc) : Out :=
  let core := s.cur.core
  let slot := s.cur.slot
  let c1 := setWait (setStatus c .a .sleeping) .a 9
  if a.tgt = 4 then
    .next (putCrew { s with monitors := s.monitors ++ [{ unit := farUnit + a.peer % 2 ^ 16, row := farUnit, core := core, slot := slot }] }
      core slot c1)
  else if s.monitors.any fun m => decide (m.core = core) && decide (m.slot = slot) && m.dev.isNone then .next (putCrew s core slot c1)
  else wait s c .a 9

/-- A wait on a word: retires with the value once it is ready, else sleeps until a signalled write wakes it. The unit that
owns a remote word compares, and registers the waiter in its own monitor table (R142, R143): bits 65:64 of its answer are 0
ready, 1 registered, 2 table full. -/
def waitWord (n : BitVec 1) (g : BitVec 4) (d k b : BitVec 5) (size : Nat) (count : Bool) (s : State) : Out :=
  guarded s .a n g fun c =>
    let cap := kRead c k
    let u := memUnit c k b size
    let old := (sRead c .a d).toNat
    aAccess s c cap kWait true false u size fun s1 a => strongAt s1 c a false u 9 fun s1 c1 =>
      if a.remote then
        remoteReturning s1 c a 9 0 1 size (0x29 + (if count then 2 ^ 8 else 0)) (capGen cap) old 0 fun s2 r =>
          match fld r 64 2 with
          | 0 => writeDone s2 c1 .a d (r.truncate 64)
          | 1 => sleepFar s2 c a
          | 2 => .next (putCrew s2 s2.cur.core s2.cur.slot (setWait (setStatus c .a .polling) .a 9))
          | _ => wait s2 c .a 9
      else loadAt s1 c a u size (capGen cap) 0x29 9 fun s2 w =>
        if waitReady count size w old then writeDone s2 c1 .a d (BitVec.ofNat 64 w)
        else sleepOn s2 c a

/-- WAITSIG: waits until the word differs from sd. -/
def execWaitsig (n : BitVec 1) (g : BitVec 4) (d k b : BitVec 5) (z : BitVec 1) (s : State) : Out :=
  waitWord n g d k b (atomSize z) false s

/-- CWAIT: waits until bits 62:0 reach sd<62:0>. -/
def execCwait (n : BitVec 1) (g : BitVec 4) (d k b : BitVec 5) (s : State) : Out := waitWord n g d k b 8 true s

/-! ### Fences (R144) -/

/-- A row that an earlier remote LDQ of the crew reads has not arrived: of the loads, A runs ahead of these alone (R133). -/
def ldqPending (s : State) (core slot : Nat) : Bool :=
  s.fabric.msgs.any fun m => !m.inbound && decide (m.core = core) && decide (m.slot = slot) && decide (m.waiter = 2) &&
    decide (m.phase ≤ 1)

/-- FENCE: full and release wait for what they cover, acquire for the loads still on their way. -/
def execFence (n : BitVec 1) (g : BitVec 4) (k : BitVec 2) (sub : BitVec 3) (s : State) : Out :=
  guarded s .a n g fun c =>
    match demoted s c (decide (sub = 5)) with
    | none => raiseHere s c .a 0x1A 0
    | some c1 =>
      if k = 1 then (if ldqPending s s.cur.core s.cur.slot then wait s c .a 6 else done s c1 .a 4)
      else match releaseReady s s.cur.core s.cur.slot c with
      | none => wait s c .a 6
      | some s1 => done s1 c1 .a 4

/-! ### Cache keeping (R152) -/

/-- The lines of device memory that cover `n` of the 128-byte pieces from that of `u`, each with the page it is reached
through; other ranges, absent pages and lines homed in a slice group that does not admit the tenant (R402) are skipped. -/
def keepLines (s : State) (c : Crew) (cap : Cap) (u : Nat) : Nat → State × List Pin
  | 0 => (s, [])
  | n + 1 =>
    let (s1, ls) := keepLines s c cap u n
    let off := max u (u / 128 * 128 + 128 * n)
    match access s1 s1.cur.core s1.cur.slot c cap { kLoad with rights := rightKP, bits := 0 } off 1 with
    | (s2, .ok a) =>
      let h := homeSlice s2 (a.key / 2 ^ 36) (a.key / 128)
      if a.tgt ≠ 0 ∨ groupAdmits s2 h.1 (h.2 / 16) c.tenant = false then (s2, ls)
      else
        let e := tlbLookup s2 (dieOf s2.cur.core) c.tenant 4 (capObj cap) off
        (s2, ls ++ [{ tenant := c.tenant, line := a.key / 128, obj := capObj cap, paged := !isExtentObj s2 c.tenant (capObj cap),
                      va := (e.map (·.va)).getD 0, gpa := (e.map (·.gpa)).getD 0 }])
    | (s2, .error _) => (s2, ls)

/-- Lines that a pin request names. -/
def lineCount (u n : Nat) : Nat := if n = 0 then 0 else (u + n - 1) / 128 - u / 128 + 1

/-- Pins a line for a tenant that has not used up its quota. -/
def pinLine (pins : List Pin) (x : Pin) : List Pin :=
  let own := pins.filter fun p => decide (p.tenant = x.tenant)
  if own.any (fun p => decide (p.line = x.line)) ∨ Config.pinQuota x.tenant ≤ own.length then pins else pins ++ [x]

/-- KEEP and UNKEEP: the whole range is checked under steps 1 to 4 of R128. -/
def keepCore (pin : Bool) (n : BitVec 1) (g : BitVec 4) (r k b : BitVec 5) (s : State) : Out :=
  guarded s .a n g fun c =>
    let cap := kRead c k
    let u := memUnit c k b 1
    let len := (sRead c .a r).toNat
    match capCheck cap rightKP u len with
    | some cause => raiseHere s c .a cause u
    | none =>
      match boundsCheck s s.cur.core c (capSpace cap) u len with
      | some cause => raiseHere s c .a cause u
      | none =>
        if capSpace cap ≠ 4 then done s c .a 4
        else
          let (s1, ls) := keepLines s c cap u (lineCount u len)
          let pins := if pin then ls.foldl pinLine s1.xlat.pins
                      else s1.xlat.pins.filter fun p =>
                        !(decide (p.tenant = c.tenant) && ls.any fun x => decide (x.line = p.line))
          done { s1 with xlat := { s1.xlat with pins := pins } } c .a 4

def execKeep (n : BitVec 1) (g : BitVec 4) (c k b : BitVec 5) (s : State) : Out := keepCore true n g c k b s
def execUnkeep (n : BitVec 1) (g : BitVec 4) (c k b : BitVec 5) (s : State) : Out := keepCore false n g c k b s

end Sys2Proof.Machine
end

