-- ==== Sys2Proof/Machine/Order.lean ====
section
/-!
DEFINITION. Machine/Order.lean: text order between the streams of one crew: looking ahead along a stream's own path
(R61, R259, R263), the LDV interlocks (R137) and the MRDRAIN interlocks (R190, R227).
-/
namespace Sys2Proof.Machine
open FieldCheck

/-! ### Looking ahead along a stream's path -/

/-- A row of remote text that a stream of the crew has fetched. -/
def keptRow (s : State) (core : Nat) (c : Crew) (row : Nat) : Option Nat :=
  match (s.crews.find? fun p => decide (p.1 / 2 = core) && decide (p.2.launch = c.launch) && decide (p.2.rank = c.rank)) with
  | none => none
  | some p =>
    match myMsg s core (p.1 % 2) (keptPc c.text row) with
    | some m => if m.phase = 2 then some m.reply.row.toNat else none
    | none => none

/-- `n` parcels of the crew's text, as far as they can be read: of text that another device holds, the rows that a stream
has fetched. -/
def peekWords (s : State) (core : Nat) (c : Crew) (pc : Nat) : Nat → Option Nat
  | 0 => some 0
  | n + 1 =>
    match objAccess s (dieOf core) c.tenant c.text pc kFetch with
    | (_, .error _) => none
    | (s1, .ok a) =>
      let word : Option Nat :=
        if a.remote then (keptRow s core c (pc / 64 * 64)).map fun r => r / 2 ^ (8 * (pc % 64)) % 2 ^ 32
        else some (readUnit s1 a.key 4)
      match word, peekWords s core c (pc + 4) n with
      | some w, some x => some (w + 2 ^ 32 * x)
      | _, _ => none

/-- The relative target of an X word, where it has one. -/
def jumpOf : Instr → Option (BitVec 17)
  | .br _ _ o => some o
  | .loop _ _ o => some o
  | _ => none

/-- Whether stream `e`, walking from `pc` with the outcomes `fifo` until its PATH reaches `limit`, meets an instruction of
its own that satisfies `p`, which hands a value `x` on from each to the next. Where the path cannot be followed, the answer is
yes. An entry of a SETN that C has not pushed yet is no branch: the path goes on past it. -/
def scanWith {σ : Type} (s : State) (core : Nat) (c : Crew) (e : Eng) (limit : Nat) (p : σ → Instr → Bool × σ) :
    Nat → Nat → Nat → List Word → σ → Bool
  | 0, _, _, _, _ => false
  | fuel + 1, pc, path, fifo, x =>
    if limit ≤ path then false
    else match peekWords s core c pc 1 with
    | none => true
    | some w0 =>
      let tag := w0 / 2 ^ 29 % 8
      let len := lenOfTag tag
      let on (rest : List Word) : Bool := scanWith s core c e limit p fuel (pc + len) (path + len) rest x
      if len = 0 then true
      else if tag = tagOfEng e then
        match peekWords s core c pc (len / 4) with
        | none => true
        | some w =>
          (match decode w with
           | .error _ => true
           | .ok i => (p x i).1 || scanWith s core c e limit p fuel (pc + len) (path + len) fifo (p x i).2)
      else if tag = 5 then
        match decode w0, fifo with
        | .ok i, y :: rest =>
          if entryPc y = pc % 2 ^ 32 then
            let next := match jumpOf i with
              | some o => if entryKind y = 1 then branchTarget pc o else pc + 4
              | none => pc + 4
            scanWith s core c e limit p fuel next (path + 4) rest x
          else true
        | _, _ => true
      else if tag = 0 ∧ e ≠ .a then
        match decode w0, fifo with
        | .ok i, y :: rest =>
          if isSetn i then (if entryPc y = pc % 2 ^ 32 then on rest else true) else on fifo
        | _, _ => on fifo
      else on fifo

/-- Whether an active stream still meets, before PATH `limit`, an instruction of its own that satisfies `p`. -/
def meetsBefore {σ : Type} (s : State) (core : Nat) (c : Crew) (e : Eng) (limit : Nat) (p : σ → Instr → Bool × σ) (a : σ) : Bool :=
  let x := strOf c e
  let skip := match x.status with
    | .joint _ _ => 4
    | .yielded _ => 4
    | .arrived => 4
    | _ => 0
  active c e && decide (x.path < limit) && decide (x.status ≠ .arrived) &&
    scanWith s core c e limit p (limit - x.path) (x.pc + skip) (x.path + skip) x.fifo a

def stillBefore (s : State) (core : Nat) (c : Crew) (e : Eng) (limit : Nat) (p : Instr → Bool) : Bool :=
  meetsBefore s core c e limit (fun _ i => (p i, ())) ()

/-! ### Interlocks -/

/-- Vector registers that one descriptor reaches in repeat `j` (R73, R166, R168, R171, R172). -/
def dRegList (d : BitVec 18) (u : DUse) (j : Nat) : List Nat :=
  let lin : Nat := ((dBase d : Int) + (j : Int) * dStride d).toNat
  match u, dMode d with
  | .mask, _ => []
  | .none, _ => []
  -- a part is a number, also where the descriptor is all zeros (R170, R227)
  | .part _, _ => []
  | .codes p, 0 => [((dBase d : Int) + ((j / p : Nat) : Int) * dStride d).toNat]
  | .dst2, 0 => [lin, lin + 1]
  | .srcPair, 0 => [lin, lin + 1]
  | _, 0 => [lin]
  | _, _ => []

/-- Vector registers that an instruction reads or writes in repeat `j`. -/
def vRegsAt (i : Instr) (j : Nat) : List Nat :=
  match vspecOf i with
  | some (w, sp) => dRegList w.d0 sp.d0 j ++ dRegList w.d1 sp.d1 j ++ dRegList w.d2 sp.d2 j
  | none => []

/-- Whether a V instruction reads or writes a register in any repeat. -/
def vTouches (r : Nat) (i : Instr) : Bool :=
  match vspecOf i with
  | some (w, _) => (List.range (repOf w)).any fun j => (vRegsAt i j).contains r
  | none => false

/-- An LDV with a descriptor, for the registers that it reaches. -/
def newLdv (d : Word) : EngOp :=
  { kind := 1, pc := 0, desc := d, aux := 0, src := 0, dst := 0, ccap := 0, next := 0, nulled := false, fault := 0, faultOff := 0,
    path := 0, claim := none, signalled := false, fell := false, heldBy := none, skipped := [], req := none, afterMsg := 0, afterKey := 0 }

def isMrdrain : Instr → Bool
  | .mrdrain _ => true
  | _ => false

/-- An LDV still holds its registers: its rows are not done, or, false-guarded, its counter has not fallen. -/
def ldvHolds (o : EngOp) : Bool := decide (o.kind = 1) && (if o.nulled then !o.fell else !rowsDone o)

/-- Instructions of A that write no scalar register of it. -/
def keepsScalars : Instr → Bool
  | .ldv _ _ _ _ _ | .copy _ _ _ _ _ | .copymc _ _ _ _ _ | .gather _ _ _ _ _ | .scatter _ _ _ _ _ => true
  | .ldq _ _ _ _ _ _ | .stq _ _ _ _ _ | .kld _ _ _ _ _ | .kst _ _ _ _ _ | .fence _ _ _ _ => true
  | .st _ _ _ _ _ _ | .stRel _ _ _ _ _ _ | .stSig _ _ _ _ _ _ | .stRelSig _ _ _ _ _ _ | .red _ _ _ _ _ _ _ => true
  | .rcommit _ _ _ _ | .rrelease _ _ _ _ | .barinit _ _ _ _ | .bararrive _ _ _ _ | .barwait _ _ _ _ => true
  | _ => false

/-- An LDV that A has still to issue, as V must take it: `known` while no instruction of A before it can write the register
that holds its descriptor, which then stands there now (R136). -/
def ldvAhead (c : Crew) (regs : List Nat) (known : Bool) (i : Instr) : Bool × Bool :=
  match i with
  | .ldv _ _ r _ _ => (!known || regs.any (fun v => ldvReaches (newLdv (sRead c .a r)) v), known)
  | _ => (false, known && keepsScalars i)

/-- V must wait: an LDV that precedes it reaches one of the registers and has not completed, or has still to be issued and
reaches one, as far as its descriptor is decided (R136, R137). -/
def vWaitsForLdv (s : State) (core : Nat) (c : Crew) (regs : List Nat) : Bool :=
  !regs.isEmpty &&
    ((c.ops.any fun o => ldvHolds o && decide (o.path < c.strV.path) && regs.any fun r => ldvReaches o r) ||
      meetsBefore s core c .a c.strV.path (ldvAhead c regs) true)

/-- An LDV must wait before writing a register: a V instruction that precedes it and touches it has not retired. -/
def ldvWaitsForV (s : State) (core : Nat) (c : Crew) (o : EngOp) (r : Nat) : Bool :=
  stillBefore s core c .v o.path (vTouches r)

/-- A reversible V instruction waits for every MRDRAIN before it, and an MRDRAIN for every reversible V instruction. -/
def vWaitsForMrdrain (s : State) (core : Nat) (c : Crew) : Bool := stillBefore s core c .m c.strV.path isMrdrain
def mrdrainWaitsForV (s : State) (core : Nat) (c : Crew) : Bool := stillBefore s core c .v c.strM.path isReversible

end Sys2Proof.Machine
end

