-- ==== Sys2Proof/Machine/EngineOps.lean ====
section
/-!
DEFINITION. Machine/EngineOps.lean: rings and barriers (R145 to R147), LDV, copies, gathers and scatters (R136, R137,
R148 to R150), and the events by which memory and the copy engine finish them.
-/
namespace Sys2Proof.Machine

/-! ### Ring headers (R145) -/

def ringHead (h : Row) : Nat := rowElem h 32 0
def ringTail (h : Row) : Nat := rowElem h 32 1
def ringClaimed (h : Row) : Nat := rowElem h 32 2
def ringCbits (h : Row) : Nat := rowElem h 64 2
def ringBase (h : Row) : Nat := rowElem h 16 12
def ringLsize (h : Row) : Nat := rowElem h 8 26
def ringSize (h : Row) : Nat := 2 ^ ringLsize h
def ringSrows (h : Row) : Nat := rowElem h 8 27 + 1

/-- Distance from counter `a` up to counter `b`, modulo 2^32. -/
def ringDiff (b a : Nat) : Nat := (b + 2 ^ 32 - a) % 2 ^ 32

/-- Whether a header is one that ring operations accept. -/
def ringOk (h : Row) : Bool :=
  decide (ringLsize h ≤ 6) && decide (ringBase h < 2 ^ 15) &&
    decide (ringDiff (ringTail h) (ringHead h) ≤ ringDiff (ringClaimed h) (ringHead h)) &&
    decide (ringDiff (ringClaimed h) (ringHead h) ≤ ringSize h) &&
    (List.range 64).all fun b =>
      !(ringCbits h).testBit b ||
        (decide (b < ringSize h) &&
          decide ((b + ringSize h - ringTail h % ringSize h) % ringSize h < ringDiff (ringClaimed h) (ringTail h)))

/-- A header with new HEAD, TAIL, CLAIMED and CBITS; its other bytes stay. -/
def ringWith (h : Row) (head tail claimed cbits : Nat) : Row :=
  setFld (setFld (setFld (setFld h 0 32 head) 32 32 tail) 64 32 claimed) 128 64 cbits

/-- Advances TAIL over the slots whose bits are set, clearing each. -/
def ringAdvance (size : Nat) : Nat → Nat → Nat → Nat × Nat
  | 0, tail, cb => (tail, cb)
  | n + 1, tail, cb =>
    if cb.testBit (tail % size) then ringAdvance size n ((tail + 1) % 2 ^ 32) (cb - 2 ^ (tail % size)) else (tail, cb)

/-- RCOMMIT of slot `i`: none where it raises queue misuse. -/
def ringCommit (h : Row) (i : Nat) : Option Row :=
  let size := ringSize h
  if ringDiff (ringClaimed h) (ringTail h) ≤ ringDiff i (ringTail h) ∨ (ringCbits h).testBit (i % size) then none
  else
    let (tail, cb) := ringAdvance size 64 (ringTail h) (ringCbits h + 2 ^ (i % size))
    some (ringWith h (ringHead h) tail (ringClaimed h) cb)

/-- What a ring operation finds. -/
inductive RingAns where
  | wait
  | misuse
  /-- the value for sd, and the new header -/
  | ok (value : Nat) (h : Row)
deriving DecidableEq, Repr

/-- The effects of R146 on a well-formed header. -/
def rclaimAns (h : Row) (n : Nat) : RingAns :=
  if ringSize h < n then .misuse
  else if ringSize h < ringDiff (ringClaimed h) (ringHead h) + n then .wait
  else .ok (ringClaimed h) (ringWith h (ringHead h) (ringTail h) ((ringClaimed h + n) % 2 ^ 32) (ringCbits h))

def rcommitAns (h : Row) (i : Nat) : RingAns :=
  match ringCommit h i with
  | none => .misuse
  | some h1 => .ok 0 h1

def rwaitfAns (h : Row) (n : Nat) : RingAns :=
  if ringSize h < n then .misuse
  else if ringDiff (ringTail h) (ringHead h) < n then .wait else .ok (ringHead h) h

def rwaiteAns (h : Row) (n : Nat) : RingAns :=
  let free := ringSize h - ringDiff (ringClaimed h) (ringHead h)
  if ringSize h < n then .misuse else if free < n then .wait else .ok free h

def rreleaseAns (h : Row) (n : Nat) : RingAns :=
  if ringDiff (ringTail h) (ringHead h) < n then .misuse
  else .ok 0 (ringWith h ((ringHead h + n) % 2 ^ 32) (ringTail h) (ringClaimed h) (ringCbits h))

/-! ### Barrier objects (R147) -/

/-- {OVF, PHASE, RELOAD, PEND}. -/
def barrierWord (ovf phase reload pend : Nat) : Nat :=
  ovf % 2 * 2 ^ 63 + phase % 2 ^ 15 * 2 ^ 48 + reload % 2 ^ 24 * 2 ^ 24 + pend % 2 ^ 24

/-- arrive(b). -/
def arrive (w b : Nat) : Nat :=
  let pend := bitsOf w 0 24
  let reload := bitsOf w 24 24
  let phase := bitsOf w 48 15
  let ovf := bitsOf w 63 1
  if pend ≤ b then barrierWord (if pend < b then 1 else ovf) (phase + 1) reload reload
  else barrierWord ovf phase reload (pend - b)

/-! ### Ring and barrier operations at a bank unit -/

/-- What a bank unit answers to a ring or barrier operation. -/
inductive BankAns where
  | wait
  | misuse
  /-- the value for sd, and the new unit -/
  | ok (value new : Nat)
deriving DecidableEq, Repr

/-- A ring operation on a header row. -/
def ringBank (ans : Row → Nat → RingAns) (x b : Nat) : BankAns :=
  let h : Row := BitVec.ofNat 512 x
  if !ringOk h then .misuse
  else match ans h (b % 2 ^ 32) with
  | .wait => .wait
  | .misuse => .misuse
  | .ok v h1 => .ok v h1.toNat

/-- The operations of R146 and R147 by opcode: `x` the unit as it stands, `b` the operand sb. -/
def bankAnswer (op x b : Nat) : BankAns :=
  match op with
  | 0x52 => ringBank rclaimAns x b
  | 0x53 => ringBank rcommitAns x b
  | 0x54 => ringBank rwaitfAns x b
  | 0x55 => ringBank rwaiteAns x b
  | 0x56 => ringBank rreleaseAns x b
  | 0x57 => if b % 2 ^ 24 = 0 ∨ 2 ^ 24 ≤ b then .misuse else .ok 0 (barrierWord 0 0 b b)
  | 0x58 => if 2 ^ 24 ≤ b then .misuse else .ok 0 (arrive x b)
  | _ => if bitsOf x 48 15 = b % 2 ^ 15 then .wait else .ok 0 x

/-- Operations that only read the unit. -/
def bankReads (op : Nat) : Bool := decide (op = 0x54) || decide (op = 0x55) || decide (op = 0x59)

/-- An answer as the response to a request: bits 63:0 the value, bits 65:64 0 done, 1 not yet, 2 misuse. -/
def bankReply : BankAns → Row
  | .ok v _ => BitVec.ofNat 512 (v % 2 ^ 64)
  | .wait => BitVec.ofNat 512 (2 ^ 64)
  | .misuse => BitVec.ofNat 512 (2 * 2 ^ 64)

/-- The update of a unit of `size` bytes at its bank unit: read whole and written whole. -/
def bankApply (s : State) (op key size b : Nat) : State × BankAns :=
  match bankAnswer op (readUnit s key size) b with
  | .ok v new => (if bankReads op then s else doneReachedRow (writeUnit s key size new) key size, .ok v new)
  | r => (s, r)

/-- A ring or barrier operation retires: a value goes to sd. -/
def bankDone (s : State) (c : Crew) (d : Option (BitVec 5)) (v : Word) : Out :=
  match d with
  | some r => writeDone s c .a r v
  | none => done s c .a 4

/-- A ring or barrier operation on a peer core's scratchpad: a request of the signal class, whose answer the stream awaits in
class 0x9; while the answer is not yet, it asks again. One that fails on its way is reported imprecisely, and the crew runs on
(R153, R382; log 91). -/
def bankRemote (s : State) (c : Crew) (a : Acc) (d : Option (BitVec 5)) (u size op gen b : Nat) : Out :=
  match myMsg s s.cur.core s.cur.slot (pcOf c .a) with
  | some m =>
    let s1 := dropMsg s m.id
    if m.phase = 3 then
      match bankDone { s1 with freeCtr := s1.freeCtr + 1 } c d (Config.ringUnanswered s1.freeCtr) with
      | .next s2 => .next (failRecord s2 m m.cause)
      | o => o
    else if m.phase = 2 then
      let r := m.reply.row
      (match fld r 64 2 with
       | 0 => bankDone s1 c d (r.truncate 64)
       | 1 => wait s1 c .a 9
       | _ => raiseHere s1 c .a 0x0B u)
    else wait s c .a 9
  | none =>
    if 256 ≤ outstanding s s.cur.core then wait s c .a 6
    else if rowBusy s s.cur.core s.cur.slot a then wait s c .a 9
    else wait (sendMsg s (mkMsg s s.cur.core s.cur.slot c a 2 (formCode .ring) size op gen b 0 (pcOf c .a) 1 0)) c .a 9

/-- A ring or barrier instruction on the `size`-byte unit at ka.cursor (R145 to R147), which counts as a read and a write
(R295). RCOMMIT, RRELEASE and BARARRIVE carry the crew's earlier accesses with them (R289), on a page that is not loose; every
form on a strong page keeps its order (R286). DESIGN CHOICE (log 89): the rules name no result for poison in the unit, and the
model raises 0x18 precisely, as for a load. -/
def bankOp (op size : Nat) (n : BitVec 1) (g : BitVec 4) (d : Option (BitVec 5)) (k b : BitVec 5) (s : State) : Out :=
  guarded s .a n g fun c =>
    let cap := kRead c k
    let u := unitOf size (capCursor cap)
    let x := (sRead c .a b).toNat
    let carries := decide (op = 0x53) || decide (op = 0x56) || decide (op = 0x58)
    aAccess s c cap kRing true true u size fun s1 a =>
      match orderAt s1 c (carries || !bankReads op) ((carries && !a.loose) || decide (a.ord = 0)) a.loose with
      | none => wait s1 c .a 9
      | some s2 =>
        if a.remote then bankRemote s2 c a d u size op (capGen cap) x
        else match ownFirst s2 c a.key size with
        | none => wait s2 c .a 9
        | some s3 =>
          if isPoisoned s3 a.key then raiseHere s3 c .a 0x18 u
          else match bankApply s3 op a.key size x with
          | (s4, .ok v _) => bankDone s4 c d (BitVec.ofNat 64 v)
          | (s4, .wait) => wait s4 c .a 9
          | (s4, .misuse) => raiseHere s4 c .a 0x0B u

def execRclaim (n : BitVec 1) (g : BitVec 4) (d k b : BitVec 5) (s : State) : Out := bankOp 0x52 64 n g (some d) k b s
def execRcommit (n : BitVec 1) (g : BitVec 4) (k b : BitVec 5) (s : State) : Out := bankOp 0x53 64 n g none k b s
def execRwaitf (n : BitVec 1) (g : BitVec 4) (d k b : BitVec 5) (s : State) : Out := bankOp 0x54 64 n g (some d) k b s
def execRwaite (n : BitVec 1) (g : BitVec 4) (d k b : BitVec 5) (s : State) : Out := bankOp 0x55 64 n g (some d) k b s
def execRrelease (n : BitVec 1) (g : BitVec 4) (k b : BitVec 5) (s : State) : Out := bankOp 0x56 64 n g none k b s
def execBarinit (n : BitVec 1) (g : BitVec 4) (k b : BitVec 5) (s : State) : Out := bankOp 0x57 8 n g none k b s
def execBararrive (n : BitVec 1) (g : BitVec 4) (k b : BitVec 5) (s : State) : Out := bankOp 0x58 8 n g none k b s
def execBarwait (n : BitVec 1) (g : BitVec 4) (k b : BitVec 5) (s : State) : Out := bankOp 0x59 8 n g none k b s

/-! ### Issuing an engine operation (R136, R148 to R150) -/

/-- Unfinished copy operations of a core. -/
def coreCopies (s : State) (core : Nat) : Nat :=
  ([0, 1].map fun slot =>
    match crewAt s core slot with
    | none => 0
    | some c => (c.ops.filter fun o => decide (o.kind ≠ 1) && !opDone o).length).sum

/-- Unfinished operations of a crew. A record holds at most 64 of them, and every one is recorded (R150, R349): a crew never has
more (DEDUCED, log 92). -/
def liveOps (c : Crew) : Nat := (c.ops.filter fun o => !o.fell).length

/-- Forks an operation: its counter rises, or A stalls at the limits; `far` says that it has rows at a remote target, whose
requests the core's limit of 256 holds back (R381). -/
def fork (s : State) (c : Crew) (o : EngOp) (far : Bool) : Out :=
  let k := opDc o
  if 1023 ≤ dRead c .a k ∨ 64 ≤ coreCopies s s.cur.core ∨ 64 ≤ liveOps c ∨ (256 ≤ outstanding s s.cur.core ∧ far = true) then
    wait s c .a 0xE
  else
    let o1 := { o with afterMsg := s.fabric.nextMsg, afterKey := c.issueNo }
    done s (dWrite { c with ops := c.ops ++ [o1] } .a k (dRead c .a k + 1)) .a 4

/-- A fresh operation. -/
def newOp (c : Crew) (kind : Nat) (desc aux : Word) (src dst ccap : Cap) : EngOp :=
  { kind := kind, pc := pcOf c .a, desc := desc, aux := aux, src := src, dst := dst, ccap := ccap, next := 0, nulled := false,
    fault := 0, faultOff := 0, path := c.strA.path, claim := none, signalled := false, fell := false, heldBy := none,
    skipped := [], req := none, afterMsg := 0, afterKey := 0 }

/-- A false-guarded operation: no row, no increment, its place kept. -/
def nullOp (o : EngOp) : EngOp := { o with nulled := true, signalled := true }

/-- Offset of row `j` of an LDV (R136). -/
def ldvOffset (o : EngOp) (j : Nat) : Nat :=
  ((o.aux.toNat : Int) + 64 * (j : Int) * sextN (fld o.desc 20 16) 16).toNat

/-- Whether row `j` of an LDV stands below offset 0. -/
def ldvBelow (o : EngOp) (j : Nat) : Bool :=
  decide ((o.aux.toNat : Int) + 64 * (j : Int) * sextN (fld o.desc 20 16) 16 < 0)

/-- Checks the rows of an LDV from `j` on, in order: a failure is the instruction's own, and so is the demotion of a
strong row (R407). `far`: a row so far is remote. -/
def ldvChecks (c : Crew) (o : EngOp) (go : State → Crew → Bool → Out) : Nat → Nat → State → Crew → Bool → Out
  | 0, _, s, c1, far => go s c1 far
  | n + 1, j, s, c1, far =>
    if ldvBelow o j then raiseHere s c .a 0x03 0
    else aAccess s c o.src kLdv true false (ldvOffset o j) 64 fun s1 a =>
      strongAt s1 c1 a false (ldvOffset o j) 6 fun s2 c2 => ldvChecks c o go n (j + 1) s2 c2 (far || a.remote)

/-- LDV. DESIGN CHOICE (log 89): its own faults at issue, 0x01 of the descriptor and 0x02 of its registers, come before the
checks of its rows; R136 gives no order between them. -/
def execLdv (n : BitVec 1) (g : BitVec 4) (r k b : BitVec 5) (s : State) : Out :=
  onCrew s .a fun c =>
    let d := sRead c .a r
    let o := newOp c 1 d (BitVec.ofNat 64 (memUnit c k b 64)) (kRead c k) 0 0
    if !guard c .a n g then fork s c (nullOp o) false
    else
      if fld d 36 28 ≠ 0 ∨ fld d 19 1 ≠ 0 then raiseHere s c .a 0x01 0
      else if 768 < fld d 0 10 + opRows o ∨ c.nv < fld d 0 10 + opRows o then raiseHere s c .a 0x02 0
      else ldvChecks c o (fun s1 c1 far => fork s1 c1 o far) (opRows o) 0 s c false

/-- Fields of a copy descriptor. -/
def cpKc (d : Word) : Nat := fld d 20 4
def cpBe (d : Word) : Bool := d.getLsbD 24
def cpBrow (d : Word) : Nat := fld d 25 15
def cpRng (d : Word) : Bool := d.getLsbD 40

/-- Steps 1 to 4 of R128 on a range of `size` bytes from a capability's unit, or steps 1 and 2 only. -/
def rangeCheck (s : State) (c : Crew) (cap : Cap) (rights size : Nat) (whole : Bool) : Option Nat :=
  let u := unitOf 64 (capCursor cap)
  if whole then
    match capCheck cap rights u size with
    | some x => some x
    | none => boundsCheck s s.cur.core c (capSpace cap) u size
  else if capSpace cap = 0 then some 0x05
  else if !hasRights (capRights cap) rights then some 0x04 else none

/-- Rows that a list of `n` entries occupies. -/
def listRows (n : Nat) : Nat := (n + 15) / 16

/-- The list of a GATHER or SCATTER lies within the crew's declared rows. -/
def listFits (c : Crew) (aux : Word) (n : Nat) : Bool :=
  let first := fld aux 0 15
  decide (first % 2 ^ 14 + listRows n ≤ 2 ^ 14) && rowFormOk c (first + listRows n - 1)

/-- Descriptor faults of a copy form. -/
def copyIllegal (kind : Nat) (d aux : Word) : Bool :=
  decide (fld d 41 23 ≠ 0) || (cpRng d && (decide (kind = 3) || decide (kind = 5))) ||
    (decide (kind = 3) && decide (fld aux 32 32 ≠ 0)) ||
    ((decide (kind = 4) || decide (kind = 5)) && decide (fld aux 15 49 ≠ 0))

/-- The checks of R149 on the capabilities and ranges, in the order source, destination, list, completion object. DESIGN CHOICE
(log 13): of the completion object the null capability and the rights are checked here, at issue; its bounds (steps 3 and 4 of
R128) are checked when the increment is made, since R149 does not say at which of the two. -/
def copyChecks (s : State) (c : Crew) (o : EngOp) : Option Nat :=
  let n := opRows o
  match rangeCheck s c o.src rightR (64 * n) (decide (o.kind ≠ 4)) with
  | some x => some x
  | none =>
    match (if o.kind = 3 then
             (match rangeCheck s c o.dst rightW 0 false with
              | some x => some x
              | none => if capSpace o.dst ≠ 1 then some 0x07 else rangeCheck s c o.dst rightW (64 * n) true)
           else rangeCheck s c o.dst rightW (if cpRng o.desc then 64 else 64 * n) (decide (o.kind ≠ 5))) with
    | some x => some x
    | none =>
      if (o.kind = 4 ∨ o.kind = 5) ∧ listFits c o.aux n = false then some 0x03
      else if opCe o then rangeCheck s c o.ccap (rightAT + rightSG) 0 false
      else none

/-- A ring header as a copy destination: right W, a scratchpad target. -/
def kRingCopy : AccKind := { kRing with rights := rightW, form := .copyWrite }

/-- Slots that a ring copy claims. -/
def ringNeed (h : Row) (rows : Nat) : Nat := (rows + ringSrows h - 1) / ringSrows h

/-- The checks at issue that need a translation: the target of a barrier-counted destination, and the ring header. An
absent page leaves them to the row that meets it. -/
def targetChecks (s : State) (c : Crew) (o : EngOp) : State × Option Nat :=
  let u := unitOf 64 (capCursor o.dst)
  if cpRng o.desc then
    match access s s.cur.core s.cur.slot c o.dst kRingCopy u 64 with
    | (s1, .error f) => if f.cause = 0x06 then (s1, none) else (translationRecord s1 c.tenant (capObj o.dst) u f, some f.cause)
    | (s1, .ok a) =>
      let h : Row := BitVec.ofNat 512 (readUnit s1 a.key 64)
      if !ringOk h ∨ ringSize h < ringNeed h (opRows o) then (s1, some 0x0B) else (s1, none)
  else if cpBe o.desc ∧ capSpace o.dst ≠ 1 then
    if capSpace o.dst ≠ 4 then (s, some 0x07)
    else match combined s (dieOf s.cur.core) c.tenant 4 (capObj o.dst) (some (capGen o.dst)) u with
    | (s1, .ok e) => (s1, if e.tgt = 2 then none else some 0x07)
    | (s1, .error _) => (s1, none)
  else (s, none)

/-- Entry `j` of a GATHER's or SCATTER's list, as it stands now. -/
def listEntry (s : State) (core : Nat) (c : Crew) (o : EngOp) (j : Nat) : Nat :=
  readUnit s (rowFormKey core c (fld o.aux 0 15 + j / 16) + 4 * (j % 16)) 4

/-- Whether a copy has a row, or its increment, at a remote target: one unit of each page of a range, every row of a list. -/
def copyFar (s : State) (c : Crew) (o : EngOp) : Bool :=
  let far (cap : Cap) (k : AccKind) (u : Nat) : Bool :=
    match (access s s.cur.core s.cur.slot c cap k u 64).2 with
    | .ok a => a.remote
    | .error _ => false
  let rows (cap : Cap) (listed : Bool) : List Nat :=
    let u := unitOf 64 (capCursor cap)
    if listed then (List.range (opRows o)).map fun j => u + 64 * listEntry s s.cur.core c o j else pieceStarts u (64 * opRows o)
  (rows o.src (o.kind = 4)).any (far o.src kCopyR) ||
    (if cpRng o.desc then far o.dst kRingCopy (unitOf 64 (capCursor o.dst)) else (rows o.dst (o.kind = 5)).any (far o.dst kCopyW)) ||
    (opCe o && far o.ccap kCount (unitOf 8 (capCursor o.ccap)))

/-- COPY, COPYMC, GATHER and SCATTER. -/
def copyIssue (kind : Nat) (n : BitVec 1) (g : BitVec 4) (kd ka r : BitVec 5) (s : State) : Out :=
  onCrew s .a fun c =>
    let d := sRead c .a r
    let aux := if kind = 2 then 0 else sRead c .a (r + 1)
    let ccap := if fld d 19 1 = 1 then kRead c (BitVec.ofNat 5 (cpKc d)) else 0
    let o := newOp c kind d aux (kRead c ka) (kRead c kd) ccap
    if !guard c .a n g then fork s c (nullOp o) false
    else
      if copyIllegal kind d aux then raiseHere s c .a 0x01 0
      else match copyChecks s c o with
      | some x => raiseHere s c .a x (unitOf 64 (capCursor o.dst))
      | none =>
        match targetChecks s c o with
        | (s1, some x) => raiseHere s1 c .a x (unitOf 64 (capCursor o.dst))
        | (s1, none) => fork s1 c o (copyFar s1 c o)

def execCopy (n : BitVec 1) (g : BitVec 4) (d a c : BitVec 5) (s : State) : Out := copyIssue 2 n g d a c s
def execCopymc (n : BitVec 1) (g : BitVec 4) (d a c : BitVec 5) (s : State) : Out := copyIssue 3 n g d a c s
def execGather (n : BitVec 1) (g : BitVec 4) (d a c : BitVec 5) (s : State) : Out := copyIssue 4 n g d a c s
def execScatter (n : BitVec 1) (g : BitVec 4) (d a c : BitVec 5) (s : State) : Out := copyIssue 5 n g d a c s

/-! ### Moving rows -/

/-- Replaces operation `i` of the crew on a slot. -/
def putOp (s : State) (core slot i : Nat) (o : EngOp) : State :=
  match crewAt s core slot with
  | none => s
  | some c => putCrew s core slot { c with ops := setNth c.ops i o }

/-- The form of DONE for a capability's unit. -/
def doneForm (cap : Cap) (u : Nat) : Nat := capObj cap * 2 ^ 40 + u % 2 ^ 40

/-- A type 14 record of an operation (R418). -/
def opRecord (s : State) (core slot : Nat) (c : Crew) (o : EngOp) (cause where_ row : Nat) : State :=
  ctxError s core slot
    (errRow s 14 cause (put o.kind 2 1 + put 1 3 1 + put o.pc 4 4 + put where_ 8 8 +
      put (if opCe o then doneForm o.ccap (capCursor o.ccap) else 0) 16 8 + put row 24 4) (some (c, core)))

/-- An operation's fault that arises while the crew is stopped is reported at the next debug stop (R257). -/
def deferFault (c : Crew) (cause : Nat) : Crew :=
  if debugStopped c then { c with ctl := { c.ctl with dbgstat := setFld (setBit c.ctl.dbgstat 11 true) 12 8 cause } } else c

/-- An operation meets a fault at row `j`: it stops there, and its record is made. -/
def opFail (s : State) (core slot i : Nat) (o : EngOp) (cause : Nat) (cap : Cap) (u : Nat) : State :=
  let s1 := putOp s core slot i { o with fault := cause, faultOff := u, heldBy := none, req := none }
  match crewAt s1 core slot with
  | none => s1
  | some c => opRecord (putCrew s1 core slot (deferFault c cause)) core slot c o cause (doneForm cap u) o.next

/-- A row's access fails: an absent page holds the operation, anything else is its fault. -/
def opMiss (s : State) (core slot i : Nat) (c : Crew) (o : EngOp) (f : XFail) (form : Form) (cap : Cap) (u : Nat) : State :=
  if f.cause = 0x06 then
    match openFault s c.tenant f form (capObj cap) u with
    | (s1, some tag) => putOp s1 core slot i { o with heldBy := some tag, req := none }
    | (s1, none) => opFail s1 core slot i o 0x06 cap u
  else opFail (translationRecord s c.tenant (capObj cap) u f) core slot i o f.cause cap u

/-- The request of an operation's row or increment that is under way. -/
def opMsg (s : State) (o : EngOp) : Option FabMsg :=
  match o.req with
  | none => none
  | some id => s.fabric.msgs.find? fun m => decide (m.id = id)

/-- Sends a request for a row, a ring operation or an increment, where the core may have one more outstanding and no earlier
row of the operation is on its way to the same place (R374, R381). -/
def opSend (s : State) (core slot i : Nat) (c : Crew) (o : EngOp) (a : Acc) (op gen x cmp : Nat) : State :=
  if 256 ≤ outstanding s core then s
  else
    let k := op % 256
    let m := mkMsg s core slot c a (if k = 0x5A then 0 else if k = 0x5B then 3 else 2) 7 (if k = 0x5C then 8 else 64) op
      gen x cmp o.pc 3 i
    if k = 0x5B then
      -- the rows of one copy to a group are one step (R438)
      let st := (groupOfPeer s m.peer).map fun g => o.step.getD g.steps
      putOp (sendStep s { m with last := decide (opRows o ≤ o.next + 1) } o.step) core slot i
        { o with req := some m.id, heldBy := none, step := st }
    else putOp (sendMsg s m) core slot i { o with req := some m.id, heldBy := none }

/-- The row is written: NEXT advances; a COPYMC that skipped a core faults once every row is written. Progress clears
the stall counter (R268). -/
def opAdvance (s : State) (core slot i : Nat) (o : EngOp) : State :=
  let o1 := { o with next := o.next + 1, heldBy := none, req := none }
  let short := decide (o.skipped ≠ []) && decide (opRows o ≤ o1.next)
  let o2 := if short then { o1 with fault := 0x07, faultOff := capCursor o.dst } else o1
  match crewAt s core slot with
  | none => s
  | some c =>
    putCrew s core slot (clearStall { (if short then deferFault c 0x07 else c) with ops := setNth c.ops i o2 })

/-- What the stream issued before the operation, reductions that rest excepted, is performed before a row moves (R289). -/
def earlierPending (s : State) (core slot : Nat) (c : Crew) (o : EngOp) : Bool :=
  (s.fabric.msgs.any fun m => !m.inbound && decide (m.core = core) && decide (m.slot = slot) &&
    (decide (m.waiter = 0) || decide (m.waiter = 2)) && decide (m.phase ≤ 1) && decide (m.id < o.afterMsg)) ||
  (s.keyed.any fun k => decide (k.launch = c.launch) && decide (k.rank = c.rank) && decide (k.issue < o.afterKey))

/-- A row on a strong page that reaches system scope, inside a function of tenant scope: 1 demoted, 2 trapped (R148, R407). -/
def rowDemotion (s : State) (c : Crew) (a : Acc) : Nat := demotion s c (reachesSystem a && decide (a.ord = 0))

/-- The state in which the crew on a slot has DEMOTE set where a row was demoted. -/
def noteDemotion (s : State) (core slot d : Nat) : State :=
  match crewAt s core slot with
  | some c => if d = 1 then putCrew s core slot { c with demote := true } else s
  | none => s

/-- Counts 64 bytes at row `BROW` of the crew on slot `sk`; none where the row lies beyond its declared rows. -/
def countArrival (s : State) (sk brow : Nat) : Option State :=
  match asGet s.crews sk with
  | none => none
  | some c =>
    if rowFormOk c brow then
      (let key := rowFormKey (sk / 2) c brow
       some (writeUnit s key 8 (arrive (readUnit s key 8) 64)))
    else none

/-- After row `next` is written into the partition of slot `sk`: its bytes are counted, its ring slot committed. `ring`
is the header's key, with the slot's number, when the row is the last of its slot; `hrow` the header's crew row. In the own
partition the barrier's row and the header are read and written (R295). -/
def opLanded (s : State) (core slot i : Nat) (c : Crew) (o : EngOp) (sk : Nat) (ring : Option (Nat × Nat)) (hrow : Nat)
    (cap : Cap) (u : Nat) : State :=
  let own := decide (sk = 2 * core + slot)
  if cpBe o.desc && own && !phaseOk s c .a true true (cpBrow o.desc) then opFail s core slot i o 0x0F cap u
  else match (if cpBe o.desc then countArrival s sk (cpBrow o.desc) else some s) with
  | none => opFail s core slot i o 0x03 cap u
  | some s1 =>
    match ring with
    | none => opAdvance s1 core slot i o
    | some (key, n) =>
      if own && !phaseOk s1 c .a true true hrow then opFail s1 core slot i o 0x0F cap u
      else match bankApply s1 0x53 key 64 n with
      | (s2, .ok _ _) => opAdvance s2 core slot i o
      | (s2, _) => opFail s2 core slot i o 0x0B cap u

/-- The cores of a COPYMC's mask. -/
def maskCores (core mask : Nat) : List Nat := ((List.range 32).filter fun b => mask.testBit b).map fun b => 32 * dieOf core + b

/-- One receiver of a COPYMC row: written and counted; a core without a crew of the launch on the slot is skipped and
named in a record, once. The operation's fault, if one is met, is returned with the state. Rows that reach the issuer's own
partition lie in its phase sets; those that reach others lie in none (R295). -/
def deliverRow (core slot : Nat) (c : Crew) (x u : Nat) (acc : State × EngOp × Nat) (r : Nat) : State × EngOp × Nat :=
  let (s, o, bad) := acc
  match crewAt s r slot with
  | some rc =>
    if rc.launch ≠ c.launch then skip s o bad
    else if r = core ∧ (phaseOk s c .a false true (keyRow c (crewRowKey core c u)) = false ∨
        (cpBe o.desc && !phaseOk s c .a true true (cpBrow o.desc)) = true) then (s, o, 0x0F)
    else
      let s1 := writeUnit s (crewRowKey r rc u) 64 x
      if cpBe o.desc then
        match countArrival s1 (2 * r + slot) (cpBrow o.desc) with
        | some s2 => (s2, o, bad)
        | none => (s1, o, 0x03)
      else (s1, o, bad)
  | none => skip s o bad
where
  skip (s : State) (o : EngOp) (bad : Nat) : State × EngOp × Nat :=
    if o.skipped.contains r then (s, o, bad)
    else (opRecord s core slot c o 0x07 r o.next, { o with skipped := o.skipped ++ [r] }, bad)

/-- Offsets that row `j` is read from and written to. -/
def opSrc (s : State) (core : Nat) (c : Crew) (o : EngOp) : Nat :=
  if o.kind = 1 then ldvOffset o o.next
  else unitOf 64 (capCursor o.src) + 64 * (if o.kind = 4 then listEntry s core c o o.next else o.next)
def opDst (s : State) (core : Nat) (c : Crew) (o : EngOp) : Nat :=
  unitOf 64 (capCursor o.dst) + 64 * (if o.kind = 5 then listEntry s core c o o.next else o.next)

/-- The operation code of a row's message: flags for a barrier count and for a row of a ring, which is addressed by the
header's place and the row that `cmp` names beside BROW. -/
def rowOp (o : EngOp) : Nat := 0x5B + (if cpBe o.desc then 2 ^ 17 else 0) + (if cpRng o.desc then 2 ^ 18 else 0)

/-- Row `next` of a ring copy (R149): into the slots it has claimed. -/
def writeRing (s : State) (core slot i : Nat) (c : Crew) (o : EngOp) (x : Nat) : State :=
  let u := unitOf 64 (capCursor o.dst)
  match access s core slot c o.dst kRingCopy u 64 with
  | (s1, .error f) => opMiss s1 core slot i c o f .copyWrite o.dst u
  | (s1, .ok a) =>
    let h : Row := BitVec.ofNat 512 (readUnit s1 a.key 64)
    let sr := ringSrows h
    match o.claim with
    | none => s1
    | some base =>
      let n := base + o.next / sr
      let row := ringBase h + n % ringSize h * sr + o.next % sr
      match asGet s1.crews a.slotKey with
      | none => opFail s1 core slot i o 0x07 o.dst u
      | some rc =>
        if !ringOk h then opFail s1 core slot i o 0x0B o.dst u
        else if !rowFormOk rc row ∨ row / 2 ^ 14 ≠ ringBase h / 2 ^ 14 then opFail s1 core slot i o 0x03 o.dst u
        else if a.remote then opSend s1 core slot i c o a (rowOp o) (capGen o.dst) x (cpBrow o.desc + 2 ^ 16 * row)
        else if phaseOk s1 c .a false true row = false then opFail s1 core slot i o 0x0F o.dst u
        else
          let last := decide ((o.next + 1) % sr = 0) || decide (opRows o = o.next + 1)
          opLanded (writeUnit s1 (rowFormKey (a.slotKey / 2) rc row) 64 x) core slot i c o a.slotKey
            (if last then some (a.key, n % 2 ^ 32) else none) (keyRow c a.key) o.dst u

/-- Writes row `next` of an operation, whose data has been read. -/
def writeRow (s : State) (core slot i : Nat) (c : Crew) (o : EngOp) (x : Nat) : State :=
  if o.kind = 1 then
    let r := fld o.desc 0 10 + o.next
    if ldvWaitsForV s core c o r then s
    else
      opAdvance (clearUnit (putCrew s core slot (vWrite c r (BitVec.ofNat 512 x))) core slot 0 r) core slot i o
  else if o.kind = 3 then
    let u := opDst s core c o
    let (s1, o1, bad) := (maskCores core (fld o.aux 0 32)).foldl (deliverRow core slot c x u) (s, o, 0)
    if bad ≠ 0 then opFail s1 core slot i o1 bad o.dst u else opAdvance s1 core slot i o1
  else if cpRng o.desc then writeRing s core slot i c o x
  else
    let u := opDst s core c o
    match access s core slot c o.dst kCopyW u 64 with
    | (s1, .error f) => opMiss s1 core slot i c o f .copyWrite o.dst u
    | (s1, .ok a) =>
      let d := rowDemotion s1 c a
      if a.tgt = 10 ∨ (cpBe o.desc ∧ a.isSpad = false) then opFail s1 core slot i o 0x07 o.dst u
      else if d = 2 then opFail s1 core slot i o 0x1A o.dst u
      else if a.tgt = 8 ∧ phaseOk s1 c .a false true (keyRow c a.key) = false then opFail s1 core slot i o 0x0F o.dst u
      else
        let s2 := noteDemotion s1 core slot d
        if a.remote then opSend s2 core slot i c o a (rowOp o) (capGen o.dst) x (cpBrow o.desc)
        else opLanded (doneReachedRow (writeUnit s2 a.key 64 x) a.key 64) core slot i c o a.slotKey none 0 o.dst u

/-- Claims the slots of a ring copy, once, as RCLAIM does; the operation waits while the ring is full. -/
def claimSlots (s : State) (core slot i : Nat) (c : Crew) (o : EngOp) : State :=
  let u := unitOf 64 (capCursor o.dst)
  match access s core slot c o.dst kRingCopy u 64 with
  | (s1, .error f) => opMiss s1 core slot i c o f .copyWrite o.dst u
  | (s1, .ok a) =>
    let need := ringNeed (BitVec.ofNat 512 (readUnit s1 a.key 64)) (opRows o)
    if a.tgt = 8 ∧ phaseOk s1 c .a true true (keyRow c a.key) = false then opFail s1 core slot i o 0x0F o.dst u
    else if a.remote then opSend s1 core slot i c o a 0x52 (capGen o.dst) need 0
    else match bankApply s1 0x52 a.key 64 need with
    | (s2, .ok v _) => putOp s2 core slot i { o with claim := some v, heldBy := none }
    | (s2, .wait) => s2
    | (s2, .misuse) => opFail s2 core slot i o 0x0B o.dst u

/-- Commits a slot of a ring in a peer's scratchpad, once its last row is there. -/
def commitFar (s : State) (core slot i : Nat) (c : Crew) (o : EngOp) : State :=
  let u := unitOf 64 (capCursor o.dst)
  match access s core slot c o.dst kRingCopy u 64 with
  | (s1, .error f) => opMiss s1 core slot i c o f .copyWrite o.dst u
  | (s1, .ok a) =>
    let sr := ringSrows (BitVec.ofNat 512 (readUnit s1 a.key 64))
    if (o.next + 1) % sr = 0 ∨ opRows o = o.next + 1 then
      opSend s1 core slot i c o a 0x53 (capGen o.dst) ((o.claim.getD 0 + o.next / sr) % 2 ^ 32) 0
    else opAdvance s1 core slot i o

/-- Reads row `next` of an operation and writes it. -/
def readRow (s : State) (core slot i : Nat) (c : Crew) (o : EngOp) : State :=
  let isList := decide (o.kind = 4) || decide (o.kind = 5)
  let lrow := fld o.aux 0 15 + o.next / 16
  if isList && isPoisoned s (rowFormKey core c lrow) then opFail s core slot i o 0x18 o.src 0
  else if isList && !phaseOk s c .a true false lrow then opFail s core slot i o 0x0F o.src 0
  else
    let u := opSrc s core c o
    match access s core slot c o.src (if o.kind = 1 then kLdv else kCopyR) u 64 with
    | (s1, .error f) => opMiss s1 core slot i c o f (if o.kind = 1 then .ldv else .copyRead) o.src u
    | (s1, .ok a) =>
      -- an LDV met the demotion of its rows at its issue
      let d := if o.kind = 1 then 0 else rowDemotion s1 c a
      if d = 2 then opFail s1 core slot i o 0x1A o.src u
      else if a.tgt = 8 ∧ phaseOk s1 c .a true false (keyRow c a.key) = false then opFail s1 core slot i o 0x0F o.src u
      else
        let s2 := noteDemotion s1 core slot d
        if a.remote then opSend s2 core slot i c o a 0x5A (capGen o.src) 0 0
        else if isPoisoned s2 a.key then opFail s2 core slot i o 0x18 o.src u
        else writeRow s2 core slot i { c with demote := c.demote || decide (d = 1) } o (readUnit s2 a.key 64)

/-- Takes the answer to an operation's request: its row is read, written, or written to a ring slot, its slots are claimed, or
one is committed; a request that failed is the operation's fault. -/
def takeAnswer (s : State) (core slot i : Nat) (c : Crew) (o : EngOp) (m : FabMsg) : State :=
  let r := m.reply.row
  let o1 := { o with req := none }
  if m.phase = 3 then
    -- a ring operation that failed is store-like too (R153, R382)
    let s1 := if m.op % 256 = 0x52 ∨ m.op % 256 = 0x53 then failRecord s m m.cause else s
    opFail s1 core slot i o (remoteCause m) (if m.op % 256 = 0x5A then o.src else o.dst)
      (if m.op % 256 = 0x5A then opSrc s core c o else opDst s core c o)
  else match m.op % 256 with
  | 0x5A => writeRow s core slot i c o1 r.toNat
  | 0x5B => if m.op.testBit 18 then commitFar s core slot i c o1 else opAdvance s core slot i o1
  | 0x52 =>
    (match fld r 64 2 with
     | 0 => putOp s core slot i { o1 with claim := some (fld r 0 64) }
     | 1 => putOp s core slot i o1
     | _ => opFail s core slot i o1 0x0B o.dst (unitOf 64 (capCursor o.dst)))
  | _ => if fld r 64 2 = 0 then opAdvance s core slot i o1
         else opFail s core slot i o1 0x0B o.dst (unitOf 64 (capCursor o.dst))

/-- Moves one row of operation `i` of the crew on a slot, or takes its answer from the fabric. -/
def moveRow (s : State) (core slot i : Nat) : State :=
  match crewAt s core slot with
  | none => s
  | some c =>
    match c.ops[i]? with
    | none => s
    | some o =>
      let paused := debugStopped c && c.ctl.dbgctl.getLsbD 4
      if rowsDone o || o.heldBy.isSome || paused then s
      else match opMsg s o with
      | some m => if m.phase ≤ 1 then s else takeAnswer (dropMsg s m.id) core slot i c o m
      | none =>
        if earlierPending s core slot c o then s
        else if o.kind ≠ 1 ∧ cpRng o.desc = true ∧ o.claim = none then claimSlots s core slot i c o
        else readRow s core slot i c o

/-- COPY_ROW: one row of a copy, gather or scatter (operands: core, slot, operation). -/
def execCopyRow (s : State) : Out := .next (moveRow s s.ev.core s.ev.slot s.ev.idx)

/-! ### Completion (R150, R151) -/

/-- The increment is made, or fails with a cause. -/
def opSignal (s : State) (core slot i : Nat) (o : EngOp) (cause : Nat) : State :=
  if cause = 0 then putOp s core slot i { o with signalled := true, heldBy := none }
  else
    let o1 : EngOp := if o.fault = 0 then { o with fault := cause, faultOff := capCursor o.ccap } else o
    let s1 := putOp s core slot i { o1 with signalled := true, heldBy := none }
    match crewAt s1 core slot with
    | none => s1
    | some c =>
      opRecord (putCrew s1 core slot (deferFault c cause)) core slot c o cause (doneForm o.ccap (capCursor o.ccap)) o.next

/-- An increment that waited for a page: made now, held on at the page fault that it opens, or lost with its record where the pager's
queue is off (R339, R345, R413). -/
def retryIncrement (s : State) (x : Nat × Word × Nat × Bool × Option Nat) : State :=
  let obj := fld x.2.1 40 24
  let off := fld x.2.1 0 40
  match extentMiss s x.1 obj off with
  | none => doneIncrementFor s x.1 x.2.1 x.2.2.1 x.2.2.2.1 x.2.2.2.2
  | some f =>
    match openFault s x.1 f .atomic obj off with
    | (s1, some _) => { s1 with sched := { s1.sched with late := s1.sched.late ++ [x] } }
    | (s1, none) => lostIncrement s1 x.1 x.2.1 x.2.2.1 x.2.2.2.1

/-- The same for a change of TEXTUSE. -/
def retryTextUse (s : State) (x : Nat × Nat × Bool) : State :=
  match lookupObj s x.1 x.2.1 with
  | .ok _ => addTextUse s x.1 x.2.1 x.2.2
  | .error f =>
    if f.cause ≠ 0x06 then s
    else match openFault s x.1 f .load x.2.1 0 with
    | (s1, some _) => { s1 with sched := { s1.sched with textLate := s1.sched.textLate ++ [x] } }
    | (s1, none) => s1

/-- Everything that waits for a page outside the crews is tried again. -/
def retryLate (s : State) : State :=
  let s1 : State := { s with sched := { s.sched with late := [], textLate := [] } }
  s.sched.textLate.foldl retryTextUse (s.sched.late.foldl retryIncrement s1)

/-- COMPLETION_INCREMENT: the signalled increment of operation `idx` (operands: core, slot, operation); with `kind` 1, those that wait
for a page outside the crews. -/
def execCompletionIncrement (s : State) : Out :=
  if s.ev.kind = 1 then .next (retryLate s)
  else
  let core := s.ev.core
  let slot := s.ev.slot
  let i := s.ev.idx
  match crewAt s core slot with
  | none => .next s
  | some c =>
    match c.ops[i]? with
    | none => .next s
    | some o =>
      if !(rowsDone o && opCe o && !o.nulled && !o.signalled && o.heldBy.isNone) then .next s
      else match opMsg s o with
      | some m =>
        if m.phase ≤ 1 then .next s
        else .next (opSignal (dropMsg s m.id) core slot i o (if m.phase = 3 then remoteCause m else 0))
      | none =>
        let u := unitOf 8 (capCursor o.ccap)
        match access s core slot c o.ccap kCount u 8 with
        | (s1, .error f) =>
          if f.cause = 0x06 then
            (match openFault s1 c.tenant f .atomic (capObj o.ccap) u with
             | (s2, some tag) => .next (putOp s2 core slot i { o with heldBy := some tag })
             | (s2, none) => .next (opSignal s2 core slot i o 0x06))
          else .next (opSignal (translationRecord s1 c.tenant (capObj o.ccap) u f) core slot i o f.cause)
        | (s1, .ok a) =>
          if a.tgt = 10 then .next (opSignal s1 core slot i o 0x07)
          else if a.remote then
            .next (opSend s1 core slot i c o a 0x5C (capGen o.ccap) (1 + (if o.fault ≠ 0 then 2 ^ 63 else 0)) 0)
          else if a.tgt = 8 ∧ phaseOk s1 c .a true true (keyRow c a.key) = false then .next (opSignal s1 core slot i o 0x0F)
          else if isPoisoned s1 a.key then .next (opSignal s1 core slot i o 0x18)
          else
            let x := countUp (readUnit s1 a.key 8) 1 (decide (o.fault ≠ 0))
            .next (doneReached (opSignal (wakeRow (writeUnit s1 a.key 8 x) (a.key / 64)) core slot i o 0) a.key)

/-- No operation before number `i` on the same counter is still to be counted down. -/
def opsBefore (ops : List EngOp) (i k : Nat) : Bool := (ops.take i).all fun x => x.fell || decide (opDc x ≠ k)

/-- ENGINE_OPERATION_COMPLETE: operation `idx` has completed and its predecessors on its counter have been counted down;
the counter falls. A fault waits for its join (operands: core, slot, operation). -/
def execEngineOperationComplete (s : State) : Out :=
  let core := s.ev.core
  let slot := s.ev.slot
  let i := s.ev.idx
  match crewAt s core slot with
  | none => .next s
  | some c =>
    match c.ops[i]? with
    | none => .next s
    | some o =>
      if opDone o && !o.fell && opsBefore c.ops i (opDc o) then
        let c1 := dDrop c .a (opDc o)
        .next (putCrew s core slot
          { c1 with ops := if o.fault = 0 then delNth c1.ops i else setNth c1.ops i { o with fell := true } })
      else .next s

/-! ### Returns and bank units -/

/-- Fills the queue entry that waits for a message. -/
def fillEntry (c : Crew) (q id : Nat) (f : QEntry → QEntry) : Crew :=
  setQueue c q ((queueOf c q).map fun e => if e.pending ∧ e.data = BitVec.ofNat 512 id then f e else e)

/-- LOAD_DATA_RETURN: message `idx` of the fabric that an LDQ waits for has been answered: its entry holds the data, or
its failure mark (R134); or, with `flag`, row `next` of LDV number `idx` (operands: core, slot, idx, flag). -/
def execLoadDataReturn (s : State) : Out :=
  if s.ev.flag then
    match crewAt s s.ev.core s.ev.slot with
    | none => .next s
    | some c =>
      match c.ops[s.ev.idx]? with
      | none => .next s
      | some o => .next (if o.kind = 1 then moveRow s s.ev.core s.ev.slot s.ev.idx else s)
  else match s.fabric.msgs.find? fun m => decide (m.id = s.ev.idx) with
  | none => .next s
  | some m =>
    if m.inbound ∨ m.waiter ≠ 2 ∨ m.phase ≤ 1 then .next s
    else
      let s1 := dropMsg s m.id
      match crewAt s1 m.core m.slot with
      | none => .next s1
      | some c =>
        .next (putCrew s1 m.core m.slot (fillEntry c m.widx m.id fun e =>
          if m.phase = 3 then { e with data := 0, pending := false, fail := remoteCause m }
          else { e with data := BitVec.ofNat 512 (m.reply.row.toNat % 2 ^ (8 * m.size)), pending := false }))

/-- KEYED_UPDATE_APPLY: held update `idx` is applied if no smaller key remains (R57). -/
def execKeyedUpdateApply (s : State) : Out := .next (keyedApply s s.ev.idx)

/-- BANK_UPDATE: the bank unit takes the reductions of one row that rest in a core's buffer (operand idx names one of
them) and performs them whole, waking nobody (R55, R139, R142). -/
def execBankUpdate (s : State) : Out :=
  match s.resting[s.ev.idx]? with
  | none => .next s
  | some r => .next (flushWhere s fun x => decide (x.core = r.core) && decide (x.key / 64 = r.key / 64))

/-- WAITSIG_POLL: a waiter that found the monitor table full reads its word again. -/
def execWaitsigPoll (s : State) : Out :=
  match crewAt s s.ev.core s.ev.slot with
  | none => .next s
  | some c =>
    .next (if statusOf c .a = .polling then putCrew s s.ev.core s.ev.slot (setStatus c .a .running) else s)

/-- The access kind of a form. -/
def kindOf : Form → AccKind
  | .load => kLoad
  | .store => kStore
  | .ldq => kLdq
  | .stq => kStq
  | .ldv => kLdv
  | .atomic => kAtom false
  | .ring => kRing
  | .copyRead => kCopyR
  | .copyWrite => kCopyW
  | .fetch => kFetch

/-- TRANSLATION_WALK: a die's translation port resolves an access through the tables: the combined entry it makes is
cached, an absent page becomes a page fault, a refusal a record (operands: die, tenant, cap, off, form). -/
def execTranslationWalk (s : State) : Out :=
  let a := s.ev
  let sp := capSpace a.cap
  if sp < 4 ∨ 6 < sp then .next s
  else match portAccess s a.die a.tenant sp (capObj a.cap) (some (capGen a.cap)) a.off (kindOf a.form) with
  | (s1, .ok _) => .next s1
  | (s1, .error f) =>
    if f.cause = 0x06 then .next (openFault s1 a.tenant f a.form (capObj a.cap) a.off).1
    else .next (translationRecord s1 a.tenant (capObj a.cap) a.off f)

end Sys2Proof.Machine
end

