-- ==== Sys2Proof/Machine/VecOps.lean ====
section
/-!
DEFINITION. Machine/VecOps.lean: operands, activity, repeats and destinations of V instructions (R69 to R74, R81, R137,
R154 to R157).
-/
namespace Sys2Proof.Machine
open FieldCheck

/-! ### What stops a repeat -/

/-- A repeat that does not commit: a wait with its class (R267), or a precise fault. -/
inductive VStop where
  | wait (cls : Nat)
  | fault (cause addr : Nat)
  /-- a failure-marked entry met at a pop: cause, and the PC and offset of the LDQ (R134) -/
  | marked (cause pc addr : Nat)
deriving DecidableEq, Repr

abbrev VM (α : Type) := Except VStop α

/-- The fields a repeat works with: the guard already inverted by N, and the valid count. -/
structure VEnv where
  w : VWord
  guard : Word
  n : Nat
  /-- repeat number -/
  j : Nat
deriving DecidableEq, Repr

def VEnv.ty (v : VEnv) : Nat := v.w.ty.toNat
/-- Element width of the type, and lanes of it in a register. -/
def VEnv.ew (v : VEnv) : Nat := widthOf v.ty
def VEnv.lanes (v : VEnv) : Nat := 512 / v.ew
/-- Lane i of an instruction of `L` lanes is active (R154). -/
def VEnv.act (v : VEnv) (L i : Nat) : Bool := v.guard.getLsbD i && decide (i < min v.n L)
/-- The rounding mode (R159) and the saturating form. -/
def VEnv.mode (v : VEnv) : Nat := if auxRO v.w then auxRM v.w else 0
def VEnv.sat (v : VEnv) : Bool := auxSat v.w

/-- The register number of a register-mode descriptor in a repeat (R73). -/
def dRegNo (d : BitVec 18) (j : Nat) : Nat := ((dBase d : Int) + (j : Int) * dStride d).toNat

/-! ### Sources (R71, R72, R155) -/

/-- The constant of R72 for a type, as the element's bits. -/
def immBits (ty i : Nat) : Nat :=
  if isInt ty then
    let w := widthOf ty
    if i = 0x214 then wrapN (intMax (isSInt ty) w) w
    else if i = 0x215 then wrapN (intMin (isSInt ty) w) w
    else wrapN (sextN i 9) w
  else
    let f := fmtOf ty
    if i < 0x200 then (enc 0 false f (ofInt (sextN i 9))).bits
    else if i ≤ 0x20F then (encFin 0 false f false 1 (-((i - 0x1FF : Nat) : Int))).bits
    else if i = 0x210 then (if f.e4 then f.cnan else f.inf false)
    else if i = 0x211 then (if f.e4 then f.cnan else f.inf true)
    else if i = 0x212 then f.zero true
    else if i = 0x213 then f.cnan
    else if i = 0x214 then f.max false
    else if i = 0x215 then f.max true
    else if i = 0x216 then 2 ^ f.fb
    else 1

/-- Pops a queue. -/
def vPop (c : Crew) (q : Nat) : VM (Row × Crew) :=
  match qPop c q with
  | .empty => .error (.wait 1)
  | .failed cause pc addr => .error (.marked cause pc addr)
  | .data x c1 => .ok (x, c1)

/-- The 64-bit value of a scalar-queue descriptor: popped once per instruction and held, or once per repeat. -/
def vScalar (c : Crew) (d : BitVec 18) (second : Bool) : VM (Word × Crew) :=
  let once := decide (dStrideBits d % 2 = 0)
  match (if once then (if second then c.vctx.d2val else c.vctx.d1val) else none) with
  | some x => .ok (x, c)
  | none =>
    match vPop c (dBase d % 16) with
    | .error e => .error e
    | .ok (r, c1) =>
      let x : Word := r.truncate 64
      .ok (x, if once then
                (if second then { c1 with vctx := { c1.vctx with d2val := some x } }
                 else { c1 with vctx := { c1.vctx with d1val := some x } })
              else c1)

/-- An element-vector source read in type `ty`. -/
def vSrc (c : Crew) (v : VEnv) (d : BitVec 18) (second : Bool) (ty : Nat) : VM (Row × Crew) :=
  let w := widthOf ty
  match dMode d with
  | 0 => .ok (vRead c (dRegNo d v.j), c)
  | 1 => vPop c (dBase d % 16)
  | 2 =>
    match vScalar c d second with
    | .error e => .error e
    | .ok (x, c1) => .ok (rowOf w (512 / w) fun _ => x.toNat, c1)
  | _ => .ok (rowOf w (512 / w) fun _ => immBits ty (dBase d), c)

/-! ### Destinations (R71, R81, R154) -/

/-- Elements of width `w`: new where active, else those of `old`. -/
def mergeRow (w : Nat) (act : Nat → Bool) (new : Nat → Nat) (old : Row) : Row :=
  rowOf w (512 / w) fun i => if act i then new i else rowElem old w i

/-- Writes a register, pushes a row, or pushes element 0. DESIGN CHOICE (log 106): a row that a reduction, MPOP or MFIRST pushes
holds zeros beside element 0 (R173 and R175 speak of a register and of a scalar queue). -/
def vDst (c : Crew) (d : BitVec 18) (j w : Nat) (act : Nat → Bool) (new : Nat → Nat) : VM Crew :=
  match dMode d with
  | 0 => .ok (vWrite c (dRegNo d j) (mergeRow w act new (vRead c (dRegNo d j))))
  | m =>
    let q := dBase d % 16
    let row := mergeRow w act new 0
    if !qRoom c q then .error (.wait 2)
    else .ok (qPush c q (if m = 1 then row else BitVec.ofNat 512 (rowElem row w 0)))

/-- A mask position of a repeat (R157). -/
def maskNo (base j : Nat) (d : BitVec 18) : Nat := ((base : Int) + (j : Int) * dStride d).toNat

/-- Writes the two masks of a compare, the second after the first (R162). -/
def vMasks (c : Crew) (v : VEnv) (L : Nat) (cond : Nat → Bool) : Crew :=
  let m1 := BitVec.ofNat 64 ((List.range L).foldl (fun a i => a + if v.act L i && cond i then 2 ^ i else 0) 0)
  let m2 := BitVec.ofNat 64 ((List.range L).foldl (fun a i => a + if v.act L i && !cond i then 2 ^ i else 0) 0)
  mWrite (mWrite c (maskNo (dBase v.w.d0 % 16) v.j v.w.d0) m1) (maskNo (auxMD2 v.w) v.j v.w.d0) m2

/-! ### Repeats (R155) -/

/-- Queues that a V word names, whose other endpoint must be active (R258). -/
def vQueues (i : Instr) : List Nat :=
  match vspecOf i with
  | none => []
  | some (w, sp) =>
    ([(w.d0, sp.d0), (w.d1, sp.d1), (w.d2, sp.d2)].filter fun p =>
      decide (p.2 ≠ .none) && decide (p.2 ≠ .mask) && (decide (dMode p.1 = 1) || decide (dMode p.1 = 2))).map
        fun p => dBase p.1 % 16

/-- Instructions whose destination register is also an operand (R160, R227, R231): the others only write it. -/
def readsDest : Instr → Bool
  | .vfma _ => true
  | .vfms _ => true
  | .rfma _ => true
  | .unfma _ => true
  | _ => false

/-- Vector registers read in a repeat, whose poison stops it with 0x18 (R421). -/
def vReads (i : Instr) (j : Nat) : List Nat :=
  match vspecOf i with
  | none => []
  | some (w, sp) =>
    dRegList w.d1 sp.d1 j ++ dRegList w.d2 sp.d2 j ++ (if readsDest i then dRegList w.d0 sp.d0 j else [])

/-- Whether a repeat writes every bit of the registers of D0: its lanes are all active, and they fill the register. -/
def coversDest (i : Instr) (v : VEnv) : Bool :=
  let all (L : Nat) : Bool := (List.range L).all fun k => v.act L k
  match i with
  | .vrsum _ => false
  | .vrmax _ => false
  | .vrmin _ => false
  | .mpop _ => false
  | .mfirst _ => false
  | .vpack _ => false
  | .rnar _ => false
  | .unnar _ => all 16
  | .vsel _ => decide (v.lanes ≤ v.n)
  | .vcvt src _ => decide (widthOf src.toNat ≤ v.ew) && all v.lanes
  | _ => all v.lanes

/-- The positions of the remainder stack that an instruction pushed to hold no poison (R421). -/
def clearPushed (s : State) (c c1 : Crew) : State :=
  (List.range (c1.rem.rdepth - c.rem.rdepth)).foldl
    (fun s k => clearUnit s s.cur.core s.cur.slot 3 (c.rem.rdepth + k)) s

/-- After a repeat that took the crew from `c` to `c1`: the registers of D0 lose their poison when every bit of them was
written, and so do the positions of the remainder stack that it pushed to (R421). -/
def vClear (s : State) (i : Instr) (v : VEnv) (c c1 : Crew) : State :=
  let s1 := clearPushed s c c1
  match vspecOf i with
  | none => s1
  | some (w, sp) =>
    if coversDest i v then (dRegList w.d0 sp.d0 v.j).foldl (fun s r => clearUnit s s.cur.core s.cur.slot 0 r) s1
    else s1

/-- Repeats VREP and on, each committed as it completes. The reversible class reserves room, or checks its stack, before it reads a
source (R224, R230). DEDUCED (log 105): a marked entry's LDQ gives TPC, as it gives the PC of the record (R134, R155). -/
def vRepeats (i : Instr) (w : VWord) (body : State → Crew → VEnv → VM Crew) (s : State) : Nat → Crew → Out
  | 0, c => done s { c with vctx := { vrep := 0, guard := none, d1val := none, d2val := none } } .v 12
  | fuel + 1, c =>
    let j := c.vctx.vrep
    let v : VEnv := { w := w, guard := (if w.neg then ~~~(c.vctx.guard.getD 0) else c.vctx.guard.getD 0), n := nRead c .v w.nsel, j := j }
    if vWaitsForLdv s s.cur.core c (vRegsAt i j) then wait s c .v 7
    else if isReversible i && vWaitsForMrdrain s s.cur.core c then wait s c .v 7
    else if !isReversible i && (vReads i j).any fun r => unitPoisoned s s.cur.core s.cur.slot 0 r then raiseHere s c .v 0x18 0
    else match body s c v with
    | .error (.wait cls) => wait s c .v cls
    | .error (.fault cause addr) => raiseHere s c .v cause addr
    | .error (.marked cause pc addr) =>
      .next (raise s s.cur.core s.cur.slot c { faultInfo c .v cause addr with pc := pc })
    | .ok c1 =>
      vRepeats i w body (vClear s i v c c1) fuel (clearStall { c1 with vctx := { c1.vctx with vrep := j + 1 } })

/-- A V instruction: its queues' endpoints are active, its guard mask is read once, and its repeats run in order. -/
def vExec (i : Instr) (w : VWord) (body : State → Crew → VEnv → VM Crew) (s : State) : Out :=
  onCrew s .v fun c =>
    match (vQueues i).find? (fun q => !peerActive c .v q) with
    | some q => raiseHere s c .v 0x0B q
    | none =>
      let m := mRead c w.g.toNat
      let c1 := match c.vctx.guard with
        | some _ => c
        | none => { c with vctx := { c.vctx with guard := some m } }
      vRepeats i w body s (repOf w - c1.vctx.vrep) c1

/-! ### Lane forms -/

/-- Sets the flags of the active lanes and writes their results. -/
def vLanes (c : Crew) (v : VEnv) (f : Nat → FRes) : VM Crew :=
  let rs := (List.range v.lanes).map f
  let fl := (List.range v.lanes).foldl (fun a i => if v.act v.lanes i then a ||| (rs.getD i ⟨0, 0⟩).flags else a) 0
  vDst (setFlags c fl) v.w.d0 v.j v.ew (v.act v.lanes) fun i => (rs.getD i ⟨0, 0⟩).bits

/-- One source: lane i is f of a[i]. -/
def vUn (i : Instr) (w : VWord) (f : VEnv → Nat → FRes) (s : State) : Out :=
  vExec i w (fun _ c v => do
    let (a, c1) ← vSrc c v w.d1 false v.ty
    vLanes c1 v fun k => f v (rowElem a v.ew k)) s

/-- Two sources. -/
def vBin (i : Instr) (w : VWord) (f : VEnv → Nat → Nat → FRes) (s : State) : Out :=
  vExec i w (fun _ c v => do
    let (a, c1) ← vSrc c v w.d1 false v.ty
    let (b, c2) ← vSrc c1 v w.d2 true v.ty
    vLanes c2 v fun k => f v (rowElem a v.ew k) (rowElem b v.ew k)) s

/-- Two sources and the old destination. -/
def vTer (i : Instr) (w : VWord) (f : VEnv → Nat → Nat → Nat → FRes) (s : State) : Out :=
  vExec i w (fun _ c v => do
    let (a, c1) ← vSrc c v w.d1 false v.ty
    let (b, c2) ← vSrc c1 v w.d2 true v.ty
    let d := vRead c2 (dRegNo w.d0 v.j)
    vLanes c2 v fun k => f v (rowElem a v.ew k) (rowElem b v.ew k) (rowElem d v.ew k)) s

/-- A floating operation rounded to the instruction's type. -/
def vRound (v : VEnv) (x : Fv × BitVec 6) : FRes := encOp v.mode v.sat (fmtOf v.ty) x

/-- An integer result: wrapped, or the nearest bound of R21 with SAT. -/
def vInt (v : VEnv) (x : Int) : FRes :=
  ⟨wrapN (if v.sat then clampInt (isSInt v.ty) v.ew x else x) v.ew, 0⟩

/-- An integer element's value. -/
def vVal (v : VEnv) (b : Nat) : Int := intOf (isSInt v.ty) v.ew b

end Sys2Proof.Machine
end

