-- ==== Sys2Proof/Machine/Vector.lean ====
section
/-!
DEFINITION. Machine/Vector.lean: the vector instructions but the reversible class (R159 to R175).
-/
namespace Sys2Proof.Machine
open FieldCheck

/-! ### Floating arithmetic (R159, R160) -/

/-- A value of the instruction's floating type. -/
def vFv (v : VEnv) (b : Nat) : Fv := fval (fmtOf v.ty) b

def execVadd (w : VWord) (s : State) : Out :=
  vBin (.vadd w) w (fun v a b => vRound v (fadd v.mode (vFv v a) (vFv v b))) s
def execVsub (w : VWord) (s : State) : Out :=
  vBin (.vsub w) w (fun v a b => vRound v (fadd v.mode (vFv v a) (vFv v b).neg)) s
def execVmul (w : VWord) (s : State) : Out :=
  vBin (.vmul w) w (fun v a b => vRound v (fmul (vFv v a) (vFv v b))) s
def execVfma (w : VWord) (s : State) : Out :=
  vTer (.vfma w) w (fun v a b d => vRound v (fmadd v.mode (vFv v a) (vFv v b) (vFv v d))) s
def execVfms (w : VWord) (s : State) : Out :=
  vTer (.vfms w) w (fun v a b d => vRound v (fmadd v.mode (vFv v a).neg (vFv v b) (vFv v d))) s
def execVmin (w : VWord) (s : State) : Out :=
  vBin (.vmin w) w (fun v a b => ⟨fminmax false (fmtOf v.ty) a b, 0⟩) s
def execVmax (w : VWord) (s : State) : Out :=
  vBin (.vmax w) w (fun v a b => ⟨fminmax true (fmtOf v.ty) a b, 0⟩) s

/-- VABS: the sign bit cleared, or |x| of an integer. -/
def execVabs (w : VWord) (s : State) : Out :=
  vUn (.vabs w) w
    (fun v a => if isInt v.ty then vInt v ((vVal v a).natAbs : Int) else ⟨a % 2 ^ (v.ew - 1), 0⟩) s

def execVrcp (w : VWord) (s : State) : Out :=
  vUn (.vrcp w) w (fun v a => frcp v.mode v.sat (fmtOf v.ty) (vFv v a)) s
def execVrsq (w : VWord) (s : State) : Out :=
  vUn (.vrsq w) w (fun v a => frsq v.mode v.sat (fmtOf v.ty) (vFv v a)) s
def execVsqrt (w : VWord) (s : State) : Out :=
  vUn (.vsqrt w) w (fun v a => fsqrt v.mode v.sat (fmtOf v.ty) (vFv v a)) s
def execVexp2 (w : VWord) (s : State) : Out :=
  vUn (.vexp2 w) w (fun v a => fexp2 v.mode v.sat (fmtOf v.ty) (vFv v a)) s
def execVlog2 (w : VWord) (s : State) : Out :=
  vUn (.vlog2 w) w (fun v a => flog2 v.mode v.sat (fmtOf v.ty) (vFv v a)) s

/-! ### Integer arithmetic (R161) -/

def execViadd (w : VWord) (s : State) : Out := vBin (.viadd w) w (fun v a b => vInt v (vVal v a + vVal v b)) s
def execVisub (w : VWord) (s : State) : Out := vBin (.visub w) w (fun v a b => vInt v (vVal v a - vVal v b)) s
def execVimul (w : VWord) (s : State) : Out := vBin (.vimul w) w (fun v a b => vInt v (vVal v a * vVal v b)) s
/-- VSHL: the count is the element taken unsigned, modulo the width. -/
def execVshl (w : VWord) (s : State) : Out :=
  vBin (.vshl w) w (fun v a b => vInt v (vVal v a * ((2 ^ (b % v.ew) : Nat) : Int))) s
/-- VSHR: arithmetic for signed types, logical for unsigned ones. -/
def execVshr (w : VWord) (s : State) : Out :=
  vBin (.vshr w) w (fun v a b => ⟨wrapN (vVal v a / ((2 ^ (b % v.ew) : Nat) : Int)) v.ew, 0⟩) s
def execVand (w : VWord) (s : State) : Out := vBin (.vand w) w (fun _ a b => ⟨Nat.land a b, 0⟩) s
def execVor (w : VWord) (s : State) : Out := vBin (.vor w) w (fun _ a b => ⟨Nat.lor a b, 0⟩) s
def execVxor (w : VWord) (s : State) : Out := vBin (.vxor w) w (fun _ a b => ⟨Nat.xor a b, 0⟩) s
def execVimin (w : VWord) (s : State) : Out :=
  vBin (.vimin w) w (fun v a b => ⟨if vVal v b < vVal v a then b else a, 0⟩) s
def execVimax (w : VWord) (s : State) : Out :=
  vBin (.vimax w) w (fun v a b => ⟨if vVal v a < vVal v b then b else a, 0⟩) s

/-! ### Compares and classes (R162, R163) -/

/-- A compare: the floating and the integer condition. -/
def vCmp (i : Instr) (w : VWord) (f : Fv → Fv → Bool) (g : Int → Int → Bool) (s : State) : Out :=
  vExec i w (fun _ c v => do
    let (a, c1) ← vSrc c v w.d1 false v.ty
    let (b, c2) ← vSrc c1 v w.d2 true v.ty
    return vMasks c2 v v.lanes fun k =>
      let x := rowElem a v.ew k
      let y := rowElem b v.ew k
      if isInt v.ty then g (vVal v x) (vVal v y) else f (vFv v x) (vFv v y)) s

def execVcmpEq (w : VWord) (s : State) : Out := vCmp (.vcmpEq w) w fvEq (fun x y => decide (x = y)) s
def execVcmpNe (w : VWord) (s : State) : Out :=
  vCmp (.vcmpNe w) w (fun x y => !fvEq x y) (fun x y => decide (x ≠ y)) s
def execVcmpLt (w : VWord) (s : State) : Out := vCmp (.vcmpLt w) w (fvLt false) (fun x y => decide (x < y)) s
def execVcmpLe (w : VWord) (s : State) : Out :=
  vCmp (.vcmpLe w) w (fun x y => fvLt false x y || fvEq x y) (fun x y => decide (x ≤ y)) s
def execVcmpGt (w : VWord) (s : State) : Out :=
  vCmp (.vcmpGt w) w (fun x y => fvLt false y x) (fun x y => decide (y < x)) s
def execVcmpGe (w : VWord) (s : State) : Out :=
  vCmp (.vcmpGe w) w (fun x y => fvLt false y x || fvEq x y) (fun x y => decide (y ≤ x)) s
def execVcmpUo (w : VWord) (s : State) : Out :=
  vCmp (.vcmpUo w) w (fun x y => x.isNan || y.isNan) (fun _ _ => false) s

/-- The class of a pattern, by the bit numbers of R163. -/
def classOf (f : Fmt) (b : Nat) : Nat :=
  match fval f b with
  | .nan => 0
  | .inf s => if s then 1 else 8
  | .fin s m _ =>
    if m = 0 then (if s then 4 else 5)
    else if m < 2 ^ f.fb then (if s then 3 else 6)
    else if s then 2 else 7

def execVclass (w : VWord) (s : State) : Out :=
  vExec (.vclass w) w (fun _ c v => do
    let (a, c1) ← vSrc c v w.d1 false v.ty
    return vMasks c1 v v.lanes fun k => (dBase w.d2).testBit (classOf (fmtOf v.ty) (rowElem a v.ew k))) s

/-! ### Moving data (R164 to R169) -/

/-- VSEL: the guard selects; lanes at and beyond the valid count keep their bits, or are zero in a pushed row. -/
def execVsel (w : VWord) (s : State) : Out :=
  vExec (.vsel w) w (fun _ c v => do
    let (a, c1) ← vSrc c v w.d1 false v.ty
    let (b, c2) ← vSrc c1 v w.d2 true v.ty
    vDst c2 w.d0 v.j v.ew (fun k => decide (k < min v.n v.lanes)) fun k =>
      if v.guard.getLsbD k then rowElem a v.ew k else rowElem b v.ew k) s

def execVperm (w : VWord) (s : State) : Out :=
  vExec (.vperm w) w (fun _ c v => do
    let (a, c1) ← vSrc c v w.d1 false v.ty
    let (x, c2) ← vSrc c1 v w.d2 true v.ty
    vDst c2 w.d0 v.j v.ew (v.act v.lanes) fun k => rowElem a v.ew (rowElem x v.ew k % v.lanes)) s

/-- VROTM: 64 bytes of the 128-byte string of two registers. -/
def execVrotm (w : VWord) (s : State) : Out :=
  vExec (.vrotm w) w (fun _ c v => do
    let r := dRegNo w.d1 v.j
    let (sh, c1) ← (if dMode w.d2 = 3 then .ok (dBase w.d2, c) else do
      let (x, c1) ← vScalar c w.d2 true
      return (x.toNat % 64, c1))
    let str := (vRead c1 r).toNat + 2 ^ 512 * (vRead c1 (r + 1)).toNat
    let row : Row := BitVec.ofNat 512 (str / 2 ^ (8 * sh))
    vDst c1 w.d0 v.j v.ew (v.act v.lanes) fun k => rowElem row v.ew k) s

def execVbcast (w : VWord) (s : State) : Out :=
  vExec (.vbcast w) w (fun _ c v => do
    let (a, c1) ← vSrc c v w.d1 false v.ty
    let (k, c2) ← (if dMode w.d2 = 3 then .ok (dBase w.d2, c1) else do
      let (x, c2) ← vScalar c1 w.d2 true
      return (x.toNat % 64 % v.lanes, c2))
    vDst c2 w.d0 v.j v.ew (v.act v.lanes) fun _ => rowElem a v.ew k) s

/-- Writes two registers, d and d + 1, or pushes two rows. -/
def vDst2 (c : Crew) (v : VEnv) (x y : Nat → Nat) : VM Crew :=
  let act := v.act v.lanes
  if dMode v.w.d0 = 0 then
    let d := dRegNo v.w.d0 v.j
    .ok (vWrite (vWrite c d (mergeRow v.ew act x (vRead c d))) (d + 1) (mergeRow v.ew act y (vRead c (d + 1))))
  else
    let q := dBase v.w.d0 % 16
    if qDepth q < (queueOf c q).length + 2 then .error (.wait 2)
    else .ok (qPush (qPush c q (mergeRow v.ew act x 0)) q (mergeRow v.ew act y 0))

def execVzip (w : VWord) (s : State) : Out :=
  vExec (.vzip w) w (fun _ c v => do
    let (a, c1) ← vSrc c v w.d1 false v.ty
    let (b, c2) ← vSrc c1 v w.d2 true v.ty
    let el (base k : Nat) : Nat := if k % 2 = 0 then rowElem a v.ew (base + k / 2) else rowElem b v.ew (base + k / 2)
    vDst2 c2 v (el 0) (el (v.lanes / 2))) s

def execVunzip (w : VWord) (s : State) : Out :=
  vExec (.vunzip w) w (fun _ c v => do
    let (a, c1) ← vSrc c v w.d1 false v.ty
    let (b, c2) ← vSrc c1 v w.d2 true v.ty
    let el (k : Nat) : Nat := if k < v.lanes then rowElem a v.ew k else rowElem b v.ew (k - v.lanes)
    vDst2 c2 v (fun k => el (2 * k)) (fun k => el (2 * k + 1))) s

def execVmov (w : VWord) (s : State) : Out := vUn (.vmov w) w (fun _ a => ⟨a, 0⟩) s

/-! ### Conversions (R170 to R172) -/

/-- One lane of a conversion between format codes. -/
def convert (mode : Nat) (sat : Bool) (src dst x : Nat) : FRes :=
  if isInt src then
    let i := intOf (isSInt src) (widthOf src) x
    if isInt dst then
      ⟨wrapN (if sat then clampInt (isSInt dst) (widthOf dst) i else i) (widthOf dst), 0⟩
    else enc mode sat (fmtOf dst) (ofInt i)
  else if isInt dst then toInt mode (isSInt dst) (widthOf dst) (fval (fmtOf src) x)
  else enc mode sat (fmtOf dst) (fval (fmtOf src) x)

/-- The part of a VCVT or RNAR: 0, or the immediate index. -/
def partOf (d : BitVec 18) : Nat := if d.toNat = 0 then 0 else dBase d

/-- VCVT: lane i on whichever side is narrower is element p·L + i. -/
def execVcvt (src : BitVec 5) (w : VWord) (s : State) : Out :=
  vExec (.vcvt src w) w (fun _ c v => do
    let ws := widthOf src.toNat
    let wd := v.ew
    let L := 512 / max ws wd
    let off := partOf w.d2 * L
    let so := if ws < wd then off else 0
    let d0 := if wd < ws then off else 0
    let (a, c1) ← vSrc c v w.d1 false src.toNat
    let rs := (List.range L).map fun k => convert v.mode v.sat src.toNat v.ty (rowElem a ws (so + k))
    let fl := (List.range L).foldl (fun acc k => if v.act L k then acc ||| (rs.getD k ⟨0, 0⟩).flags else acc) 0
    vDst (setFlags c1 fl) w.d0 v.j wd (fun e => decide (d0 ≤ e) && decide (e < d0 + L) && v.act L (e - d0))
      fun e => (rs.getD (e - d0) ⟨0, 0⟩).bits) s

/-- The codebook of R29: the signed numerator k of level k/256. -/
def qnLevel (code : Nat) : Int :=
  [-256, -178, -134, -101, -73, -47, -23, 0, 20, 41, 63, 86, 113, 144, 185, 256].getD code 0

/-- σ and S of a popped scale value (R171). -/
def scaleSigma (x : Word) : Nat := x.toNat % 256
def scaleS (x : Word) : Nat := fld x 32 32

/-- |256·a/z - k| over a common denominator, for z > 0. -/
def qnDist (a z k : Int) : Nat := (256 * a - k * z).natAbs

/-- The code whose level is nearest a/z; on a tie, the one of smaller |k|. -/
def qnNearest (a z : Int) : Nat :=
  (List.range 16).foldl (fun best c =>
    let d := qnDist a z (qnLevel c)
    let db := qnDist a z (qnLevel best)
    if d < db ∨ (d = db ∧ (qnLevel c).natAbs < (qnLevel best).natAbs) then c else best) 0

/-- One lane of VPACK. -/
def packLane (f : Fmt) (sigma S x : Nat) : FRes :=
  match fval fF32 S with
  | .nan => ⟨7, flIf (decide (sigma ≠ 0)) flNV⟩
  | .inf _ => ⟨7, flIf (decide (sigma ≠ 0)) flNV⟩
  | .fin ss ms es =>
    if sigma = 0 ∨ ms = 0 then ⟨7, 0⟩
    else match fval f x with
    | .nan => ⟨7, flNV⟩
    | .inf s => ⟨if s != ss then 0 else 15, flNX⟩
    | .fin s m e =>
      let e0 := min e es
      let a := scaled (s != ss) m e e0
      let z := scaled false (ms * sigma) es e0
      let code := qnNearest a z
      ⟨code, flIf (decide (qnDist a z (qnLevel code) ≠ 0)) flNX⟩

/-- VPACK: repeat j writes part j mod P of code register j div P. -/
def execVpack (w : VWord) (s : State) : Out :=
  vExec (.vpack w) w (fun _ c v => do
    let L := v.lanes
    let P := 128 / L
    let (a, c1) ← vSrc c v w.d1 false v.ty
    let (x, c2) ← vScalar c1 w.d2 true
    let r := ((dBase w.d0 : Int) + ((v.j / P : Nat) : Int) * dStride w.d0).toNat
    let p := v.j % P
    let rs := (List.range L).map fun k => packLane (fmtOf v.ty) (scaleSigma x) (scaleS x) (rowElem a v.ew k)
    let fl := (List.range L).foldl (fun acc k => if v.act L k then acc ||| (rs.getD k ⟨0, 0⟩).flags else acc) 0
    let row := mergeRow 4 (fun e => decide (p * L ≤ e) && decide (e < p * L + L) && v.act L (e - p * L))
      (fun e => (rs.getD (e - p * L) ⟨0, 0⟩).bits) (vRead c2 r)
    return vWrite (setFlags c2 fl) r row) s

/-- The value of a code under σ and S (R31), with its flag (R172). -/
def qnValue (code sigma S : Nat) : Fv × BitVec 6 :=
  let k := qnLevel code
  if sigma = 0 then (.fin false 0 0, 0)
  else fmul (.fin (decide (k < 0)) (k.natAbs * sigma) (-8)) (fval fF32 S)

/-- VUNPACK: repeat j reads part j mod P of code register j div P. -/
def execVunpack (w : VWord) (s : State) : Out :=
  vExec (.vunpack w) w (fun _ c v => do
    let L := v.lanes
    let P := 128 / L
    let (x, c1) ← (if dMode w.d2 = 3 then .ok (none, c) else do
      let (x, c1) ← vScalar c w.d2 true
      return (some x, c1))
    let r := ((dBase w.d1 : Int) + ((v.j / P : Nat) : Int) * dStride w.d1).toNat
    let codes := vRead c1 r
    let p := v.j % P
    vLanes c1 v fun k =>
      let code := rowElem codes 4 (p * L + k)
      vRound v (match x with
        | none => (.fin (decide (qnLevel code < 0)) (qnLevel code).natAbs (-8), 0)
        | some y => qnValue code (scaleSigma y) (scaleS y))) s

/-! ### Reductions (R50, R173) -/

/-- One level of the pairwise tree; an absent lane passes the other's bits. -/
def treeLevel (op : Nat → Nat → FRes) : List (Option FRes) → List (Option FRes)
  | [] => []
  | [x] => [x]
  | a :: b :: rest =>
    (match a, b with
     | none, y => y
     | x, none => x
     | some x, some y => some ((op x.bits y.bits).or (x.flags ||| y.flags))) :: treeLevel op rest

/-- The root of the tree over a power of two of lanes. -/
def treeRoot (op : Nat → Nat → FRes) (lanes : List (Option FRes)) : Option FRes :=
  (iter (treeLevel op) (Nat.log2 lanes.length) lanes).head?.getD none

/-- A reduction of the active lanes: each lane's leaf, the operator, the empty result and the last rounding. -/
def vReduce (i : Instr) (w : VWord) (leaf : VEnv → Nat → Nat) (op : VEnv → Nat → Nat → FRes) (empty : VEnv → Nat)
    (root : VEnv → Nat → FRes) (s : State) : Out :=
  vExec i w (fun _ c v => do
    let (a, c1) ← vSrc c v w.d1 false v.ty
    let lanes := (List.range v.lanes).map fun k =>
      if v.act v.lanes k then some (FRes.mk (leaf v (rowElem a v.ew k)) 0) else none
    let r : FRes := match treeRoot (op v) lanes with
      | none => ⟨empty v, 0⟩
      | some x => (root v x.bits).or x.flags
    vDst (setFlags c1 r.flags) w.d0 v.j v.ew (fun k => decide (k = 0)) fun _ => r.bits) s

/-- VRSUM: in .f32 in the selected mode; in the 16-bit formats over FP32 nodes in rne, rounded once at the root. -/
def execVrsum (w : VWord) (s : State) : Out :=
  vReduce (.vrsum w) w
    (fun v x => if isInt v.ty ∨ v.ty = 8 then x else (enc 0 false fF32 (vFv v x)).bits)
    (fun v x y =>
      if isInt v.ty then ⟨(x + y) % 2 ^ v.ew, 0⟩
      else if v.ty = 8 then encOp v.mode false fF32 (fadd v.mode (fval fF32 x) (fval fF32 y))
      else add32 x y)
    (fun _ => 0)
    (fun v x => if isInt v.ty ∨ v.ty = 8 then ⟨x, 0⟩ else enc v.mode false (fmtOf v.ty) (fval fF32 x)) s

/-- VRMAX and VRMIN over R40, or over integers by type. -/
def vExtreme (mx : Bool) (i : Instr) (w : VWord) (s : State) : Out :=
  vReduce i w (fun _ x => x)
    (fun v x y =>
      if isInt v.ty then
        ⟨if mx then (if vVal v x < vVal v y then y else x) else (if vVal v y < vVal v x then y else x), 0⟩
      else ⟨fminmax mx (fmtOf v.ty) x y, 0⟩)
    (fun v =>
      if isInt v.ty then wrapN (if mx then intMin (isSInt v.ty) v.ew else intMax (isSInt v.ty) v.ew) v.ew
      else (fmtOf v.ty).inf mx)
    (fun _ x => ⟨x, 0⟩) s

def execVrmax (w : VWord) (s : State) : Out := vExtreme true (.vrmax w) w s
def execVrmin (w : VWord) (s : State) : Out := vExtreme false (.vrmin w) w s

/-! ### Mask logic (R174, R175) -/

/-- A mask operand of a repeat. -/
def vMask (c : Crew) (d : BitVec 18) (j : Nat) : Word := mRead c (maskNo (dBase d % 16) j d)

def execMlogic (w : VWord) (s : State) : Out :=
  vExec (.mlogic w) w (fun _ c v =>
    let a := vMask c w.d1 v.j
    let b := vMask c w.d2 v.j
    let old := vMask c w.d0 v.j
    let bit (i : Nat) : Bool :=
      if v.act 64 i then w.ty.getLsbD (2 * (a.getLsbD i).toNat + (b.getLsbD i).toNat) else old.getLsbD i
    .ok (mWrite c (maskNo (dBase w.d0 % 16) v.j w.d0)
      (BitVec.ofNat 64 ((List.range 64).foldl (fun acc i => acc + if bit i then 2 ^ i else 0) 0)))) s

/-- Bits of a mask that count for MPOP and MFIRST. -/
def liveBits (c : Crew) (v : VEnv) : List Nat :=
  (List.range v.lanes).filter fun i => (vMask c v.w.d1 v.j).getLsbD i && v.act v.lanes i

def execMpop (w : VWord) (s : State) : Out :=
  vExec (.mpop w) w (fun _ c v => vDst c w.d0 v.j v.ew (fun k => decide (k = 0)) fun _ => (liveBits c v).length) s
def execMfirst (w : VWord) (s : State) : Out :=
  vExec (.mfirst w) w (fun _ c v =>
    vDst c w.d0 v.j v.ew (fun k => decide (k = 0)) fun _ => (liveBits c v).head?.getD v.lanes) s

end Sys2Proof.Machine
end

