-- ==== Sys2Proof/Machine/Reversible.lean ====
section
/-!
DEFINITION. Machine/Reversible.lean: the remainder stack and the reversible vector class (R220 to R233, R59).
-/
namespace Sys2Proof.Machine
open FieldCheck

/-! ### The stack (R220 to R225) -/

/-- Rows of a slot's window (R220). -/
def windowRows : Nat := 4096

/-- Spill capacity Cs of a crew's launch, in rows (R222, R303). -/
def spillCap (s : State) (c : Crew) : Nat := ((launchById s c.launch).map fun l => 64 * fld l.rem 0 16).getD 0

/-- High-water mark H (R223, R303). -/
def highWater (s : State) (c : Crew) : Nat :=
  match launchById s c.launch with
  | some l => if fld l.rem 16 6 = 0 then 3072 else 64 * fld l.rem 16 6
  | none => 3072

/-- Byte offset of a crew's spill area in the remainder object (R222). -/
def spillBase (s : State) (c : Crew) : Nat := c.rank * (66 * spillCap s c)

/-- The remainder object of a crew's launch. -/
def spillObj (s : State) (c : Crew) : Nat := ((launchById s c.launch).map fun l => fld l.rem 40 24).getD 0

/-- Byte offsets of a spilled row and of its tag. -/
def spillRowAt (s : State) (c : Crew) (i : Nat) : Nat := spillBase s c + 64 * i
def spillTagAt (s : State) (c : Crew) (i : Nat) : Nat := spillBase s c + 64 * spillCap s c + 2 * i

/-- Tag of a row of the window. -/
def windowTag (c : Crew) (i : Nat) : Nat := (spGet c.rem.tag i).toNat

/-- Key of a byte of the spill area; none while its frame has still to be pulled (R236, R413) or the walk to it fails. -/
def spillKey (s : State) (c : Crew) (off : Nat) : Option Nat :=
  if extentPend s c.tenant (spillObj s c) off then none else extentKey s c.tenant (spillObj s c) off

/-- Tag of a stack row: in the window, or in the spill area, where it can be read. -/
def stackTag (s : State) (c : Crew) (i : Nat) : Option Nat :=
  if c.rem.rspill ≤ i then some (windowTag c i)
  else (spillKey s c (spillTagAt s c i)).map fun k => memReadN s.mem k 2

/-- Rows in the window. -/
def inWindowRows (c : Crew) : Nat := c.rem.rdepth - c.rem.rspill

/-- Pushes a row with its tag. -/
def pushRow (c : Crew) (r : Row) (tag : Nat) : Crew :=
  { c with rem := { c.rem with rdepth := c.rem.rdepth + 1, row := spSet c.rem.row c.rem.rdepth r,
                               tag := spSet c.rem.tag c.rem.rdepth (BitVec.ofNat 16 tag) } }

/-- Drops rows down to a depth; RSPILL does not exceed it (R233). -/
def cutTo (c : Crew) (d : Nat) : Crew :=
  { c with rem := { rdepth := d, rspill := min c.rem.rspill d, row := spKeep c.rem.row 0 d, tag := spKeep c.rem.tag 0 d } }

/-- Room for `k` rows (R224): none to proceed, else the wait or overflow. -/
def stackRoom (s : State) (c : Crew) (k : Nat) : Option VStop :=
  let free := windowRows - inWindowRows c
  if k ≤ free then none
  else if k ≤ free + (spillCap s c - c.rem.rspill) then some (.wait 0xD)
  else some (.fault 0x0E 0)

/-- Classes of R225. -/
def clsOf (tag : Nat) : Nat := tag / 2 ^ 13 % 8
def typOf (tag : Nat) : Nat := tag / 2 ^ 9 % 16
def cntOf (tag : Nat) : Nat := tag / 4 % 128
def eOf (tag : Nat) : Bool := decide (tag / 2 % 2 = 1)

/-- A residue or escape row's tag. -/
def mkTag (cls ty cnt : Nat) (e : Bool) : Nat := cls * 2 ^ 13 + ty % 16 * 2 ^ 9 + cnt * 4 + (if e then 2 else 0)

/-! ### Lanes (R227 to R231) -/

/-- The five pairs. -/
inductive RevOp where
  | mul | add | fma | nar | lrelu
deriving DecidableEq, Repr

/-- Class of the topmost residue row, and whether two rows are pushed. -/
def RevOp.cls : RevOp → Nat
  | .mul => 1
  | .add => 2
  | .fma => 4
  | .nar => 5
  | .lrelu => 6

/-- The format that the undo restores: the wide one for RNAR. -/
def RevOp.srcFmt (o : RevOp) (f : Fmt) : Fmt :=
  match o with
  | .nar => fF32
  | _ => f

/-- Lane count and slot width. -/
def RevOp.lanes (o : RevOp) (v : VEnv) : Nat :=
  match o with
  | .nar => 16
  | _ => v.lanes
def RevOp.slotW (o : RevOp) (v : VEnv) : Nat :=
  match o with
  | .nar => 32
  | _ => v.ew

/-- Scales an exact value by 2^k. -/
def Fv.scale (x : Fv) (k : Int) : Fv :=
  match x with
  | .fin s m e => .fin s m (e + k)
  | y => y

/-- Whether a pattern is a zero of a format. -/
def isZeroBits (f : Fmt) (b : Nat) : Bool := (fval f b).isZero

/-- An exact value in a format, when it is representable there; none for a NaN, an infinity or an inexact value. -/
def exactBits (f : Fmt) (x : Fv) : Option Nat :=
  match x with
  | .fin s m e =>
    let r := encFin 0 false f s m e
    if r.flags = 0 then some r.bits else none
  | _ => none

/-- A quotient rounded once in rne (R231). -/
def quotBits (f : Fmt) (x y : Fv) : Nat :=
  match x, y with
  | .nan, _ => f.cnan
  | _, .nan => f.cnan
  | .inf _, .inf _ => f.cnan
  | .inf s, .fin t _ _ => (encInf false f (s != t)).bits
  | .fin s _ _, .inf t => f.zero (s != t)
  | .fin s m e, .fin t n g =>
    if n = 0 then (if m = 0 then f.cnan else (encInf false f (s != t)).bits)
    else
      let k := Nat.log2 n + f.fb + 8
      (encFin 0 false f (s != t) (sticky (m * 2 ^ k / n) (decide (m * 2 ^ k % n ≠ 0))) (e - g - (k : Int) - 2)).bits

/-- A finite value other than zero. -/
def finiteNonzero : Fv → Bool
  | .fin _ m _ => decide (m ≠ 0)
  | _ => false

/-- A restored value: an exact zero takes the zero that the first-pushed slot holds, else +0. -/
def restoredZero (f : Fmt) (zero : Bool) (slot bits : Nat) : Nat :=
  if zero then (if isZeroBits f slot then slot else 0) else bits

/-- The undo of one lane without an escape row (R231): `d` the forward result, `a` and `b` the retained operands, `e1`
and `e2` the first- and second-pushed slots, `j` the slope. `f` is the instruction's type. -/
def undoLane (o : RevOp) (f : Fmt) (j d a b e1 e2 : Nat) : Nat :=
  let src := o.srcFmt f
  let vd := fval f d
  let sum := (fadd 0 vd (fval src e1)).1
  match o with
  | .mul =>
    restoredZero src (sum.isZero && finiteNonzero (fval f b)) e1 (quotBits src sum (fval f b))
  | .add =>
    let x := (fadd 0 sum (fval f b).neg).1
    restoredZero src x.isZero e1 (enc 0 false src x).bits
  | .fma =>
    let x := (fadd 0 (fadd 0 sum (fval f e2)).1 (fmul (fval f a) (fval f b)).1.neg).1
    restoredZero src x.isZero e1 (enc 0 false src x).bits
  | .nar =>
    if f = fBf16 then (d + 2 ^ 16 - e1 / 2 ^ 16 % 2) % 2 ^ 16 * 2 ^ 16 + e1 % 2 ^ 16
    else restoredZero src sum.isZero e1 (enc 0 false src sum).bits
  | .lrelu =>
    if d < f.signBit then d
    else
      let x := (fadd 0 (vd.scale j) (fval f e1)).1
      restoredZero src x.isZero e1 (enc 0 false src x).bits

/-- A forward lane: the result, its flags, the slots of the first and second row, and whether the lane forces an escape. -/
structure RevLane where
  d : FRes
  e1 : Nat
  e2 : Nat
  esc : Bool
deriving DecidableEq, Repr

/-- One slot (R228): representable values as they are; a zero takes the restored operand's zero; else +0, forced. -/
def slotOf (f : Fmt) (x : Fv) (operand : Nat) : Nat × Bool :=
  if x.isZero then (if isZeroBits f operand then operand else 0, false)
  else match exactBits f x with
    | some b => (b, false)
    | none => (0, true)

/-- A forward lane (R227, R228); `x` is the operand that the undo restores, `a` and `b` the retained ones. -/
def revLane (o : RevOp) (f : Fmt) (j x a b : Nat) : RevLane :=
  let src := o.srcFmt f
  let mk (d : FRes) (e1 e2 : Nat) (force : Bool) : RevLane :=
    { d := d, e1 := e1, e2 := e2, esc := force || decide (undoLane o f j d.bits a b e1 e2 ≠ x) }
  match o with
  | .mul =>
    let p := fmul (fval f x) (fval f b)
    let d := encOp 0 false f p
    let (e, bad) := slotOf f (fadd 0 p.1 (fval f d.bits).neg).1 x
    mk d e 0 bad
  | .add =>
    let p := fadd 0 (fval f x) (fval f b)
    let d := encOp 0 false f p
    let (e, bad) := slotOf f (fadd 0 p.1 (fval f d.bits).neg).1 x
    mk d e 0 bad
  | .fma =>
    let p := fmadd 0 (fval f a) (fval f b) (fval f x)
    let d := encOp 0 false f p
    let r := (fadd 0 p.1 (fval f d.bits).neg).1
    -- the first row holds the residue rounded, the second what that rounding leaves
    match r with
    | .fin _ m _ =>
      if m = 0 then mk d (if isZeroBits f x then x else 0) 0 false
      else
        let e1 := (enc 0 false f r).bits
        (match fval f e1 with
         | .fin s1 m1 x1 =>
           let r2 := (fadd 0 r (Fv.fin s1 m1 x1).neg).1
           if r2.isZero then mk d e1 0 false
           else (match exactBits f r2 with
             | some e2 => mk d e1 e2 false
             | none => mk d e1 0 true)
         | _ => mk d 0 0 true)
    | _ => mk d 0 0 true
  | .nar =>
    let d := enc 0 false f (fval fF32 x)
    if f = fBf16 then mk d (x % 2 ^ 16 + (if d.bits = x / 2 ^ 16 then 0 else 2 ^ 16)) 0 false
    else
      let (e, bad) := slotOf src (fadd 0 (fval fF32 x) (fval f d.bits).neg).1 x
      mk d e 0 bad
  | .lrelu =>
    if x < f.signBit then mk ⟨x, 0⟩ 0 0 false
    else
      let d := enc 0 false f ((fval f x).scale (-(j : Int)))
      let (e, bad) := slotOf f (fadd 0 (fval f x) ((fval f d.bits).scale j).neg).1 x
      mk d e 0 bad

/-! ### Repeats -/

/-- The rows that one repeat pushes (R227 to R229) onto a crew's stack: `restored` is the register that the undo restores. -/
def pushResidue (c : Crew) (o : RevOp) (ty slotW L cnt : Nat) (act : Nat → Bool) (lane : Nat → RevLane)
    (restored : Row) : Crew :=
  let esc := (List.range L).any fun k => act k && (lane k).esc
  let row1 := rowOf slotW (512 / slotW) fun k => if k < L ∧ act k = true then (lane k).e1 else 0
  let row2 := rowOf slotW (512 / slotW) fun k => if k < L ∧ act k = true then (lane k).e2 else 0
  let c1 := match o with
    | .fma => pushRow (pushRow c row1 (mkTag 3 ty cnt false)) row2 (mkTag 4 ty cnt esc)
    | _ => pushRow c row1 (mkTag o.cls ty cnt esc)
  if esc then pushRow c1 restored (mkTag 7 ty cnt false) else c1

/-- Slope of RLRELU: index 0x200 + k is 2^-(k + 1). -/
def slopeOf (d : BitVec 18) : Nat := dBase d - 0x1FF

/-- Whether a register that a repeat reads is poisoned (R421): the sources, and vd of the fused form. -/
def revPoison (o : RevOp) (s : State) (v : VEnv) : Bool :=
  let bad (d : BitVec 18) : Bool := unitPoisoned s s.cur.core s.cur.slot 0 (dRegNo d v.j)
  bad v.w.d1 ||
    (match o with
     | .fma => bad v.w.d2 || bad v.w.d0
     | .mul => bad v.w.d2
     | .add => bad v.w.d2
     | .nar => false
     | .lrelu => false)

/-- A forward repeat: room is reserved before anything is read (R224). -/
def revForward (o : RevOp) (s : State) (c : Crew) (v : VEnv) : VM Crew :=
  let f := fmtOf v.ty
  let L := o.lanes v
  let act := v.act L
  match stackRoom s c (if o = .fma then 3 else 2) with
  | some e => .error e
  | none =>
    if revPoison o s v then .error (.fault 0x18 0)
    else
    let rd := dRegNo v.w.d0 v.j
    let ra := vRead c (dRegNo v.w.d1 v.j)
    let rb := vRead c (dRegNo v.w.d2 v.j)
    let old := vRead c rd
    let j := slopeOf v.w.d2
    let lanes := (List.range L).map fun k =>
      match o with
      | .fma => revLane o f j (rowElem old v.ew k) (rowElem ra v.ew k) (rowElem rb v.ew k)
      | .nar => revLane o f j (rowElem ra 32 k) 0 0
      | .lrelu => revLane o f j (rowElem ra v.ew k) 0 0
      | _ => revLane o f j (rowElem ra v.ew k) 0 (rowElem rb v.ew k)
    let lane (k : Nat) : RevLane := lanes.getD k ⟨⟨0, 0⟩, 0, 0, false⟩
    let fl := (List.range L).foldl (fun a k => if act k then a ||| (lane k).d.flags else a) 0
    let off := match o with
      | .nar => partOf v.w.d2 * 16
      | _ => 0
    let new := mergeRow v.ew (fun e => decide (off ≤ e) && decide (e < off + L) && act (e - off))
      (fun e => (lane (e - off)).d.bits) old
    let c1 := vWrite (setFlags c fl) rd new
    .ok (pushResidue c1 o v.ty (o.slotW v) L (min v.n L) act lane (if o = .fma then old else ra))

/-- Checks the stack for an undo repeat (R230): the rows to pop and whether the top one is an escape row. -/
def undoCheck (c : Crew) (o : RevOp) (ty cnt : Nat) : Except VStop (Nat × Bool) :=
  let d := c.rem.rdepth
  if d = 0 then .error (.fault 0x0D 0)
  else if inWindowRows c = 0 then .error (.wait 0xD)
  else
    let esc := decide (clsOf (windowTag c (d - 1)) = 7)
    let residues := if o = .fma then 2 else 1
    let need := residues + (if esc then 1 else 0)
    if d < need then .error (.fault 0x0D 0)
    else if inWindowRows c < need then .error (.wait 0xD)
    else
      let top := d - 1 - (if esc then 1 else 0)
      let same (t : Nat) : Bool := decide (typOf t = ty % 16) && decide (cntOf t = cnt)
      let t1 := windowTag c top
      let ok1 := decide (clsOf t1 = o.cls) && same t1 && decide (eOf t1 = esc)
      let ok2 := match o with
        | .fma => let t2 := windowTag c (top - 1); decide (clsOf t2 = 3) && same t2 && !eOf t2
        | _ => true
      let ok3 := !esc || same (windowTag c (d - 1))
      if ok1 && ok2 && ok3 then .ok (need, esc) else .error (.fault 0x0C 0)

/-- An undo repeat. -/
def revUndo (o : RevOp) (s : State) (c : Crew) (v : VEnv) : VM Crew :=
  let f := fmtOf v.ty
  let L := o.lanes v
  let act := v.act L
  match undoCheck c o v.ty (min v.n L) with
  | .error e => .error e
  | .ok (need, esc) =>
    let d := c.rem.rdepth
    -- under an escape row the residue rows are discarded unread, and no operand is used (R231)
    if ((List.range (if esc then 1 else need)).any fun k => unitPoisoned s s.cur.core s.cur.slot 3 (d - 1 - k)) ||
        (!esc && revPoison o s v) then
      .error (.fault 0x18 0)
    else
      let top := d - 1 - (if esc then 1 else 0)
      let first := if o = .fma then spGet c.rem.row (top - 1) else spGet c.rem.row top
      let second := spGet c.rem.row top
      let escRow := spGet c.rem.row (d - 1)
      let rd := dRegNo v.w.d0 v.j
      let ra := vRead c (dRegNo v.w.d1 v.j)
      let rb := vRead c (dRegNo v.w.d2 v.j)
      let old := vRead c rd
      let j := slopeOf v.w.d2
      let wide := o.slotW v
      let off := partOf v.w.d2 * 16
      let lane (k : Nat) : Nat :=
        let e1 := rowElem first wide k
        if esc then rowElem escRow wide k
        else match o with
          | .fma => undoLane o f j (rowElem old v.ew k) (rowElem ra v.ew k) (rowElem rb v.ew k) e1 (rowElem second wide k)
          | .nar => undoLane o f j (rowElem ra v.ew (off + k)) 0 0 e1 0
          | .lrelu => undoLane o f j (rowElem ra v.ew k) 0 0 e1 0
          | _ => undoLane o f j (rowElem ra v.ew k) 0 (rowElem rb v.ew k) e1 0
      .ok (cutTo (vWrite c rd (mergeRow wide act lane old)) (d - need))

def execRmul (w : VWord) (s : State) : Out := vExec (.rmul w) w (revForward .mul) s
def execRadd (w : VWord) (s : State) : Out := vExec (.radd w) w (revForward .add) s
def execRfma (w : VWord) (s : State) : Out := vExec (.rfma w) w (revForward .fma) s
def execRnar (w : VWord) (s : State) : Out := vExec (.rnar w) w (revForward .nar) s
def execRlrelu (w : VWord) (s : State) : Out := vExec (.rlrelu w) w (revForward .lrelu) s
def execUnmul (w : VWord) (s : State) : Out := vExec (.unmul w) w (revUndo .mul) s
def execUnadd (w : VWord) (s : State) : Out := vExec (.unadd w) w (revUndo .add) s
def execUnfma (w : VWord) (s : State) : Out := vExec (.unfma w) w (revUndo .fma) s
def execUnnar (w : VWord) (s : State) : Out := vExec (.unnar w) w (revUndo .nar) s
def execUnlrelu (w : VWord) (s : State) : Out := vExec (.unlrelu w) w (revUndo .lrelu) s

/-! ### Markers (R232, R233) -/

/-- RMARK. -/
def execRmark (w : VWord) (s : State) : Out :=
  vExec (.rmark w) w (fun s c _ =>
    match stackRoom s c 1 with
    | some e => .error e
    | none => .ok (pushRow c 0 (dBase w.d2 % 256 * 32))) s

/-- Position of the highest marker of a number among the lowest `n` rows; it waits at a tag that cannot be read yet. DESIGN CHOICE
(log 109): the tag of a poisoned row, or in a poisoned unit of the spill area, is read as it stands. -/
def findMarker (s : State) (c : Crew) (id : Nat) : Nat → VM Nat
  | 0 => .error (.fault 0x0D 0)
  | n + 1 =>
    match stackTag s c n with
    | none => .error (.wait 0xD)
    | some t => if clsOf t = 0 ∧ t / 32 % 256 = id then .ok n else findMarker s c id n

/-- RDROP. -/
def execRdrop (w : VWord) (s : State) : Out :=
  vExec (.rdrop w) w (fun s c _ =>
    match findMarker s c (dBase w.d2 % 256) c.rem.rdepth with
    | .error e => .error e
    | .ok p => .ok (cutTo c p)) s

/-! ### The spill engine (R222, R223) -/

/-- A frame of the spill area that has still to be pulled is asked for (R413). -/
def askSpill (s : State) (c : Crew) (off : Nat) : State :=
  match extentMiss s c.tenant (spillObj s c) off with
  | some f => (openFault s c.tenant f .copyWrite (spillObj s c) off).1
  | none => s

/-- Moves the lowest window row to the spill area; where the area cannot be written yet, the row stays. -/
def spillOne (s : State) (core slot : Nat) : State :=
  match crewAt s core slot with
  | none => s
  | some c =>
    let i := c.rem.rspill
    match spillKey s c (spillRowAt s c i), spillKey s c (spillTagAt s c i) with
    | some k, some kt =>
      let s1 := writeUnit s k 64 (spGet c.rem.row i).toNat
      let s2 := if unitPoisoned s core slot 3 i then poisonKey s1 k else s1
      let s3 : State := { s2 with mem := memWriteN s2.mem kt (windowTag c i) 2 }
      putCrew (clearUnit s3 core slot 3 i) core slot
        { c with rem := { c.rem with rspill := i + 1, row := spSet c.rem.row i 0, tag := spSet c.rem.tag i 0 } }
    | none, _ => askSpill s c (spillRowAt s c i)
    | some _, none => askSpill s c (spillTagAt s c i)

/-- Moves the highest spilled row back to the window; the poison of either unit that it reads stays with it. -/
def refillOne (s : State) (core slot : Nat) : State :=
  match crewAt s core slot with
  | none => s
  | some c =>
    let i := c.rem.rspill - 1
    match spillKey s c (spillRowAt s c i), spillKey s c (spillTagAt s c i) with
    | none, _ => askSpill s c (spillRowAt s c i)
    | some _, none => askSpill s c (spillTagAt s c i)
    | some k, some kt =>
      let s1 := if isPoisoned s k || isPoisoned s kt then poisonUnit s core slot 3 i else clearUnit s core slot 3 i
      putCrew s1 core slot { c with rem := { c.rem with
        rspill := i
        row := spSet c.rem.row i (BitVec.ofNat 512 (memReadN s.mem k 64))
        tag := spSet c.rem.tag i (BitVec.ofNat 16 (memReadN s.mem kt 2)) } }

/-- The units of tags that a batch has written whole, of the rows from `lo` to `hi`, hold no poison any more (R421). -/
def clearTags (s : State) (c : Crew) (lo hi : Nat) : State :=
  ((List.range (hi / 32)).filter fun u => decide (lo ≤ 32 * u)).foldl (fun s u =>
    match spillKey s c (spillTagAt s c (32 * u)) with
    | some k => writeUnit s k 64 (readUnit s k 64)
    | none => s) s

/-- Rows of a crew's stack that lie in its spill area. -/
def spilled (s : State) (core slot : Nat) : Nat := ((crewAt s core slot).map (·.rem.rspill)).getD 0

/-- SPILL_BATCH: up to 64 rows, while the window holds more than H rows and the area has room. -/
def execSpillBatch (s : State) : Out :=
  let s1 := iter (fun s =>
    match crewAt s s.ev.core s.ev.slot with
    | none => s
    | some c =>
      if highWater s c < inWindowRows c ∧ c.rem.rspill < spillCap s c then spillOne s s.ev.core s.ev.slot else s) 64 s
  match crewAt s s.ev.core s.ev.slot with
  | none => .next s1
  | some c => .next (clearTags s1 c c.rem.rspill (spilled s1 s.ev.core s.ev.slot))

/-- REFILL_BATCH: while the window holds fewer than H/3 rows, rounded down to a multiple of 64. -/
def execRefillBatch (s : State) : Out :=
  .next (iter (fun s =>
    match crewAt s s.ev.core s.ev.slot with
    | none => s
    | some c =>
      if inWindowRows c < highWater s c / 3 / 64 * 64 ∧ 0 < c.rem.rspill then refillOne s s.ev.core s.ev.slot else s) 64 s)

end Sys2Proof.Machine
end

