-- ==== Sys2Proof/Machine/Matrix.lean ====
section
/-!
DEFINITION. Machine/Matrix.lean: the matrix engine (R46 to R49, R176 to R195): format words, issue checks, tile steps,
loads and drains, resumable at the boundaries of R194.
-/
namespace Sys2Proof.Machine
open FieldCheck

/-! ### Rows -/

/-- A row named by group and number relative to the crew's run: it lies within the declared rows. -/
def relOk (c : Crew) (g : Nat) (r : Int) : Bool := decide (0 ≤ r) && decide (r < ((if g = 0 then c.ra else c.rb : Nat) : Int))

/-- Storage key of such a row. -/
def relKey (core : Nat) (c : Crew) (g : Nat) (r : Int) : Nat :=
  spadKey core g ((if g = 0 then c.baseA else c.baseB) + r.toNat) 0

/-- Group and number of the 15-bit row form (R75). -/
def rowGrp (x : Nat) : Nat := x / 2 ^ 14 % 2
def rowNum (x : Nat) : Nat := x % 2 ^ 14

def relRead (s : State) (core : Nat) (c : Crew) (g : Nat) (r : Int) : Row :=
  BitVec.ofNat 512 (memReadN s.mem (relKey core c g r) 64)
def relPoison (s : State) (core : Nat) (c : Crew) (g : Nat) (r : Int) : Bool := isPoisoned s (relKey core c g r)

/-! ### Format words (R178, R180) and paths (R46) -/

def fwS (f : Word) : Nat := fld f 32 32
def fwSrow (f : Word) : Nat := fld f 17 15
def fwDc (f : Word) : Nat := fld f 14 3
def fwFb (f : Word) : Nat := fld f 9 5
def fwFa (f : Word) : Nat := fld f 4 5
def fwSat (f : Word) : Bool := f.getLsbD 3
def fwAm (f : Word) : Nat := fld f 1 2

/-- A path of the matrix engine: group size along K, fraction bits, QN4. -/
structure MPath where
  gs : Nat
  fr : Nat
  qn : Bool
deriving DecidableEq, Repr

def pathOf (fa fb : Nat) : Option MPath :=
  if isF8 fa && isF8 fb then some ⟨16, 12, false⟩
  else if isF8 fa && decide (fb = 13) then some ⟨16, 12, true⟩
  else if fa = 9 ∧ fb = 9 then some ⟨8, 24, false⟩
  else if fa = 10 ∧ fb = 10 then some ⟨8, 24, false⟩
  else none

/-- Rows per slice (R176). -/
def sliceRows (ty : Nat) : Nat := widthOf ty / 4

/-- Rows of a tile row in a row format (R187). -/
def tileRows (ty : Nat) : Nat := 128 * widthOf ty / 512

/-- kdepth: 0 means 4,096. -/
def kdepthOf (w : MWord) : Nat := if w.kdepth.toNat = 0 then 4096 else w.kdepth.toNat

/-- What a command is, beside its word. -/
inductive MKind where
  | step | gather | zero | load | drain | rdrain
deriving DecidableEq, Repr

def MKind.isStep (k : MKind) : Bool := decide (k = .step) || decide (k = .gather)
def MKind.isDrain (k : MKind) : Bool := decide (k = .drain) || decide (k = .rdrain)

/-- Step 2 of R182. -/
def fwValid (k : MKind) (w : MWord) (c : Crew) (f : Word) : Bool :=
  let fa := fwFa f
  let plain := decide (fwS f = 0) && decide (fwSrow f = 0) && decide (fwFb f = 0) && decide (fwAm f = 0)
  decide (f.getLsbD 0 = false) && decide (fwAm f ≤ 1) &&
    match k with
    | .zero => plain && decide (fa = 0) && !fwSat f
    | .load => plain && !fwSat f && isF fa
    | .drain => plain && decide (8 ≤ fa) && decide (fa ≤ 12)
    | .rdrain => plain && !fwSat f && (decide (fa = 9) || decide (fa = 10))
    | _ =>
      !fwSat f && (match pathOf fa (fwFb f) with
        | none => false
        | some p => p.qn || (decide (fwS f = 0) && decide (fwSrow f = 0))) &&
      (!w.byp || (c.mctx.bypValid && decide (kdepthOf w ≤ 128) && decide (c.mctx.bypFmt = fa)))

/-! ### Issue checks (R182 to R186) -/

/-- Entries of a 16-bit list in rows from `row`. -/
def listEntries (s : State) (core : Nat) (c : Crew) (row n : Nat) : List (BitVec 16) :=
  (List.range n).map fun i =>
    BitVec.ofNat 16 (rowElem (relRead s core c (rowGrp row) ((rowNum row + i / 32 : Nat) : Int)) 16 (i % 32))

/-- Valid count of the command: K positions or tile rows. -/
def mCount (c : Crew) (k : MKind) (w : MWord) : Nat :=
  match k with
  | .rdrain => 128
  | _ => min (nRead c .m w.nsel) (if k.isStep then kdepthOf w else 128)

/-- The slice that position i reads, none where it reads nothing (R185, R186). -/
def sliceAt (k : MKind) (list : Sp 16) (nv i : Nat) : Option Nat :=
  if nv ≤ i then none
  else if k = .gather then
    (let e := spGet list i
     if e.getLsbD 15 then none else some (fld e 0 12))
  else some i

/-- Every position of one group that is read names a slice of one 64-slice block (R185). -/
def oneBlock (k : MKind) (list : Sp 16) (nv gs grp : Nat) : Bool :=
  match (List.range gs).filterMap fun i => sliceAt k list nv (grp * gs + i) with
  | [] => true
  | g :: rest => rest.all fun x => decide (x / 64 = g / 64)

/-- Rows of slice `g` of an operand. -/
def sliceRow (row : BitVec 15) (stride : BitVec 15) (p g h : Nat) : Int :=
  (rowNum row.toNat : Int) + ((p * g + h : Nat) : Int) * sextN stride.toNat 15

/-- Rows of the row forms that a load, or an unscattered drain, touches for tile row m. -/
def tileRowAt (w : MWord) (p m q : Nat) : Int := ((rowNum w.rowC.toNat + m * p + q : Nat) : Int)

/-- Scatter entry of tile row m: none where it is skipped. -/
def scatterAt (list : Sp 16) (m : Nat) : Option Nat :=
  let e := spGet list m
  if e.getLsbD 15 then none else some (fld e 0 15)

/-- Group and row that a drain writes for (m, q), none where it writes no row. -/
def drainRow (w : MWord) (list : Sp 16) (p m q : Nat) : Option (Nat × Int) :=
  if w.dq then none
  else if w.se then (scatterAt list m).map fun x => (rowGrp x, ((rowNum x + q : Nat) : Int))
  else some (rowGrp w.rowC.toNat, tileRowAt w p m q)

/-- Every row that the command reads, and every row that it writes, as group and number. -/
def mReadRows (c : Crew) (k : MKind) (w : MWord) (fw : Word) (list : Sp 16) : List (Nat × Int) :=
  let nv := mCount c k w
  match k with
  | .step | .gather =>
    let pa := sliceRows (fwFa fw)
    let pb := sliceRows (fwFb fw)
    ((List.range (kdepthOf w)).filterMap fun i => sliceAt k list nv i).flatMap fun g =>
      (if w.aq || w.byp then [] else (List.range pa).map fun h => (rowGrp w.rowA.toNat, sliceRow w.rowA w.strideA pa g h)) ++
      ((List.range pb).map fun h => (rowGrp w.rowB.toNat, sliceRow w.rowB w.strideB pb g h)) ++
      (if fwFb fw = 13 then (List.range 2).map fun h =>
         (rowGrp (fwSrow fw), ((rowNum (fwSrow fw) + 2 * (g / 64) + h : Nat) : Int)) else [])
  | .load =>
    if w.aq then []
    else (List.range nv).flatMap fun m => (List.range (tileRows (fwFa fw))).map fun q =>
      (rowGrp w.rowC.toNat, tileRowAt w (tileRows (fwFa fw)) m q)
  | _ => []

def mWriteRows (c : Crew) (k : MKind) (w : MWord) (fw : Word) (list : Sp 16) : List (Nat × Int) :=
  if k.isDrain then
    (List.range (mCount c k w)).flatMap fun m => (List.range (tileRows (fwFa fw))).filterMap fun q =>
      drainRow w list (tileRows (fwFa fw)) m q
  else []

/-- Step 7 of R182 (R184). -/
def bankConflict (c : Crew) (k : MKind) (w : MWord) (fw : Word) (list : Sp 16) : Bool :=
  decide (k = .gather) && decide (fwFb fw = 13) &&
    (List.range (kdepthOf w / 2)).any fun p =>
      match sliceAt k list (mCount c k w) (2 * p), sliceAt k list (mCount c k w) (2 * p + 1) with
      | some g, some g' => if w.aq then decide (g % 16 = g' % 16) else decide (g % 8 = g' % 8)
      | _, _ => false

/-- The 15-bit row form of a group and number, for the phase sets. -/
def rowForm (x : Nat × Int) : Nat := x.1 * 2 ^ 14 + x.2.toNat

/-- What issuing finds. -/
inductive MIssue where
  | wait (cls : Nat)
  /-- a fault with the word left at the head -/
  | fault (cause : Nat)
  /-- an invalid word: consumed -/
  | badWord (c : Crew)
  | go (fw : Word) (gather scatter : Sp 16) (c : Crew)

/-- C has passed an M command (R179). -/
def cPassed (c : Crew) : Bool :=
  decide (c.strC.status = .arrived) || decide (c.strM.joints < c.strC.joints) ||
    (decide (c.strC.joints = c.strM.joints) &&
      decide (c.strM.pc < (if c.cd ≠ 0 then c.ors else if c.trap.inHandler then c.strC.pc else pcOf c .c)))

/-- Steps 3 to 8 of R182, and the phase sets (R247), for a valid word. DESIGN CHOICE (log 89): a list row whose unit is
poisoned is read as if it were clean: R182 gives issuing no such fault, and R195 speaks of the rows that the array reads. -/
def mChecks (s : State) (core : Nat) (c : Crew) (k : MKind) (w : MWord) (fw : Word) : Except Nat (Sp 16 × Sp 16) :=
  let useA := k.isStep && !w.aq && !w.byp
  if (w.aq && !active c .a) || (w.dq && !active c .v) then .error 0x0B
  else if (useA && decide (rowGrp w.rowA.toNat ≠ 0)) || (k.isStep && decide (rowGrp w.rowB.toNat ≠ 1)) ||
      (useA && decide (w.strideA.toNat % 2 = 0)) || (k.isStep && decide (w.strideB.toNat % 2 = 0)) then .error 0x08
  else
    let listRow := if k = .gather then w.rowG.toNat else w.rowS.toNat
    let nList := if k = .gather then kdepthOf w else if w.se then 128 else 0
    let listRows := (List.range ((nList + 31) / 32)).map fun i => (rowGrp listRow, ((rowNum listRow + i : Nat) : Int))
    if listRows.any fun x => !relOk c x.1 x.2 then .error 0x03
    else
      let list := spList 0 (listEntries s core c listRow nList)
      let nv := mCount c k w
      let qn := k.isStep && decide (fwFb fw = 13)
      if k = .gather ∧ (((List.range nList).any fun i => decide (fld (spGet list i) 12 3 ≠ 0)) = true ∨
          (qn && !(List.range ((kdepthOf w + 15) / 16)).all fun grp => oneBlock k list nv 16 grp) = true) then .error 0x01
      else
        let rs := mReadRows c k w fw list
        let ws := mWriteRows c k w fw list
        if (rs ++ ws).any fun x => !relOk c x.1 x.2 then .error 0x03
        else if bankConflict c k w fw list then .error 0x09
        else if k = .rdrain ∧ windowRows - inWindowRows c + (spillCap s c - c.rem.rspill) < 2048 then .error 0x0E
        else if (listRows ++ rs).any (fun x => !phaseOk s c .m true false (rowForm x)) ||
            ws.any (fun x => !phaseOk s c .m false true (rowForm x)) then .error 0x0F
        else .ok (if k = .gather then (list, []) else ([], list))

/-- TADDR of a fault at issue: the queue of an inactive endpoint, else 0 (R238). DESIGN CHOICE (log 110): R238 gives no byte offset
for a fault on a scratchpad-row operand of M or S (0x03, 0x0F, 0x18), and TADDR is 0. -/
def mFaultAddr (c : Crew) (w : MWord) (cause : Nat) : Nat :=
  if cause = 0x0B then (if w.aq && !active c .a then 1 else 10) else 0

/-- Issue of a command: the format word is popped and latched, and the counter rises. -/
def mIssue (s : State) (core : Nat) (c : Crew) (k : MKind) (w : MWord) : MIssue :=
  match qPop c 9 with
  | .empty => if cPassed c then .fault 0x0A else .wait 0xC
  | .failed cause _ _ => .fault cause
  | .data x c1 =>
    let fw : Word := x.truncate 64
    if !fwValid k w c fw then .badWord c1
    else match mChecks s core c k w fw with
    | .error cause => .fault cause
    | .ok (g, sc) =>
      if 1023 ≤ dRead c .m (fwDc fw) then .wait 0xE
      else
        let keep := k.isDrain || (decide (k = .step) && w.byp)
        let m : MCtx := { c1.mctx with fw := some fw, mprog := 0, gather := g, scatter := sc, group := [], flags := 0,
                                       bypValid := c1.mctx.bypValid && keep }
        .go fw g sc (dWrite { c1 with mctx := m } .m (fwDc fw) (dRead c .m (fwDc fw) + 1))

/-! ### The aligned-group adder (R46 to R49) -/

/-- The value of an operand element: floating, or a QN4 code. -/
def matVal (ty b : Nat) : Fv :=
  if ty = 13 then .fin (decide (qnLevel b < 0)) (qnLevel b).natAbs (-8) else fval (fmtOf ty) b

/-- Finite products with a non-zero significand: sign, magnitude, exponent. -/
def liveProducts (ps : List (Fv × Fv)) : List (Bool × Nat × Int) :=
  ps.filterMap fun p => match p with
    | (.fin s m e, .fin t n g) => if m * n = 0 then none else some (s != t, m * n, e + g)
    | _ => none

/-- Signs of the infinite products, and whether an infinity meets a zero. -/
def infProducts (ps : List (Fv × Fv)) : List Bool :=
  ps.filterMap fun p => match p with
    | (.inf s, .inf t) => some (s != t)
    | (.inf s, .fin t _ _) => some (s != t)
    | (.fin s _ _, .inf t) => some (s != t)
    | _ => none
def infTimesZero (ps : List (Fv × Fv)) : Bool :=
  ps.any fun p => match p with
    | (.inf _, x) => x.isZero
    | (x, .inf _) => x.isZero
    | _ => false

/-- The aligned sum of the live products (R47): the integer, its unit's exponent, and whether bits were cut. -/
def alignedSum (fr : Nat) (ts : List (Bool × Nat × Int)) : Int × Int × Bool :=
  match ts with
  | [] => (0, 0, false)
  | t :: rest =>
    let emax := rest.foldl (fun m x => max m x.2.2) t.2.2
    let term (x : Bool × Nat × Int) : Int × Bool :=
      let (q, r, _) := scaleMag x.2.1 (emax - x.2.2 - (fr : Int))
      (if x.1 then -(q : Int) else (q : Int), decide (r ≠ 0))
    let vs := (t :: rest).map term
    (vs.foldl (fun a v => a + v.1) 0, emax - (fr : Int), vs.any fun v => v.2)

/-- Group value of R47 and R48 as an exact value with its flags; `none` when the accumulator keeps its bits. -/
def groupValue (p : MPath) (ps : List (Fv × Fv)) (S : Fv) : Option Fv × BitVec 6 :=
  let infs := infProducts ps
  if (ps.any fun x => x.1.isNan || x.2.isNan) || (p.qn && S.isNan) then (some .nan, 0)
  else if infTimesZero ps then (some .nan, flNV)
  else match infs with
  | i :: rest =>
    if rest.any fun x => decide (x ≠ i) then (some .nan, flNV)
    else if p.qn && S.isZero then (some .nan, flNV)
    else (some (.inf i), 0)
  | [] =>
    let (g, e, cut) := alignedSum p.fr (liveProducts ps)
    let fin : Fv := .fin (decide (g < 0)) g.natAbs e
    match (if p.qn then S else .fin false 1 0) with
    | .inf _ => if g = 0 then (some .nan, flNV) else (some fin, 0)
    | _ => (if g = 0 then none else some fin, flIf cut flNX)

/-- The update of an accumulator element with a group's products; σ is 1 off the QN4 path. -/
def accUpdate (p : MPath) (am : Nat) (ps : List (Fv × Fv)) (sigma : Nat) (S : Fv) (acc : Nat) : FRes :=
  if p.qn && (decide (sigma = 0) || ps.isEmpty) then ⟨acc, 0⟩
  else match groupValue p ps S with
  | (none, f) => ⟨acc, f⟩
  | (some g, f) =>
    let g1 := if am = 1 then g.neg else g
    -- an infinity of row 6 of R48 is added as it is; a finite group value takes σ and S
    let g2 := match g1 with
      | .inf i => .inf i
      | x => if p.qn then (fmul x (match S with | .fin s m e => .fin s (m * sigma) e | y => y)).1 else x
    (encOp 0 false fF32 (fadd 0 (fval fF32 acc) g2)).or f

/-! ### Running a command -/

/-- What a part of a command does. -/
inductive MRun where
  | more (s : State) (c : Crew)
  | wait (cls : Nat) (c : Crew)
  | fault (cause : Nat) (c : Crew)
  /-- a failure-marked entry: cause, PC, offset -/
  | marked (cause pc addr : Nat) (c : Crew)

/-- Pops q1 until the group under way holds `n` rows (R194). -/
def popGroup (c : Crew) (n : Nat) : Nat → MRun ⊕ Crew
  | 0 => .inr c
  | fuel + 1 =>
    if n ≤ c.mctx.group.length then .inr c
    else match qPop c 1 with
    | .empty => .inl (.wait 1 c)
    | .failed cause pc addr => .inl (.marked cause pc addr c)
    | .data x c1 => popGroup { c1 with mctx := { c1.mctx with group := c1.mctx.group ++ [x] } } n fuel

/-- The elements of accumulator tile t, and their replacement. -/
def tileGet (c : Crew) (t : Nat) : List (BitVec 32) := spBlock c.acc (16384 * t) 16384
def tilePut (c : Crew) (t : Nat) (l : List (BitVec 32)) : Crew := { c with acc := spPut c.acc (16384 * t) l }

/-- Element i of an operand slice held in rows. -/
def sliceElem (ty : Nat) (rows : List Row) (i : Nat) : Nat :=
  let w := widthOf ty
  rowElem (rows.getD (i / (512 / w)) 0) w (i % (512 / w))

/-- One position of a group that is read: A's and B's rows and the slice. -/
structure KPos where
  a : List Row
  b : List Row
  g : Nat

/-- One group of a tile step (R185). -/
def stepGroup (s : State) (core : Nat) (c : Crew) (k : MKind) (w : MWord) (fw : Word) (p : MPath) (grp : Nat) : MRun :=
  let kd := kdepthOf w
  let nv := mCount c k w
  let pa := sliceRows (fwFa fw)
  let pb := sliceRows (fwFb fw)
  let first := grp * p.gs
  let len := min p.gs (kd - first)
  match (if w.aq then popGroup c (len * pa) 64 else .inr c) with
  | .inl r => r
  | .inr c1 =>
    let reads := (List.range len).filterMap fun i => (sliceAt k c.mctx.gather nv (first + i)).map fun g => (i, g)
    let bad := reads.any fun x =>
      (!w.aq && !w.byp && (List.range pa).any fun h => relPoison s core c 0 (sliceRow w.rowA w.strideA pa x.2 h)) ||
      ((List.range pb).any fun h => relPoison s core c 1 (sliceRow w.rowB w.strideB pb x.2 h)) ||
      (p.qn && (List.range 2).any fun h =>
        relPoison s core c (rowGrp (fwSrow fw)) ((rowNum (fwSrow fw) + 2 * (x.2 / 64) + h : Nat) : Int)) ||
      (w.byp && (List.range 128).any fun m => unitPoisoned s core s.cur.slot 4 m)
    if bad then .fault 0x18 c1
    else
      let ps : List KPos := reads.map fun x =>
        { a := if w.aq then (List.range pa).map fun h => c1.mctx.group.getD (x.1 * pa + h) 0
               else if w.byp then []
               else (List.range pa).map fun h => relRead s core c 0 (sliceRow w.rowA w.strideA pa x.2 h)
          b := (List.range pb).map fun h => relRead s core c 1 (sliceRow w.rowB w.strideB pb x.2 h)
          g := x.2 }
      let sv := fval fF32 (fwS fw)
      let blk := match ps with
        | x :: _ => x.g / 64
        | [] => 0
      let sig (n : Nat) : Nat :=
        if p.qn then
          rowElem (relRead s core c (rowGrp (fwSrow fw)) ((rowNum (fwSrow fw) + 2 * blk + n / 64 : Nat) : Int)) 8 (n % 64)
        else 1
      let one (i : Nat) (old : BitVec 32) : FRes :=
        let m := i / 128
        let n := i % 128
        let acc := if grp = 0 ∧ w.acc = false then 0 else old.toNat
        accUpdate p (fwAm fw)
          (ps.map fun x =>
            (matVal (fwFa fw) (if w.byp then (spGet c1.mctx.byp (128 * m + x.g)).toNat else sliceElem (fwFa fw) x.a m),
             matVal (fwFb fw) (sliceElem (fwFb fw) x.b n)))
          (sig n) sv acc
      let rs := mapNth one 0 (tileGet c1 w.t.toNat)
      let c2 := tilePut c1 w.t.toNat (rs.map fun r => BitVec.ofNat 32 r.bits)
      let s1 := if grp = 0 ∧ w.acc = false then
        (List.range 128).foldl (fun s m => clearUnit s core s.cur.slot 1 (128 * w.t.toNat + m)) s else s
      .more s1 { c2 with mctx := { c2.mctx with group := [], mprog := grp + 1, flags := c2.mctx.flags ||| orFlags rs } }

/-- Replaces tile row m by a function of its old elements. -/
def tileRowPut (c : Crew) (t m : Nat) (f : Nat → BitVec 32 → BitVec 32) : Crew :=
  let b := 16384 * t + 128 * m
  { c with acc := spPut c.acc b (mapNth f 0 (spBlock c.acc b 128)) }

/-- One tile row of MZERO. -/
def zeroRow (s : State) (core : Nat) (c : Crew) (w : MWord) (nv m : Nat) : MRun :=
  let c1 := { c with mctx := { c.mctx with mprog := m + 1 } }
  if m < nv then .more (clearUnit s core s.cur.slot 1 (128 * w.t.toNat + m)) (tileRowPut c1 w.t.toNat m fun _ _ => 0)
  else .more s c1

/-- One tile row of MLOADACC. -/
def loadRow (s : State) (core : Nat) (c : Crew) (w : MWord) (fw : Word) (nv m : Nat) : MRun :=
  let fa := fwFa fw
  let p := tileRows fa
  match (if w.aq then popGroup c p 16 else .inr c) with
  | .inl r => r
  | .inr c1 =>
    let c2 := { c1 with mctx := { c1.mctx with group := [], mprog := m + 1 } }
    if nv ≤ m then .more s c2
    else if !w.aq && (List.range p).any fun q => relPoison s core c (rowGrp w.rowC.toNat) (tileRowAt w p m q) then
      .fault 0x18 c1
    else
      let rows := (List.range p).map fun q =>
        if w.aq then c1.mctx.group.getD q 0 else relRead s core c (rowGrp w.rowC.toNat) (tileRowAt w p m q)
      let x (i : Nat) : Nat :=
        let b := sliceElem fa rows i
        if fa = 8 then b else (enc 0 false fF32 (fval (fmtOf fa) b)).bits
      let b := 16384 * w.t.toNat + 128 * m
      let rs := mapNth (fun i (old : BitVec 32) => if w.acc then add32 old.toNat (x i) else ⟨x i, 0⟩) 0 (spBlock c2.acc b 128)
      let s1 := if w.acc then s else clearUnit s core s.cur.slot 1 (128 * w.t.toNat + m)
      .more s1 { c2 with acc := spPut c2.acc b (rs.map fun r => BitVec.ofNat 32 r.bits)
                         mctx := { c2.mctx with flags := c2.mctx.flags ||| orFlags rs } }

/-- One element of a drain. -/
def drainElem (k : MKind) (fw : Word) (x : BitVec 32) : FRes :=
  if fwFa fw = 8 then ⟨x.toNat, 0⟩
  else enc 0 (decide (k = .drain) && fwSat fw) (fmtOf (fwFa fw)) (fval fF32 x.toNat)

/-- The residue rows of the pairs (m, q), q in `[q0, q1)` (R190). DESIGN CHOICE (log 89): rows recorded from a poisoned tile
row are not themselves poisoned; only the drained rows and the bypass rows carry the poison on. -/
def drainResidue (c : Crew) (w : MWord) (fw : Word) (m q0 q1 : Nat) : Crew :=
  let f := fmtOf (fwFa fw)
  (List.range (q1 - q0)).foldl (fun c i =>
    let src := spBlock c.acc (16384 * w.t.toNat + 128 * m + 16 * (q0 + i)) 16
    let lane (k : Nat) : RevLane := revLane .nar f 0 (src.getD k 0).toNat 0 0
    pushResidue c .nar (fwFa fw) 32 16 16 (fun _ => true) lane (rowOf 32 16 fun k => (src.getD k 0).toNat)) c

/-- One row (m, q) of a drain: written, pushed to q10, or skipped. DESIGN CHOICE (log 89): a row of a poisoned tile row goes
to q10 marked with cause 0x18, the drain's PC and offset 0, which a pop of V then reports (R134 defines only LDQ's marks). DESIGN
CHOICE (log 107): a row that the scatter list skips is converted all the same, and its flags count. -/
def drainOne (s : State) (core : Nat) (c : Crew) (k : MKind) (w : MWord) (fw : Word) (nv m q : Nat) : MRun :=
  let p := tileRows (fwFa fw)
  let per := 128 / p
  let src := spBlock c.acc (16384 * w.t.toNat + 128 * m + per * q) per
  let rs := src.map (drainElem k fw)
  let isOn := decide (m < nv)
  let row : Row := if isOn then rowOf (widthOf (fwFa fw)) per fun i => (rs.getD i ⟨0, 0⟩).bits else 0
  let bad := isOn && unitPoisoned s core s.cur.slot 1 (128 * w.t.toNat + m)
  let c1 := { c with mctx := { c.mctx with flags := if isOn then c.mctx.flags ||| orFlags rs else c.mctx.flags } }
  if w.dq then
    if !qRoom c 10 then .wait 2 c
    else
      let e : QEntry := { entryOf row with fail := if bad then 0x18 else 0, pc := c.strM.pc }
      .more s (setQueue c1 10 (queueOf c1 10 ++ [e]))
  else if !isOn then .more s c1
  else match drainRow w c.mctx.scatter p m q with
  | none => .more s c1
  | some (g, r) =>
    let key := relKey core c g r
    let s1 := writeUnit s key 64 row.toNat
    .more (if bad then poisonKey s1 key else s1) c1

/-- Rows q of tile row m from `q` on. -/
def drainRows (core : Nat) (k : MKind) (w : MWord) (fw : Word) (nv m : Nat) (q : Nat) : Nat → State → Crew → MRun
  | 0, s, c => .more s c
  | fuel + 1, s, c =>
    match drainOne s core c k w fw nv m q with
    | .more s1 c1 => drainRows core k w fw nv m (q + 1) fuel s1 c1
    | r => r

/-- One boundary of a drain: a tile row, or with DQ one pushed row. MRDRAIN waits for window room (R224). -/
def drainUnit (s : State) (core : Nat) (c : Crew) (k : MKind) (w : MWord) (fw : Word) (nv i : Nat) : MRun :=
  let p := tileRows (fwFa fw)
  let m := if w.dq then i / p else i
  let q := if w.dq then i % p else 0
  let n := if w.dq then 1 else p
  let room := if k = .rdrain then stackRoom s c (2 * (8 / p) * n) else none
  match room with
  | some (.wait cls) => .wait cls c
  | some _ => .wait 0xD c
  | none =>
    match drainRows core k w fw nv m q n s c with
    | .more s1 c1 =>
      let c2 := if k = .rdrain then drainResidue c1 w fw m (q * (8 / p)) ((q + n) * (8 / p)) else c1
      .more (clearPushed s1 c1 c2) { c2 with mctx := { c2.mctx with mprog := i + 1 } }
    | r => r

/-- One boundary of a command at MPROG. -/
def mUnit (s : State) (core : Nat) (c : Crew) (k : MKind) (w : MWord) (fw : Word) : MRun :=
  let i := c.mctx.mprog
  match k with
  | .zero => zeroRow s core c w (mCount c k w) i
  | .load => loadRow s core c w fw (mCount c k w) i
  | .drain | .rdrain => drainUnit s core c k w fw (mCount c k w) i
  | _ =>
    match pathOf (fwFa fw) (fwFb fw) with
    | some p => stepGroup s core c k w fw p i
    | none => .more s { c with mctx := { c.mctx with mprog := i + 1 } }

/-- Boundaries of a command. -/
def mUnits (k : MKind) (w : MWord) (fw : Word) : Nat :=
  match k with
  | .step | .gather =>
    match pathOf (fwFa fw) (fwFb fw) with
    | some p => (kdepthOf w + p.gs - 1) / p.gs
    | none => 0
  | .drain | .rdrain => if w.dq then 128 * tileRows (fwFa fw) else 128
  | _ => 128

/-- The A-bypass buffer after a drain: the whole tile in FA, +0 in inactive rows (R187). -/
def fillBypass (c : Crew) (k : MKind) (w : MWord) (fw : Word) : Crew :=
  let nv := mCount c k w
  let l := mapNth (fun i (x : BitVec 32) => if i / 128 < nv then BitVec.ofNat 32 (drainElem k fw x).bits else 0) 0
    (tileGet c w.t.toNat)
  { c with mctx := { c.mctx with bypValid := true, bypFmt := fwFa fw, byp := spPut [] 0 l } }

/-- Retirement: the flags are set and the counter falls (R192, R195). -/
def mFinish (s : State) (core : Nat) (c : Crew) (k : MKind) (w : MWord) (fw : Word) : Out :=
  let c1 := if k.isDrain then fillBypass c k w fw else c
  let s1 := if k.isDrain then
      (List.range 128).foldl (fun s m =>
        if m < mCount c k w ∧ unitPoisoned s core s.cur.slot 1 (128 * w.t.toNat + m) = true then poisonUnit s core s.cur.slot 4 m
        else clearUnit s core s.cur.slot 4 m) s
    else s
  let c2 := dDrop (setFlags c1 c1.mctx.flags) .m (fwDc fw)
  done s1 { c2 with mctx := idleMctx c2.mctx } .m 24

/-- Runs boundaries from MPROG until the command retires, stops, or has served the boundaries of this step: then it stands
between two of them, where a save may find it (R194). -/
def mLoop (core : Nat) (k : MKind) (w : MWord) (fw : Word) : Nat → State → Crew → Out
  | 0, s, c => if mUnits k w fw ≤ c.mctx.mprog then mFinish s core c k w fw else wait s c .m 0
  | fuel + 1, s, c =>
    if mUnits k w fw ≤ c.mctx.mprog then mFinish s core c k w fw
    else match mUnit s core c k w fw with
    | .more s1 c1 => mLoop core k w fw fuel s1 (clearStall c1)
    | .wait cls c1 => wait s c1 .m cls
    | .fault cause c1 => raiseHere s c1 .m cause 0
    | .marked cause pc addr c1 => .next (raise s s.cur.core s.cur.slot c1 { faultInfo c1 .m cause addr with pc := pc })

/-- An M command: issued, or continued at MPROG. -/
def mExec (k : MKind) (w : MWord) (s : State) : Out :=
  onCrew s .m fun c =>
    let core := s.cur.core
    match c.mctx.fw with
    | some fw => mLoop core k w fw (s.part.getD (mUnits k w fw)) s c
    | none =>
      if k = .rdrain ∧ mrdrainWaitsForV s core c = true then wait s c .m 7
      else match mIssue s core c k w with
      | .wait cls => wait s c .m cls
      | .fault cause => raiseHere s c .m cause (mFaultAddr c w cause)
      | .badWord c1 => raiseHere s c1 .m 0x01 0
      | .go fw _ _ c1 => mLoop core k w fw (s.part.getD (mUnits k w fw)) s c1

def execMstep (w : MWord) (s : State) : Out := mExec .step w s
def execMgather (w : MWord) (s : State) : Out := mExec .gather w s
def execMzero (w : MWord) (s : State) : Out := mExec .zero w s
def execMloadacc (w : MWord) (s : State) : Out := mExec .load w s
def execMdrain (w : MWord) (s : State) : Out := mExec .drain w s
def execMrdrain (w : MWord) (s : State) : Out := mExec .rdrain w s

end Sys2Proof.Machine
end

