-- ==== Sys2Proof/Machine/Scan.lean ====
section
/-!
DEFINITION. Machine/Scan.lean: the scan engine within one crew (R51, R52, R196 to R212, R215, R218, R219, R448): operator
descriptors, step records, state updates, readouts and tile transfers, resumable at steps and channels.
-/
namespace Sys2Proof.Machine
open FieldCheck

/-! ### Operator descriptors (R203, R205, R211) -/

def dKind (o : Word) : Nat := fld o 0 3
def dAf (o : Word) : Nat := fld o 3 2
def dBf (o : Word) : Nat := fld o 5 2
def dYo (o : Word) : Bool := o.getLsbD 7
def dCi (o : Word) : Bool := o.getLsbD 8
def dBf16In (o : Word) : Bool := o.getLsbD 9
def dHp (o : Word) : Nat := fld o 10 4

def isBlockKind (k : Nat) : Bool := decide (1 ≤ k) && decide (k ≤ 3)
/-- Block size n; 1 for element-wise kinds. -/
def blockN (k : Nat) : Nat := if isBlockKind k then 2 ^ k else 1
/-- Tiles of an aggregate, W. -/
def aggW (k : Nat) : Nat := if k = 5 then 1 else if isBlockKind k then 1 + blockN k else 2
/-- Parameter tiles, m. -/
def paramTiles (o : Word) : Nat := if isBlockKind (dKind o) then blockN (dKind o) else if dAf o = 0 then 0 else 1

/-- The descriptor in o. -/
def descOf (c : Crew) (w : SWord) : Word := spGet c.o w.o.toNat

/-- Rows of one block of `n` values. -/
def valRows (o : Word) (n : Nat) : Nat := if dBf16In o then n / 32 else n / 16
/-- Blocks present in a record: U, V, W, C. -/
def hasU (o : Word) : Bool := decide (dAf o ≠ 2)
def hasW (o : Word) : Bool := decide (dBf o = 0)
def hasC (o : Word) : Bool := dYo o && !dCi o
/-- Rows of a record, RL. -/
def recRows (o : Word) : Nat :=
  (if hasU o then valRows o 128 else 0) + valRows o 128 + (if hasW o then valRows o 64 else 0) +
    (if hasC o then valRows o 64 else 0)

/-- clen: 0 means 65,536. -/
def clenOf (w : SWord) : Nat := if w.clen.toNat = 0 then 65536 else w.clen.toNat

/-! ### Channels of tiles (R196) -/

/-- Elements of channel ch of tile h, as bits. -/
def chanGet (c : Crew) (h ch : Nat) : List Nat := (spBlock c.st (8192 * h + 64 * ch) 64).map fun x => x.toNat
def chanPut (c : Crew) (h ch : Nat) (l : List Nat) : Crew :=
  { c with st := spPut c.st (8192 * h + 64 * ch) (l.map fun x => BitVec.ofNat 32 x) }

/-- The four rows of a channel. -/
def chanRows (c : Crew) (h ch : Nat) : List Row :=
  let l := chanGet c h ch
  (List.range 4).map fun r => rowOf 32 16 fun i => l.getD (16 * r + i) 0
def putChanRows (c : Crew) (h ch : Nat) (rows : List Row) : Crew :=
  chanPut c h ch ((List.range 64).map fun d => rowElem (rows.getD (d / 16) 0) 32 (d % 16))

/-! ### Elements of a step (R205) -/

/-- Where a chunk's record stands: rows read, as values. -/
structure Record where
  u : List Nat
  v : List Nat
  w : List Nat
  cv : List Nat
deriving DecidableEq, Repr

/-- Values of a block of rows. -/
def blockVals (o : Word) (rows : List Row) (n : Nat) : List Nat :=
  (List.range n).map fun i =>
    if dBf16In o then (enc 0 false fF32 (fval fBf16 (rowElem (rows.getD (i / 32) 0) 16 (i % 32)))).bits
    else rowElem (rows.getD (i / 16) 0) 32 (i % 16)

/-- A record from its rows; `ci` gives the rows of a fixed readout vector. -/
def recordOf (o : Word) (rows ci : List Row) : Record :=
  let nu := if hasU o then valRows o 128 else 0
  let nv := valRows o 128
  let nw := if hasW o then valRows o 64 else 0
  { u := if hasU o then blockVals o rows 128 else []
    v := blockVals o (rows.drop nu) 128
    w := if hasW o then blockVals o (rows.drop (nu + nv)) 64 else []
    cv := if hasC o then blockVals o (rows.drop (nu + nv + nw)) 64 else if dYo o then blockVals o ci 64 else [] }

/-- The element of one channel: b, then A by its second index; with flags. -/
structure ChanElem where
  b : List Nat
  a : List (List Nat)
  fl : BitVec 6
deriving DecidableEq, Repr

/-- The element of channel ch at a step: `par k` is channel ch of parameter tile HP + k. -/
def chanElem (o : Word) (r : Record) (par : Nat → List Nat) (ch : Nat) : ChanElem :=
  let u := r.u.getD ch 0
  let v := r.v.getD ch 0
  let bs := (List.range 64).map fun d => if dBf o = 0 then mul32 v (r.w.getD d 0) else ⟨v, 0⟩
  let aOf (p : Nat) : FRes :=
    match dAf o with
    | 0 => ⟨u, 0⟩
    | 1 => let x := mul32 u p; (fexp2 0 false fF32 (fval fF32 x.bits)).or x.flags
    | 2 => ⟨p, 0⟩
    | _ => mul32 u p
  let as := (List.range (blockN (dKind o))).map fun k =>
    (List.range 64).map fun d => aOf ((par k).getD d 0)
  { b := bs.map fun x => x.bits, a := as.map fun l => l.map fun x => x.bits,
    fl := orFlags bs ||| orFlags as.flatten }

/-! ### The operators of R51, on one channel -/

/-- max of R40 in FP32. -/
def max32 (x y : Nat) : Nat := fminmax true fF32 x y

/-- fma over a block row: c := start; for k: c := fma(A[i, k], h[k], c). -/
def blockDot (n : Nat) (a : List (List Nat)) (h : List Nat) (d start : Nat) : FRes :=
  (List.range n).foldl (fun (acc : FRes) k => (fma32 ((a.getD k []).getD d 0) (h.getD (d / n * n + k) 0) acc.bits).or acc.flags)
    ⟨start, 0⟩

/-- State update of one channel (R51). -/
def stateUpdate (kind : Nat) (e : ChanElem) (h : List Nat) : List FRes :=
  (List.range 64).map fun d =>
    let a := (e.a.getD 0 []).getD d 0
    let b := e.b.getD d 0
    let x := h.getD d 0
    match kind with
    | 0 => fma32 a x b
    | 4 => let y := add32 a x; ⟨max32 y.bits b, y.flags⟩
    | 5 => fma32 a b x
    | _ => blockDot (blockN kind) e.a h d b

/-- The element of a step as it enters a prefix: a gated-sum element is (+0, enc(g·x)). -/
def prefixElem (kind : Nat) (e : ChanElem) : ChanElem :=
  if kind = 5 then
    let bs := (List.range 64).map fun d => mul32 ((e.a.getD 0 []).getD d 0) (e.b.getD d 0)
    { b := bs.map fun x => x.bits, a := [], fl := e.fl ||| orFlags bs }
  else e

/-- A part of combine(X1, X2): X1 earlier. -/
def combineA (kind : Nat) (a1 a2 : List (List Nat)) : List (List FRes) :=
  let n := blockN kind
  let g (a : List (List Nat)) (k d : Nat) : Nat := (a.getD k []).getD d 0
  match kind with
  | 0 => [(List.range 64).map fun d => mul32 (g a2 0 d) (g a1 0 d)]
  | 4 => [(List.range 64).map fun d => add32 (g a2 0 d) (g a1 0 d)]
  | 5 => []
  | _ => (List.range n).map fun j => (List.range 64).map fun d =>
      let b := d / n * n
      (List.range (n - 1)).foldl (fun (acc : FRes) k =>
        (fma32 (g a2 (k + 1) d) (g a1 j (b + k + 1)) acc.bits).or acc.flags) (mul32 (g a2 0 d) (g a1 j b))

/-- b part of combine(X1, X2). -/
def combineB (kind : Nat) (b1 : List Nat) (a2 : List (List Nat)) (b2 : List Nat) : List FRes :=
  (List.range 64).map fun d =>
    let a := (a2.getD 0 []).getD d 0
    let x := b1.getD d 0
    let y := b2.getD d 0
    match kind with
    | 0 => fma32 a x y
    | 4 => let z := add32 a x; ⟨max32 z.bits y, z.flags⟩
    | 5 => add32 x y
    | _ => blockDot (blockN kind) a2 b1 d y

/-- combine on one channel. -/
def combineChan (kind : Nat) (x1 x2 : ChanElem) : ChanElem :=
  let a := combineA kind x1.a x2.a
  let b := combineB kind x1.b x2.a x2.b
  { b := b.map fun x => x.bits, a := a.map fun l => l.map fun x => x.bits,
    fl := x1.fl ||| x2.fl ||| orFlags b ||| orFlags a.flatten }

/-- Carry application of one channel: prefix (Al, bl) and carry state hc. -/
def applyCarry (kind : Nat) (x : ChanElem) (hc : List Nat) : List FRes := combineB kind hc x.a x.b

/-- The readout of one channel's state (R206): the tree over all 64 leaves. -/
def readoutChan (cv : List Nat) (st : List Nat) : FRes :=
  (treeRoot add32 ((List.range 64).map fun d => some (mul32 (cv.getD d 0) (st.getD d 0)))).getD ⟨0, 0⟩

/-- Aggregate block at tile h, one channel: b in h, A in h + 1 and on. -/
def aggGet (c : Crew) (kind h ch : Nat) : ChanElem :=
  { b := chanGet c h ch, a := (List.range (aggW kind - 1)).map fun k => chanGet c (h + 1 + k) ch, fl := 0 }
def aggPut (c : Crew) (kind h ch : Nat) (x : ChanElem) : Crew :=
  (List.range (aggW kind - 1)).foldl (fun c k => chanPut c (h + 1 + k) ch (x.a.getD k [])) (chanPut c h ch x.b)

/-! ### What an S instruction is -/

inductive SKind where
  | load | store | zero | read | scan | agg | net | send | recv | apply | step | opset (k : Nat)
deriving DecidableEq, Repr

/-- The crew's chunk index: its number within its scan group, 0 outside every group (R209, R276). -/
def groupOf (s : State) (c : Crew) : Option (Nat × Nat × Nat) :=
  match launchById s c.launch with
  | none => none
  | some l => l.scanl.map fun lv => (levelUnit l lv, c.rank % levelUnit l lv, c.rank / levelUnit l lv)
def chunkIdx (s : State) (c : Crew) : Nat := match groupOf s c with | some (_, i, _) => i | none => 0

/-- Steps of SCAN, SAGG and SAPPLY: T. -/
def stepCount (c : Crew) (w : SWord) : Nat := min (nRead c .s w.nsel) (clenOf w)

/-- rowX in force: the field, or the popped value. -/
def rowXof (c : Crew) (w : SWord) : Nat := if w.xq then c.sctx.rowX.getD 0 else w.rowX.toNat

/-- Rows in the row form, from a base, as group and number. -/
def rowsFrom (x n : Nat) : List (Nat × Int) := (List.range n).map fun i => (rowGrp x, ((rowNum x + i : Nat) : Int))

/-- The tile that holds the state of SCAN, SAPPLY, STEP. -/
def writesTiles (s : State) (c : Crew) (k : SKind) (w : SWord) : List Nat :=
  let _ := s
  let h := w.h.toNat
  match k with
  | .scan | .step => [h]
  | .agg | .apply => (List.range (aggW (dKind (descOf c w)) + 1)).map fun i => h + i
  | .net => (List.range (aggW (dKind (descOf c w)) + 1)).map fun i => h + i
  | _ => []

/-- The fixed readout vector's rows (R205). -/
def cvRows (c : Crew) (w : SWord) : List (Nat × Int) := rowsFrom w.rowZ.toNat (valRows (descOf c w) 64)

/-- Rows that the boundary at SPROG reads, and rows that it writes (R202, R205, R207, R208). -/
def unitReads (c : Crew) (k : SKind) (w : SWord) : List (Nat × Int) :=
  let t := c.sctx.sprog
  let n := nRead c .s w.nsel
  let record := rowsFrom (rowXof c w + t * recRows (descOf c w)) (recRows (descOf c w))
  match k with
  | .load => if w.qe || decide (n ≤ t) then [] else rowsFrom (rowXof c w + 4 * t) 4
  | .scan | .apply | .agg => if t < stepCount c w then record else []
  | .step => record
  | .opset _ => rowsFrom (rowXof c w) 1
  | _ => []

def unitWrites (c : Crew) (k : SKind) (w : SWord) : List (Nat × Int) :=
  let t := c.sctx.sprog
  let n := nRead c .s w.nsel
  let out := dYo (descOf c w) && !w.qe
  match k with
  | .store => if w.qe || decide (n ≤ t) then [] else rowsFrom (rowXof c w + 4 * t) 4
  | .scan | .apply => if out && decide (t < stepCount c w) then rowsFrom (w.rowY.toNat + 8 * t) 8 else []
  | .step => if out then rowsFrom w.rowY.toNat ((min n 128 + 15) / 16) else []
  | _ => []

/-- Whether the end of a run of rows stays in the group and the declared rows: only the last row can fail first. -/
def runOk (c : Crew) (x n : Nat) : Bool := decide (n = 0) || relOk c (rowGrp x) ((rowNum x + n - 1 : Nat) : Int)

/-- Step 6 of R448. -/
def sRowsOk (c : Crew) (k : SKind) (w : SWord) (rowX : Nat) : Bool :=
  let o := descOf c w
  let ci := !(dYo o && dCi o) || runOk c w.rowZ.toNat (valRows o 64)
  match k with
  | .load | .store => w.qe || runOk c rowX 512
  | .scan | .apply =>
    runOk c rowX (clenOf w * recRows o) && ci && (!dYo o || w.qe || runOk c w.rowY.toNat (8 * clenOf w))
  | .agg => runOk c rowX (clenOf w * recRows o)
  | .step => runOk c rowX (recRows o) && ci && (!dYo o || w.qe || runOk c w.rowY.toNat 8)
  | _ => true

/-- A valid descriptor row for SOPSET of kind k (R203). -/
def descValid (k : Nat) (row : Row) : Bool :=
  let o : Word := row.truncate 64
  decide (row.toNat < 2 ^ 14) && decide (dKind o = k) && decide (dKind o ≤ 5) && decide (dBf o ≤ 1) &&
    !(isBlockKind (dKind o) && decide (dAf o ≤ 1)) && !(dCi o && !dYo o)

/-- In deterministic mode the rows of the boundary at SPROG lie in S's phase sets (R247, R295). -/
def unitPhaseOk (s : State) (c : Crew) (k : SKind) (w : SWord) : Bool :=
  !isDet c || ((unitReads c k w).all (fun x => phaseOk s c .s true false (rowForm x)) &&
    (unitWrites c k w).all fun x => phaseOk s c .s false true (rowForm x))

/-- What issuing finds. -/
inductive SIssue where
  | wait (cls : Nat)
  | fault (cause addr : Nat)
  | go (c : Crew)
deriving DecidableEq, Repr

/-- Steps 2 to 6 of R448 for a rowX. -/
def sChecks (s : State) (core : Nat) (c : Crew) (k : SKind) (w : SWord) (rowX : Nat) : Option Nat :=
  let o := descOf c w
  let kind := dKind o
  let h := w.h.toNat
  let usesBlock := decide (k = .agg ∨ k = .net ∨ k = .apply)
  let usesParam := decide (k = .scan ∨ k = .agg ∨ k = .apply ∨ k = .step)
  let params := (List.range (paramTiles o)).map fun i => dHp o + i
  match (match k with
    | .opset kk =>
      if !runOk c rowX 1 then some 0x03
      else if !descValid kk (relRead s core c (rowGrp rowX) (rowNum rowX : Int)) then some 0x01 else none
    | _ => none) with
  | some f => some f
  | none =>
    if usesBlock && decide (c.nh < h + aggW kind + 1) then some 0x02
    else if usesParam && params.any fun p => decide (c.nh ≤ p) then some 0x02
    else if (usesParam || decide (k = .net)) && params.any fun p => (writesTiles s c k w).contains p then some 0x01
    else if !sRowsOk c k w rowX then some 0x03
    else none

/-- Issue of an S instruction (R199, R448). DESIGN CHOICE (log 27): the inactive endpoint of Q (R258) is found before step 1 of
R448, which gives it no place; a row outside the phase sets (R247) is found after issue, at the boundary that accesses it. -/
def sIssue (s : State) (core : Nat) (c : Crew) (k : SKind) (w : SWord) : SIssue :=
  if w.qe && !peerActive c .s w.q.toNat then .fault 0x0B w.q.toNat
  else
    let popped : SIssue ⊕ (Nat × Crew) :=
      if w.xq then
        match qPop c 5 with
        | .empty => .inl (.wait 1)
        | .failed cause _ addr => .inl (.fault cause addr)
        | .data x c1 =>
          let v := x.toNat % 2 ^ 64
          if 2 ^ (if k = .read then 7 else 15) ≤ v then .inl (.fault 0x0B 5) else .inr (v, c1)
      else .inr (w.rowX.toNat, c)
    match popped with
    | .inl r => r
    | .inr (rowX, c1) =>
      match sChecks s core c k w rowX with
      | some cause => .fault cause 0
      | none =>
        if 1023 ≤ dRead c .s 0 then .wait 0xE
        else .go (dWrite { c1 with sctx := { active := true, sprog := 0, flags := 0,
                                             rowX := if w.xq then some rowX else none } }
                   .s 0 (dRead c .s 0 + 1))

/-! ### Boundaries -/

inductive SRun where
  | more (s : State) (c : Crew)
  | wait (cls : Nat)
  | fault (cause : Nat)
  | marked (cause pc addr : Nat)

/-- Pops `n` rows of a queue together. -/
def popRows (c : Crew) (q : Nat) : Nat → SRun ⊕ (List Row × Crew)
  | 0 => .inr ([], c)
  | n + 1 =>
    match qPop c q with
    | .empty => .inl (.wait 1)
    | .failed cause pc addr => .inl (.marked cause pc addr)
    | .data x c1 =>
      match popRows c1 q n with
      | .inl r => .inl r
      | .inr (l, c2) => .inr (x :: l, c2)

/-- Pushes rows together, or waits for room. -/
def pushRows (c : Crew) (q : Nat) (rows : List Row) : Option Crew :=
  if qDepth q < (queueOf c q).length + rows.length then none else some (rows.foldl (fun c r => qPush c q r) c)

/-- Advances SPROG. -/
def sNext (c : Crew) : Crew := { c with sctx := { c.sctx with sprog := c.sctx.sprog + 1 } }

def readRel (s : State) (core : Nat) (c : Crew) (x : Nat × Int) : Row := relRead s core c x.1 x.2
def writeRel (s : State) (core : Nat) (c : Crew) (x : Nat × Int) (r : Row) : State := writeUnit s (relKey core c x.1 x.2) 64 r.toNat

/-- Marks a written tile channel clean: its four rows are whole units. -/
def cleanChan (s : State) (core h ch : Nat) : State :=
  (List.range 4).foldl (fun s r => clearUnit s core s.cur.slot 2 (512 * h + 4 * ch + r)) s

/-- One channel of SLOAD. -/
def loadChan (s : State) (core : Nat) (c : Crew) (w : SWord) (n : Nat) : SRun :=
  let ch := c.sctx.sprog
  let h := w.h.toNat
  if w.qe then
    match popRows c w.q.toNat 4 with
    | .inl r => r
    | .inr (rows, c1) => .more (if ch < n then cleanChan s core h ch else s) (sNext (if ch < n then putChanRows c1 h ch rows else c1))
  else if n ≤ ch then .more s (sNext c)
  else
    let at4 := rowsFrom (rowXof c w + 4 * ch) 4
    if at4.any fun x => relPoison s core c x.1 x.2 then .fault 0x18
    else .more (cleanChan s core h ch) (sNext (putChanRows c h ch (at4.map (readRel s core c))))

/-- One channel of SSTORE; a poisoned tile row stays poisoned at its destination. -/
def storeChan (s : State) (core : Nat) (c : Crew) (w : SWord) (n : Nat) : SRun :=
  let ch := c.sctx.sprog
  let rows := chanRows c w.h.toNat ch
  if w.qe then
    match pushRows c w.q.toNat (if ch < n then rows else List.replicate 4 0) with
    | none => .wait 2
    | some c1 => .more s (sNext c1)
  else if n ≤ ch then .more s (sNext c)
  else
    .more ((List.range 4).foldl (fun s r =>
      let x : Nat × Int := (rowGrp (rowXof c w), ((rowNum (rowXof c w) + 4 * ch + r : Nat) : Int))
      let s1 := writeRel s core c x (rows.getD r 0)
      if unitPoisoned s core s.cur.slot 2 (512 * w.h.toNat + 4 * ch + r) then poisonKey s1 (relKey core c x.1 x.2) else s1) s)
      (sNext c)

/-- One channel of SREAD: channel c0 + SPROG. -/
def readChan (s : State) (c : Crew) (w : SWord) (n : Nat) : SRun :=
  let i := c.sctx.sprog
  match pushRows c w.q.toNat (if i < n then chanRows c w.h.toNat (rowXof c w + i) else List.replicate 4 0) with
  | none => .wait 2
  | some c1 => .more s (sNext c1)

/-- Folds a function over the channels, gathering flags and one readout value each. -/
def overChans (f : Crew → Nat → Crew × BitVec 6 × Option FRes) (c : Crew) (n : Nat) : Crew × BitVec 6 × List Nat :=
  (List.range 128).foldl (fun (acc : Crew × BitVec 6 × List Nat) ch =>
    let (c, fl, ys) := acc
    if ch < n then
      let (c1, f1, y) := f c ch
      match y with
      | some r => (c1, fl ||| f1 ||| r.flags, ys ++ [r.bits])
      | none => (c1, fl ||| f1, ys ++ [0])
    else (c, fl, ys ++ [0])) (c, 0, [])

/-- The eight rows of a readout. -/
def readoutRows (ys : List Nat) : List Row := (List.range 8).map fun r => rowOf 32 16 fun i => ys.getD (16 * r + i) 0

/-- Poison met by a step: a record row or a parameter tile (R219). DESIGN CHOICE (log 108): R219 does not name the rows of a state
or aggregate tile; a step reads their bits as they stand, and their mark stays until SLOAD, SZERO or a carry of SNET covers the
unit. -/
def stepPoison (s : State) (core : Nat) (c : Crew) (w : SWord) (t : Nat) : Bool :=
  let o := descOf c w
  ((rowsFrom (rowXof c w + t * recRows o) (recRows o)).any fun x => relPoison s core c x.1 x.2) ||
  ((List.range (paramTiles o)).any fun k => (List.range 512).any fun r =>
    unitPoisoned s core s.cur.slot 2 (512 * (dHp o + k) + r))

/-- The record of step t; a fixed readout vector is the one read before the first step. -/
def recordAt (s : State) (core : Nat) (c : Crew) (w : SWord) (t : Nat) : Record :=
  let o := descOf c w
  recordOf o ((rowsFrom (rowXof c w + t * recRows o) (recRows o)).map (readRel s core c)) c.sctx.cv

/-- The element of a channel at a step. -/
def elemAt (c : Crew) (w : SWord) (r : Record) (ch : Nat) : ChanElem :=
  chanElem (descOf c w) r (fun k => chanGet c (dHp (descOf c w) + k) ch) ch

/-- Delivers a readout: to rows from rowY + 8t, or to the queue. Rows of a partial STEP keep inactive channels, which are not
written, and with them the poison of a row that is not written whole (R208, R421). -/
def deliver (s : State) (core : Nat) (c : Crew) (w : SWord) (t n : Nat) (ys : List Nat) : Option (State × Crew) :=
  if !dYo (descOf c w) then some (s, c)
  else if w.qe then (pushRows c w.q.toNat (readoutRows ys)).map fun c1 => (s, c1)
  else
    some ((List.range 8).foldl (fun s r =>
      let x : Nat × Int := (rowGrp w.rowY.toNat, ((rowNum w.rowY.toNat + 8 * t + r : Nat) : Int))
      let old := readRel s core c x
      let new := rowOf 32 16 fun i => if 16 * r + i < n then ys.getD (16 * r + i) 0 else rowElem old 32 i
      if n < 16 * r + 1 then s
      else if n < 16 * (r + 1) ∧ relPoison s core c x.1 x.2 = true then poisonKey (writeRel s core c x new) (relKey core c x.1 x.2)
      else writeRel s core c x new) s, c)

/-- One state-form step on a tile for the first `n` channels (R207). -/
def stateStep (s : State) (core : Nat) (c : Crew) (w : SWord) (tile t n : Nat) : SRun :=
  if stepPoison s core c w t then .fault 0x18
  else
    let o := descOf c w
    let r := recordAt s core c w t
    let (c1, fl, ys) := overChans (fun c ch =>
      let e := elemAt c w r ch
      let h := stateUpdate (dKind o) e (chanGet c tile ch)
      let hb := h.map fun x => x.bits
      (chanPut c tile ch hb, e.fl ||| orFlags h, if dYo o then some (readoutChan r.cv hb) else none)) c n
    match deliver s core c1 w t n ys with
    | none => .wait 2
    | some (s1, c2) => .more s1 (sNext { c2 with sctx := { c2.sctx with flags := c2.sctx.flags ||| fl } })

/-- A skipped step: eight zero rows when readouts go to a queue. -/
def skipStep (s : State) (c : Crew) (w : SWord) : SRun :=
  if dYo (descOf c w) && w.qe then
    match pushRows c w.q.toNat (List.replicate 8 0) with
    | none => .wait 2
    | some c1 => .more s (sNext c1)
  else .more s (sNext c)

/-- One step of SAGG (R212). -/
def aggStep (s : State) (core : Nat) (c : Crew) (w : SWord) (t : Nat) : SRun :=
  if stepPoison s core c w t then .fault 0x18
  else
    let kind := dKind (descOf c w)
    let h := w.h.toNat
    let chunk0 := decide (chunkIdx s c = 0)
    let r := recordAt s core c w t
    let (c1, fl, _) := overChans (fun c ch =>
      let e0 := elemAt c w r ch
      let e := prefixElem kind e0
      if chunk0 then
        -- state form: A from a leading (+0, h_init), b as a state
        let old := aggGet c kind h ch
        let x : ChanElem := if t = 0 then
            { b := chanGet c (h + aggW kind) ch, a := (List.range (aggW kind - 1)).map fun _ => List.replicate 64 0, fl := 0 }
          else old
        let a := combineA kind x.a e.a
        let b := stateUpdate kind e0 x.b
        (aggPut c kind h ch { b := b.map (·.bits), a := a.map fun l => l.map (·.bits), fl := 0 },
         e0.fl ||| orFlags b ||| orFlags a.flatten, none)
      else
        let x := if t = 0 then e else combineChan kind (aggGet c kind h ch) e
        (aggPut c kind h ch x, x.fl, none)) c 128
    .more s (sNext { c1 with sctx := { c1.sctx with flags := c1.sctx.flags ||| fl } })

/-- Chunk 0 with no step: A := +0 and b := h_init (R212). -/
def aggInit (c : Crew) (kind h : Nat) : Crew :=
  (List.range 128).foldl (fun c ch =>
    aggPut c kind h ch { b := chanGet c (h + aggW kind) ch,
                         a := (List.range (aggW kind - 1)).map fun _ => List.replicate 64 0, fl := 0 }) c

/-- One step of SAPPLY for a chunk above 0 (R215). -/
def applyStep (s : State) (core : Nat) (c : Crew) (w : SWord) (t last : Nat) : SRun :=
  if stepPoison s core c w t then .fault 0x18
  else
    let o := descOf c w
    let kind := dKind o
    let h := w.h.toNat
    let r := recordAt s core c w t
    let (c1, fl, ys) := overChans (fun c ch =>
      let e := prefixElem kind (elemAt c w r ch)
      let x := if t = 0 then e else combineChan kind (aggGet c kind h ch) e
      let st := applyCarry kind x (chanGet c (h + aggW kind) ch)
      let sb := st.map fun y => y.bits
      let c1 := aggPut c kind h ch x
      (if t = last then chanPut c1 (h + aggW kind) ch sb else c1, x.fl ||| orFlags st,
       if dYo o then some (readoutChan r.cv sb) else none)) c 128
    match deliver s core c1 w t 128 ys with
    | none => .wait 2
    | some (s1, c2) => .more s1 (sNext { c2 with sctx := { c2.sctx with flags := c2.sctx.flags ||| fl } })

/-- Boundaries of an instruction. -/
def sUnits (k : SKind) (c : Crew) (w : SWord) : Nat :=
  match k with
  | .load | .store => 128
  | .zero | .step | .opset _ => 1
  | .read => 128 - rowXof c w
  | .scan | .apply => clenOf w
  | .agg => max (stepCount c w) 1
  | _ => 0

/-- One boundary at SPROG. -/
def sUnit (s : State) (core : Nat) (c : Crew) (k : SKind) (w : SWord) : SRun :=
  let t := c.sctx.sprog
  let n := nRead c .s w.nsel
  let T := stepCount c w
  match k with
  | .load => loadChan s core c w n
  | .store => storeChan s core c w n
  | .read => readChan s c w n
  | .zero =>
    .more ((List.range 128).foldl (fun s ch => if ch < n then cleanChan s core w.h.toNat ch else s) s)
      (sNext ((List.range 128).foldl (fun c ch => if ch < n then chanPut c w.h.toNat ch (List.replicate 64 0) else c) c))
  | .opset _ =>
    let x := rowXof c w
    if relPoison s core c (rowGrp x) (rowNum x : Int) then .fault 0x18
    else .more s (sNext { c with o := spSet c.o w.o.toNat ((relRead s core c (rowGrp x) (rowNum x : Int)).truncate 64) })
  | .step => stateStep s core c w w.h.toNat 0 (min n 128)
  | .scan => if t < T then stateStep s core c w w.h.toNat t 128 else skipStep s c w
  | .agg =>
    if T = 0 then .more s (sNext (if chunkIdx s c = 0 then aggInit c (dKind (descOf c w)) w.h.toNat else c))
    else aggStep s core c w t
  | .apply =>
    if T ≤ t then skipStep s c w
    else if chunkIdx s c = 0 then stateStep s core c w (w.h.toNat + aggW (dKind (descOf c w))) t 128
    else applyStep s core c w t (T - 1)
  | _ => .more s (sNext c)

/-- Retirement: flags are set, d0 falls. -/
def sFinish (s : State) (c : Crew) : Out :=
  let c1 := dDrop (setFlags c c.sctx.flags) .s 0
  done s { c1 with sctx := idleSctx } .s 12

/-- Whether the instruction has still to read its fixed readout vector: it is read before its first step (R205), and again
after a restore, whose record holds no such rows (log 90). -/
def needsCv (c : Crew) (k : SKind) (w : SWord) : Bool :=
  (decide (k = .scan) || decide (k = .apply) || decide (k = .step)) && dYo (descOf c w) && dCi (descOf c w) &&
    c.sctx.cv.isEmpty && (decide (k = .step) || decide (c.sctx.sprog < stepCount c w))

/-- Reads it; its rows meet the phase sets and poison as those of a step do (R219, R247). -/
def loadCv (s : State) (core : Nat) (c : Crew) (k : SKind) (w : SWord) : Except Nat Crew :=
  if !needsCv c k w then .ok c
  else if isDet c && (cvRows c w).any fun x => !phaseOk s c .s true false (rowForm x) then .error 0x0F
  else if (cvRows c w).any fun x => relPoison s core c x.1 x.2 then .error 0x18
  else .ok { c with sctx := { c.sctx with cv := (cvRows c w).map (readRel s core c) } }

/-- Runs boundaries from SPROG until the instruction retires, stops, or has served the boundaries of this step: then it
stands between two of them, where a save may find it (R218). -/
def sLoop (core : Nat) (k : SKind) (w : SWord) : Nat → State → Crew → Out
  | 0, s, c => if sUnits k c w ≤ c.sctx.sprog then sFinish s c else wait s c .s 0
  | fuel + 1, s, c =>
    if sUnits k c w ≤ c.sctx.sprog then sFinish s c
    else match loadCv s core c k w with
    | .error cause => raiseHere s c .s cause 0
    | .ok c0 =>
      if !unitPhaseOk s c0 k w then raiseHere s c0 .s 0x0F 0
      else match sUnit s core c0 k w with
      | .more s1 c1 => sLoop core k w fuel s1 (clearStall c1)
      | .wait cls => wait s c0 .s cls
      | .fault cause => raiseHere s c0 .s cause 0
      | .marked cause pc addr => .next (raise s s.cur.core s.cur.slot c0 { faultInfo c0 .s cause addr with pc := pc })

/-- The boundaries that this step may serve: those named, but SZERO, SOPSET and STEP end only at their retirement (R218). -/
def sSteps (s : State) (k : SKind) (c : Crew) (w : SWord) : Nat :=
  match k, s.part with
  | .scan, some n | .agg, some n | .apply, some n | .load, some n | .store, some n | .read, some n => n
  | _, _ => sUnits k c w

/-- An S instruction of one crew: issued, or continued at SPROG. -/
def sExec (k : SKind) (w : SWord) (s : State) : Out :=
  onCrew s .s fun c =>
    if c.sctx.active then sLoop s.cur.core k w (sSteps s k c w) s c
    else match sIssue s s.cur.core c k w with
    | .wait cls => wait s c .s cls
    | .fault cause addr => raiseHere s c .s cause addr
    | .go c1 => sLoop s.cur.core k w (sSteps s k c1 w) s c1

def execSload (w : SWord) (s : State) : Out := sExec .load w s
def execSstore (w : SWord) (s : State) : Out := sExec .store w s
def execSzero (w : SWord) (s : State) : Out := sExec .zero w s
def execSread (w : SWord) (s : State) : Out := sExec .read w s
def execScan (w : SWord) (s : State) : Out := sExec .scan w s
def execSagg (w : SWord) (s : State) : Out := sExec .agg w s
def execSapply (w : SWord) (s : State) : Out := sExec .apply w s
def execStep (w : SWord) (s : State) : Out := sExec .step w s
def execSopsetDiag (w : SWord) (s : State) : Out := sExec (.opset 0) w s
def execSopsetBd2 (w : SWord) (s : State) : Out := sExec (.opset 1) w s
def execSopsetBd4 (w : SWord) (s : State) : Out := sExec (.opset 2) w s
def execSopsetBd8 (w : SWord) (s : State) : Out := sExec (.opset 3) w s
def execSopsetMaxplus (w : SWord) (s : State) : Out := sExec (.opset 4) w s
def execSopsetGsum (w : SWord) (s : State) : Out := sExec (.opset 5) w s

end Sys2Proof.Machine
end

