-- ==== Sys2Proof/Machine/Time.lean ====
section
/-!
DEFINITION. Machine/Time.lean: the passage of time: the cycle counter (R111), stall counters (R268) and pre-emption
deadlines (R356).
-/
namespace Sys2Proof.Machine

/-- Whether a crew's stall counter holds its value: stopped by the debugger, held at a page fault, or in a handler. -/
def stallHolds (c : Crew) : Bool :=
  debugStopped c || c.trap.inHandler || faultHeld c || (c.ops.any fun o => o.heldBy.isSome)

/-- Whether the deadline count runs (R356). -/
def deadlineRuns (c : Crew) : Bool :=
  c.ctl.preq && !c.ctl.noDeadline && !debugStopped c && !faultHeld c

/-- A crew after `n` cycles without progress. -/
def ageCrew (n : Nat) (c : Crew) : Crew :=
  { c with ctl := { c.ctl with
      stall := if stallHolds c then c.ctl.stall else c.ctl.stall + n
      deadline := if deadlineRuns c then c.ctl.deadline - n else c.ctl.deadline } }

/-- The limit of a crew's stall counter: its launch's STALL (R268, R303). -/
def stallLimit (s : State) (c : Crew) : Nat := ((launchById s c.launch).map (·.stallLimit)).getD (2 ^ 24)

/-- What falls due for a crew: the stall watchdog (R269), or the forced save at the deadline (R356). -/
def dueFor (s : State) (k : Nat) (c : Crew) : List Activity :=
  (if stallLimit s c ≤ c.ctl.stall ∧ stallHolds c = false then
     [.event .stallWatchdog { core := k / 2, slot := k % 2 }] else []) ++
  (if deadlineRuns c ∧ c.ctl.deadline = 0 then [.event .forcedSave { core := k / 2, slot := k % 2 }] else [])

/-- The module power cap idles the engines while these cycles pass: stall counters and deadlines hold (R439). -/
def capIdle (s : State) : Bool := decide (regGet s 0 rPWRCAP ≠ 0) && Config.throttled s.freeCtr

/-- `n` cycles pass. -/
def passTime (n : Nat) (s : State) : State :=
  match s.power with
  | .retention => s
  | .off => s
  | .thermal => s
  | _ =>
    let s1 : State := { s with
      cycle := s.cycle + BitVec.ofNat 64 n, freeCtr := s.freeCtr + 1
      crews := if capIdle s then s.crews else s.crews.map fun p => (p.1, ageCrew n p.2) }
    { s1 with agenda := s1.agenda ++ (s1.crews.map fun p => dueFor s1 p.1 p.2).flatten }

end Sys2Proof.Machine
end

