-- ==== Sys2Proof/Machine/Contexts.lean ====
section
/-!
DEFINITION. Machine/Contexts.lean: context records (R348 to R353), saves and tears (R352, R354), eligible slots (R315),
restores (R355), and the events that stop a crew: yield, forced save, page-fault swap, migrate trap (R248, R346, R356 to
R359).
-/
namespace Sys2Proof.Machine
open FieldCheck

/-! ### The record's place (R351) -/

/-- Rows of a record before the scratchpad section. -/
def recFixed : Nat := 5219

/-- Rows of every record of a launch, S_c div 64. -/
def recRowCount (l : Launch) : Nat := recFixed + l.ra + l.rb + l.nv + 1024 * l.nt + 512 * l.nh

/-- SAVE, or the region of the tenant's default save area that firmware gives the launch, in the form of DONE. -/
def saveWord (l : Launch) : Word := if fld l.save 40 24 = 0 then Config.defaultSave l.tenant l.id else l.save

/-- Byte offset of row `i` of a rank's record in the save object. -/
def recOffset (l : Launch) (rank i : Nat) : Nat := fld (saveWord l) 0 40 + 64 * (rank * recRowCount l + i)

/-- Where a rank's record enters a 16 KiB piece of the save object. -/
def recPieces (l : Launch) (rank : Nat) : List Nat := pieceStarts (recOffset l rank 0) (64 * recRowCount l)

/-- First rows of the sections. -/
def secBanks : Nat := 24
def secFifos : Nat := 37
def secWords : Nat := 69
def secRows : Nat := 87
def secReplays : Nat := 191
def secLists : Nat := 319
def secGroup : Nat := 451
def secBypass : Nat := 483
def secTags : Nat := 995
def secWindow : Nat := 1123

/-- Queues of the two queue sections, in order. -/
def wordQueues : List Nat := [2, 3, 4, 5, 6, 9]
def rowQueues : List Nat := [0, 1, 7, 8, 10, 11, 12, 13]

/-- First slot of queue `q` within a section, its slots numbered from the section's start. -/
def slotBase (qs : List Nat) (q : Nat) : Nat := ((qs.takeWhile fun x => decide (x ≠ q)).map qDepth).sum

/-! ### Writing a record -/

/-- A row from fields: value, byte position, byte count. -/
def fields (l : List (Nat × Nat × Nat)) : Row := BitVec.ofNat 512 ((l.map fun x => put x.1 x.2.1 x.2.2).sum)

/-- `n` rows of `w`-bit elements numbered through the section. -/
def elemRows (w n : Nat) (f : Nat → Nat) : List Row :=
  (List.range n).map fun r => rowOf w (512 / w) fun i => f (512 / w * r + i)

/-- MODE (R238). -/
def modeBits (c : Crew) : Nat :=
  (if isDet c then 1 else 0) + (if isCheck c then 2 else 0) + (if isPriv c then 4 else 0) +
    (if c.trap.inHandler then 8 else 0) + (if isNoMig c then 16 else 0)

/-- RSTAT (R221). -/
def rstatWord (c : Crew) : Nat := c.rem.rspill * 2 ^ 32 + c.rem.rdepth

/-- Operations that a save records: every unfinished one (at most 64, log 92), and those whose fault is still to be
joined, as far as there is room for all of them. -/
def savedOps (c : Crew) : List EngOp := if c.ops.length ≤ 64 then c.ops else c.ops.filter fun o => !o.fell

/-- Operations that have fallen faulted and find no room in the record. -/
def joinOps (c : Crew) : List EngOp := if c.ops.length ≤ 64 then [] else c.ops.filter fun o => o.fell

/-- Failure marks, one bit per slot of the queue sections. -/
def failBits (c : Crew) : Nat :=
  let bit (base q : Nat) : Nat :=
    ((mapNth (fun i (e : QEntry) => if e.fail = 0 then 0 else 2 ^ (base + i)) 0 (queueOf c q))).sum
  (wordQueues.map fun q => bit (slotBase wordQueues q) q).sum +
    (rowQueues.map fun q => bit (144 + slotBase rowQueues q) q).sum

/-- A-bypass as it is recorded: not valid in .f32. -/
def bypKept (c : Crew) : Bool := c.mctx.bypValid && decide (widthOf c.mctx.bypFmt ≤ 16)

/-- Rows 1 to 3 of the control section (R349). -/
def ctlRows1 (c : Crew) : List Row :=
  let five (f : Stream → Nat) (pos n : Nat) : List (Nat × Nat × Nat) :=
    mapNth (fun i e => (f (strOf c e), pos + n * i, n)) 0 allEngs
  [ fields (five (·.pc) 0 8 ++ five (·.wait) 40 1 ++ [(c.eng.toNat, 45, 1), (modeBits c, 46, 1), (c.ctl.stall, 48, 8)]),
    fields (five (·.path) 0 8 ++ [(c.slipw, 40, 4), (c.fstat.toNat, 44, 4), (rstatWord c, 48, 8), (c.cd, 56, 1),
      (c.vctx.vrep, 57, 1), (if c.demote then 1 else 0, 58, 1)]),
    fields [(c.ors, 0, 8), (c.mctx.mprog, 8, 8), (c.sctx.sprog, 16, 8), ((c.mctx.fw.getD 0).toNat, 24, 8),
      (c.mctx.flags.toNat, 32, 1), (c.sctx.flags.toNat, 33, 1),
      ((match c.sctx.rowX with | some r => r % 2 ^ 15 + 2 ^ 15 | none => 0), 36, 2),
      ((if bypKept c then 1 + 2 * (c.mctx.bypFmt % 32) else 0), 40, 1)] ]

/-- Rows 4 to 20: registers and counters, fixed registers at their fixed values. -/
def ctlRows2 (c : Crew) : List Row :=
  let d (e : Eng) (pos : Nat) : List (Nat × Nat × Nat) := (List.range 8).map fun i => (dRead c e i, pos + 2 * i, 2)
  let n (e : Eng) (pos : Nat) : List (Nat × Nat × Nat) :=
    (List.range 8).map fun i => (if i = 0 then 0xFFFF else (spGet (strOf c e).n i).toNat, pos + 2 * i, 2)
  elemRows 64 4 (fun i => (spGet c.cs i).toNat) ++ elemRows 64 4 (fun i => (spGet c.as i).toNat) ++
    elemRows 128 4 (fun i => (spGet c.k i).toNat) ++
    [ fields ([((setBit c.cp 0 true).toNat, 0, 2), ((setBit c.ap 0 true).toNat, 2, 2)] ++ d .a 4 ++ d .m 20 ++ d .s 36),
      fields (n .v 0 ++ n .m 16 ++ n .s 32),
      fields ((List.range 4).map fun i => ((spGet c.o i).toNat, 8 * i, 8)) ] ++
    elemRows 64 2 fun i => if i = 0 then 2 ^ 64 - 1 else (spGet c.mask i).toNat

/-- Rows 21 to 23. -/
def ctlRows3 (c : Crew) : List Row :=
  let ov (x : Option Word) : Nat := (x.getD 0).toNat
  [ fields [(c.trap.tcause.toNat, 0, 8), (c.trap.tpc.toNat, 8, 8), (c.trap.taddr.toNat, 16, 8), (c.trap.tinfo.toNat, 24, 8),
      (c.ctl.dbgctl.toNat, 32, 8), (c.ctl.dbgstat.toNat, 40, 8)],
    fields ((List.range 14).map (fun q => ((queueOf c q).length, q, 1)) ++ [(failBits c, 16, 31)] ++
      mapNth (fun i e => ((strOf c e).fifo.length, 48 + i, 1)) 0 jointEngs),
    fields [((savedOps c).length, 0, 1), (ov c.vctx.guard, 8, 8), (ov c.vctx.d1val, 16, 8), (ov c.vctx.d2val, 24, 8),
      ((if c.vctx.guard.isSome then 1 else 0) + (if c.vctx.d1val.isSome then 2 else 0) +
        (if c.vctx.d2val.isSome then 4 else 0), 32, 1),
      (c.mctx.group.length, 33, 1),
      ((match c.phase with | some p => p % 2 ^ 13 + 2 ^ 15 | none => 0), 34, 2),
      (if c.trap.inHandler then c.trap.hpcC else 0, 40, 8), (if c.trap.inHandler then c.trap.hpcA else 0, 48, 8)] ]

/-- The handler banks (R241). -/
def bankRows (c : Crew) : List Row :=
  elemRows 64 4 (fun i => (spGet c.trap.hcs i).toNat) ++ elemRows 64 4 (fun i => (spGet c.trap.has i).toNat) ++
    elemRows 128 4 (fun i => (spGet c.trap.hk i).toNat) ++
    [fields [((setBit c.trap.hcp 0 true).toNat, 0, 2), ((setBit c.trap.hap 0 true).toNat, 2, 2)]]

/-- A replay descriptor's two rows (R353). -/
def replayRows (o : EngOp) : List Row :=
  let ccap := if opCe o then o.ccap else 0
  let next := if o.nulled then opRows o else o.next
  [ fields [(o.pc, 0, 8), (o.desc.toNat, 8, 8), (o.aux.toNat, 16, 8), (o.src.toNat, 24, 16), (o.dst.toNat, 40, 16),
      (next, 56, 4), (o.kind, 60, 1), (if o.fault = 0 then 0 else 1, 61, 1), (o.fault, 62, 1)],
    fields [(ccap.toNat, 0, 16), (o.path, 16, 8)] ]

/-- `n` rows, the given ones first. -/
def padRows (n : Nat) (l : List Row) : List Row := l ++ List.replicate (n - l.length) 0

/-- Outcome FIFOs, queues, replays, M's lists and groups, A-bypass, remainder. -/
def midRows (c : Crew) : List Row :=
  let fifo (e : Eng) : List Row := elemRows 64 8 fun i => ((strOf c e).fifo.getD i 0).toNat
  let words (q : Nat) : List Row :=
    elemRows 64 (qDepth q / 8) fun i => (((queueOf c q)[i]?).map fun e => e.data.toNat).getD 0
  let rows (q : Nat) : List Row := padRows (qDepth q) ((queueOf c q).map fun e => e.data)
  let bw := widthOf c.mctx.bypFmt
  (jointEngs.map fifo).flatten ++ (wordQueues.map words).flatten ++ (rowQueues.map rows).flatten ++
    padRows 128 (((savedOps c).map replayRows).flatten) ++
    elemRows 16 128 (fun i => (spGet c.mctx.gather i).toNat) ++ elemRows 16 4 (fun i => (spGet c.mctx.scatter i).toNat) ++
    padRows 32 c.mctx.group ++
    (if bypKept c then padRows 512 (elemRows bw (128 * bw * 128 / 512) fun i => (spGet c.mctx.byp i).toNat)
     else List.replicate 512 0) ++
    elemRows 16 128 (fun i => if c.rem.rspill + i < c.rem.rdepth then (spGet c.rem.tag (c.rem.rspill + i)).toNat else 0) ++
    (List.range 4096).map fun i => if c.rem.rspill + i < c.rem.rdepth then spGet c.rem.row (c.rem.rspill + i) else 0

/-- Row form of the `r`-th row of the scratchpad section. -/
def scratchForm (c : Crew) (r : Nat) : Nat := if r < c.ra then r else 2 ^ 14 + (r - c.ra)

/-- Scratchpad, vector, accumulator and state sections. -/
def storeRows (s : State) (core : Nat) (c : Crew) : List Row :=
  (List.range (c.ra + c.rb)).map (fun r => BitVec.ofNat 512 (readUnit s (rowFormKey core c (scratchForm c r)) 64)) ++
    (List.range c.nv).map (fun i => spGet c.v i) ++
    elemRows 32 (1024 * c.nt) (fun i => (spGet c.acc i).toNat) ++
    elemRows 32 (512 * c.nh) fun i => (spGet c.st i).toNat

/-- Rows 1 on of a record, numbered; the handler banks are written only in handler mode (R348). -/
def bodyRows (s : State) (core : Nat) (c : Crew) : List (Nat × Row) :=
  mapNth (fun i r => (i, r)) 1 (ctlRows1 c ++ ctlRows2 c ++ ctlRows3 c) ++
    (if c.trap.inHandler then mapNth (fun i r => (i, r)) secBanks (bankRows c) else []) ++
    mapNth (fun i r => (i, r)) secFifos (midRows c ++ storeRows s core c)

/-! ### Live sets (R248, R309, R352) -/

/-- List rows of the unfinished GATHERs and SCATTERs, in the row form. -/
def keptLists (ops : List EngOp) : List Nat :=
  (ops.map fun o =>
    if (o.kind = 4 ∨ o.kind = 5) ∧ rowsDone o = false then (List.range (listRows (opRows o))).map fun j => fld o.aux 0 15 + j
    else []).flatten

/-- Whether row `i` of a record is written: every row without a live set `y`; of a live set, the rows it keeps. -/
def rowLive (l : Launch) (y : Option Row) (lists : List Nat) (i : Nat) : Bool :=
  match y with
  | none => true
  | some y =>
    let a := recFixed
    let b := a + l.ra + l.rb
    let t := b + l.nv
    let h := t + 1024 * l.nt
    if i < a then true
    else if i < b then
      (let r := if i - a < l.ra then i - a else 2 ^ 14 + (i - a - l.ra)
       lists.contains r || (List.range 4).any fun k => rangeHas (rowElem y 32 k) r)
    else if i < t then
      [5, 6].any fun k =>
        let x := rowElem y 32 k
        decide (x % 2 ^ 10 ≤ i - b) && decide (i - b < x % 2 ^ 10 + x / 2 ^ 16 % 2 ^ 10)
    else if i < h then (rowElem y 16 8).testBit ((i - t) / 1024)
    else (rowElem y 16 9).testBit ((i - h) / 512)

/-- The live set of a kind 1 save. -/
def liveSet (l : Launch) (kind ls : Nat) : Option Row := if kind = 1 then some (l.yields.getD ls 0) else none

/-! ### Saving (R352, R354) -/

/-- Record row that holds a unit of the crew's storage (R421 kinds of `crewUnit`). -/
def unitRow (l : Launch) (c : Crew) (kind idx : Nat) : Nat :=
  let v := recFixed + l.ra + l.rb
  match kind with
  | 0 => v + idx
  | 1 => v + l.nv + 8 * idx
  | 2 => v + l.nv + 1024 * l.nt + idx
  | 3 => secWindow + (idx - c.rem.rspill)
  | _ => secBypass + idx

/-- Whether a unit of the crew's storage is recorded: of the remainder stack, the window rows (R235); of the A-bypass
buffer, the rows of a recorded format (R348). -/
def unitKept (c : Crew) (kind idx : Nat) : Bool :=
  match kind with
  | 3 => decide (c.rem.rspill ≤ idx) && decide (idx < c.rem.rdepth)
  | 4 => bypKept c
  | _ => true

/-- Record rows whose data is poisoned. -/
def poisonedRows (s : State) (core slot : Nat) (l : Launch) (c : Crew) : List Nat :=
  (s.host.poison.filterMap fun p =>
    if p.1 = 1 ∧ p.2 / 2 ^ 24 / 8 = 2 * core + slot ∧ unitKept c (p.2 / 2 ^ 24 % 8) (p.2 % 2 ^ 24) then
      some (unitRow l c (p.2 / 2 ^ 24 % 8) (p.2 % 2 ^ 24)) else none) ++
  ((List.range (c.ra + c.rb)).filter fun r => isPoisoned s (rowFormKey core c (scratchForm c r))).map (recFixed + ·)

/-- Everything that R352 waits for has happened: no retired store unacknowledged, no queue entry without its data, no
row of an operation in flight, no atomic at its destination; and no frame of the record is still to be pulled (R413). -/
def saveReady (s : State) (core slot : Nat) (c : Crew) : Bool :=
  (match launchById s c.launch with
   | none => true
   | some l => (recPieces l c.rank).all fun u => !extentPend s l.tenant (fld (saveWord l) 40 24) u) &&
  !(s.fabric.msgs.any fun m => !m.inbound && decide (m.core = core) && decide (m.slot = slot) &&
      !(decide (m.waiter = 1) && decide (m.cls = 0))) &&
    !(c.queues.any fun q => q.any fun e => e.pending)

/-- Writes rows of a record. -/
def writeRows (s : State) (l : Launch) (rank : Nat) (rows : List (Nat × Row)) : State :=
  rows.foldl (fun s p => extentWriteRow s l.tenant (fld (saveWord l) 40 24) (recOffset l rank p.1) p.2) s

/-- COMMIT (R350). -/
def commitWord (seq kind state : Nat) : Nat := seq % 2 ^ 32 * 2 ^ 32 + 0x7C0E * 2 ^ 16 + kind * 2 ^ 8 + state

/-- The header row. -/
def headerRow (l : Launch) (c : Crew) (core seq kind state valid ls : Nat) : Row :=
  fields [(commitWord seq kind state, 0, 8), (valid, 8, 8), (64 * recRowCount l, 16, 8), (c.rank, 24, 8),
    (l.doneObj.toNat, 32, 8), (1, 40, 1), (if isSaffron core then 1 else 0, 41, 1),
    (if kind = 1 then ls else 0xFFFF, 42, 2), (core, 44, 4)]

/-- Drops the answers that the crew's abandoned loads would have had (R103). -/
def dropLoads (s : State) (core slot : Nat) : State :=
  { s with fabric := { s.fabric with msgs := s.fabric.msgs.filter fun m =>
      !(!m.inbound && decide (m.core = core) && decide (m.slot = slot) && decide (m.waiter = 1)) } }

/-- Whether the crew takes part in an exchange that is open on its die (R218). -/
def exchangeOpen (s : State) (core : Nat) (c : Crew) : Bool :=
  match groupOf s c with
  | none => false
  | some (_, _, inst) =>
    s.fabric.exchanges.any fun x => decide (x.die = dieOf core) && decide (x.launch = c.launch) && decide (x.inst = inst) &&
      x.opened && decide (x.failed = 0)

/-- The unit at the migration level that holds a rank (R276, R358). -/
def migUnit (l : Launch) (rank : Nat) : Nat := rank / levelUnit l l.migl

/-- The type 7 record of a torn save, and the increment with ERR (R354, R240). -/
def tornReport (s : State) (l : Launch) (rank core valid : Nat) : State :=
  let r := put 7 0 1 + put (fld (saveWord l) 40 24 * 2 ^ 40 + recOffset l rank 0) 8 8 + put valid 16 8 + put s.cycle.toNat 32 8 +
    put rank 44 4 + put l.doneObj.toNat 48 8 + put core 56 4
  countRetired (crewIncrement (tenantError s l.tenant [r]) l.id true) l.id rank

/-- Every other crew of a rank's migration unit ends in the same way. -/
def tearUnit (s : State) (l : Launch) (rank valid : Nat) : State :=
  let mates := s.crews.filter fun p => decide (p.2.launch = l.id) && decide (migUnit l p.2.rank = migUnit l rank)
  let s1 := mates.foldl (fun s p =>
    tornReport (freeSlot (drainErrs s (p.1 / 2) (p.1 % 2)) (p.1 / 2) (p.1 % 2)) l p.2.rank (p.1 / 2) valid) s
  let away := s1.sched.saved.filter fun x => decide (x.launch = l.id) && decide (migUnit l x.rank = migUnit l rank)
  let s2 := away.foldl (fun s x => tornReport s l x.rank 0xFFFF_FFFF valid) s1
  { s2 with sched := { s2.sched with saved := s2.sched.saved.filter fun x =>
      !(decide (x.launch = l.id) && decide (migUnit l x.rank = migUnit l rank)) } }

/-- The page faults that hold the crew's streams, those of its handler among them, with what each reports if it is
answered with fail (R343, R346). -/
def heldFaults (c : Crew) : List (Nat × FaultInfo) :=
  (allEngs.filterMap fun e =>
    if active c e then (match (strOf c e).status with
      | .held t u => some (t, { faultInfo c e 0x06 u with pc := (strOf c e).pc })
      | _ => none) else none) ++
  (if c.trap.inHandler then [Eng.c, Eng.a].filterMap fun e =>
    (match statusOf c e with | .held t u => some (t, faultInfo c e 0x06 u) | _ => none) else [])

/-- The meeting that a stream has arrived at (R246 to R249, R275). -/
def meetStatus : StreamStatus → StreamStatus
  | .arrived => .arrived
  | .joint k p => .joint k p
  | .yielded l => .yielded l
  | _ => .running

/-- What of the crew the record has no place for. -/
def sideOf (c : Crew) : SideCtx :=
  { ops := (savedOps c).map fun o =>
      { claim := o.claim, skipped := o.skipped, faultOff := o.faultOff, signalled := o.signalled || o.nulled,
        heldBy := o.heldBy, failed := none, afterKey := o.afterKey, step := o.step }
    meets := allEngs.map fun e => if (strOf c e).wait = 0xB then meetStatus (strOf c e).status else .running
    joins := joinOps c, cv := c.sctx.cv
    fails := ((wordQueues ++ rowQueues).map fun q =>
      (queueOf c q).filterMap fun e => if e.fail = 0 then none else some (e.fail, e.pc, e.addr)).flatten
    htext := c.trap.htext, pbres := c.ctl.pbres, issueNo := c.issueNo, exchNo := c.exchNo, born := c.born
    held := heldFaults c }

/-- Cores on which the context may be restored: profile F only (R203, R236, R358). -/
def contextNeedsF (c : Crew) (kind : Nat) : Bool :=
  decide (kind = 4) || decide (c.rem.rdepth ≠ 0) || (List.range 4).any fun i => isBlockKind (dKind (spGet c.o i))

/-- Saves the crew on a slot as a record of a kind and releases the slot; a record that cannot be completed is torn. The
crew stands at its boundary and `saveReady` holds. An error that the event names cuts the save short at a row of the save
area, which it poisons (R354). -/
def saveCrew (s : State) (core slot kind ls : Nat) (group : Option Nat) : State :=
  match crewAt s core slot with
  | none => s
  | some c =>
    match launchById s c.launch with
    | none => s
    | some l =>
      let s1 := drainErrs (dropLoads (flushCore s core) core slot) core slot
      let seq := (spGet l.seqs c.rank).toNat + 1
      let live := liveSet l kind ls
      let lists := keptLists (savedOps c)
      let waits := (heldFaults c).head?.map (·.1)
      let bad := (poisonedRows s1 core slot l c).filter (rowLive l live lists)
      let obj := fld (saveWord l) 40 24
      let fits := (recPieces l c.rank).all fun u => (extentKey s1 l.tenant obj u).isSome
      let cut := (s.ev.cuts.filter fun x => decide (x.1 = core) && decide (x.2.1 = slot) && decide (x.2.2 < recRowCount l)).map (·.2.2)
      if fits && bad.isEmpty && cut.isEmpty then
        let rows := (bodyRows s1 core c).filter fun p => rowLive l live lists p.1
        let s2 := writeRows s1 l c.rank (rows ++ [(0, headerRow l c core seq kind 1 (64 * recRowCount l) ls)])
        let s3 := setLaunch (freeSlot s2 core slot) { l with seqs := spSet l.seqs c.rank (BitVec.ofNat 32 seq) }
        let x : SavedCtx :=
          { launch := l.id, rank := c.rank, seq := seq, kind := kind, needF := contextNeedsF c kind,
            waits := waits, group := group, side := sideOf c, order := s3.sched.nextOrder }
        { s3 with sched := { s3.sched with saved := s3.sched.saved ++ [x], nextOrder := s3.sched.nextOrder + 1 } }
      else
        let valid := if fits then 64 * ((bad ++ cut).foldl min (recRowCount l)) else 0
        let s2 := writeRows s1 l c.rank
          (((bodyRows s1 core c).filter fun p => rowLive l live lists p.1 && decide (64 * p.1 < valid)) ++
            (if fits && !cut.contains 0 then [(0, headerRow l c core seq kind 2 valid ls)] else []))
        let s3 := (cut.filterMap fun i => extentKey s2 l.tenant obj (recOffset l c.rank i)).foldl poisonKey s2
        tearUnit s3 l c.rank valid

/-! ### Eligible slots (R315, R401) -/

/-- A slot admits a tenant: SPCORE, and the tenant's partition. -/
def slotAdmits (s : State) (core slot tenant : Nat) : Bool :=
  let r := regGet s 0 (rSPCORE core)
  (decide (fld r (16 + slot) 1 = 1) || decide (fld r (8 * slot) 8 = tenant)) &&
    (decide (tenant = 0) || (fnPart s (fnOf s tenant)).testBit (quarterOf core))

/-- Whether a die's committed calendar holds a slot that is open or owned by the tenant. -/
def calendarAdmits (s : State) (die tenant : Nat) : Bool :=
  (List.range 64).any fun i =>
    let x := spGet s.sched.calendar (64 * die + i) ^^^ 0x100#16
    decide (fld x 8 1 = 1) || decide (fld x 0 8 = tenant)

/-- The core is present and not harvested (R423, R424). -/
def corePresent (s : State) (core : Nat) : Bool :=
  decide (core < 256) && (regGet s 0 (rPRESCORE (dieOf core))).getLsbD (core % 32) && !s.host.harvested.contains core

/-- The core's other crew leaves room for a footprint. -/
def roomBeside (s : State) (core slot : Nat) (l : Launch) : Bool :=
  match crewAt s core (1 - slot) with
  | none => true
  | some c => decide (c.ra + l.ra ≤ 16384) && decide (c.rb + l.rb ≤ 16384) && decide (c.nt + l.nt ≤ 16) &&
      decide (c.nh + l.nh ≤ 16) && decide (c.nv + l.nv ≤ 768)

/-- QMASK of a launch queue. -/
def queueMask (s : State) (q : Nat) : Nat := fld (regGet s 0 (rLQCFG q)) 20 4

/-- The tenant has an enabled virtual network on a die (R379). -/
def networkOn (s : State) (die tenant : Nat) : Bool :=
  (List.range 8).any fun v =>
    let r := regGet s 0 (rVNCFG die v)
    r.getLsbD 0 && decide (fld r 8 8 = tenant)

/-- A free slot on which the scheduler may put a crew of a launch. -/
def slotEligible (s : State) (l : Launch) (core slot : Nat) (needF : Bool) : Bool :=
  decide (slot < 2) && (crewAt s core slot).isNone && corePresent s core &&
    (queueMask s l.queue).testBit (quarterOf core) && !s.sched.quiesce.getLsbD (quarterOf core) &&
    (!(needF || l.flags.getLsbD 3) || isSaffron core) && calendarAdmits s (dieOf core) l.tenant &&
    networkOn s (dieOf core) l.tenant && slotAdmits s core slot l.tenant && roomBeside s core slot l && decide (s.power = .run) && !s.host.cloveError &&
    !s.host.exchange && decide (fnState s (fnOf s l.tenant) = 1)

/-- Number of the instance of a domain that holds a slot. -/
def domainOf (d core slot : Nat) : Nat :=
  [2 * core + slot, core, core / 4, core / 32, core / 64].getD d 0

/-- Slots that lie within one instance of a level's domain. -/
def oneInstance (l : Launch) (lv : Nat) (slots : List (Nat × Nat)) : Bool :=
  let d := ((l.levels[lv]?).map (·.domain)).getD 0
  match slots with
  | [] => true
  | p :: rest => rest.all fun q => decide (domainOf d q.1 q.2 = domainOf d p.1 p.2)

/-! ### Restoring (R355) -/

/-- Bytes `pos` to `pos + n - 1` of a row. -/
def rowBytes (r : Row) (pos n : Nat) : Nat := fld r (8 * pos) (8 * n)

/-- Row `i` of a rank's record as it stands in memory. -/
def recRow (s : State) (l : Launch) (rank i : Nat) : Row :=
  BitVec.ofNat 512 ((extentRead s l.tenant (fld (saveWord l) 40 24) (recOffset l rank i) 64).getD 0)

/-- The header is one that a restore takes. -/
def headerOk (s : State) (l : Launch) (x : SavedCtx) : Bool :=
  let h := recRow s l x.rank 0
  decide (rowBytes h 2 2 = 0x7C0E) && decide (rowBytes h 0 1 = 1) && decide (rowBytes h 4 4 = x.seq) &&
    decide (rowBytes h 24 8 = x.rank) && decide (rowBytes h 32 8 = l.doneObj.toNat) && decide (rowBytes h 40 1 = 1) &&
    !(match extentKey s l.tenant (fld (saveWord l) 40 24) (recOffset l x.rank 0) with
      | some k => isPoisoned s k
      | none => true)

/-- Element `i` of `w` bits of a section from row `base`. -/
def secElem (rd : Nat → Row) (base w i : Nat) : Nat := rowElem (rd (base + i / (512 / w))) w (i % (512 / w))

/-- A sparse store of `n` recorded elements. -/
def secStore {w : Nat} (rd : Nat → Row) (base n : Nat) : Sp w :=
  spList 0 ((List.range n).map fun i => BitVec.ofNat w (secElem rd base w i))

/-- Nothing beside a replay descriptor. -/
def noSideOp : SideOp :=
  { claim := none, skipped := [], faultOff := 0, signalled := false, heldBy := none, failed := none, afterKey := 0, step := none }

/-- One operation from its descriptor; one whose page fault was answered with fail has failed, in its row or its increment. -/
def replayOp (r0 r1 : Row) (side : SideOp) : EngOp :=
  let o : EngOp :=
    { kind := rowBytes r0 60 1, pc := rowBytes r0 0 8, desc := BitVec.ofNat 64 (rowBytes r0 8 8),
      aux := BitVec.ofNat 64 (rowBytes r0 16 8), src := BitVec.ofNat 128 (rowBytes r0 24 16),
      dst := BitVec.ofNat 128 (rowBytes r0 40 16), ccap := BitVec.ofNat 128 (rowBytes r1 0 16), next := rowBytes r0 56 4,
      nulled := false, fault := if rowBytes r0 61 1 % 2 = 1 then rowBytes r0 62 1 else 0, faultOff := side.faultOff,
      path := rowBytes r1 16 8, claim := side.claim, signalled := side.signalled, fell := false, heldBy := none,
      skipped := side.skipped, req := none, afterMsg := 0, afterKey := side.afterKey, step := side.step }
  match side.failed with
  | none => o
  | some (cause, at_) =>
    { o with signalled := o.signalled || rowsDone o, fault := if o.fault = 0 then cause else o.fault
             faultOff := if o.fault = 0 then at_ % 2 ^ 40 else o.faultOff }

/-- The records of restored operations whose page fault was answered with fail while the crew was saved (R150, R346). -/
def failedRecords (s : State) (core slot : Nat) (side : SideCtx) : State :=
  match crewAt s core slot with
  | none => s
  | some c =>
    ((c.ops.drop side.joins.length).zip side.ops).foldl (fun s p =>
      match p.2.failed with
      | some (cause, at_) => opRecord s core slot c p.1 cause at_ p.1.next
      | none => s) s

/-- Marks as counted down the operations of each counter beyond those that the counter still counts (R150). -/
def markFell (d : Nat → Nat) : List EngOp → List EngOp
  | [] => []
  | o :: rest =>
    { o with fell := decide (d (opDc o) ≤ (rest.filter fun x => decide (opDc x = opDc o)).length) } :: markFell d rest

/-- One queue from its section: `n` entries from slot `b`, failure causes taken in order. -/
def readQueue (elem : Nat → Nat) (marks : Nat) (mb : Nat) : Nat → Nat → List (Nat × Nat × Nat) →
    List QEntry × List (Nat × Nat × Nat)
  | 0, _, fs => ([], fs)
  | n + 1, i, fs =>
    let bad := marks.testBit (mb + i)
    let (f, fs1) := if bad then (fs.headD (0x11, 0, 0), fs.tail) else ((0, 0, 0), fs)
    let (l, fs2) := readQueue elem marks mb n (i + 1) fs1
    ({ data := BitVec.ofNat 512 (elem i), fail := f.1, pending := false, pc := f.2.1, addr := f.2.2 } :: l, fs2)

/-- The fourteen queues from the two queue sections. -/
def readQueues (rd : Nat → Row) (fails : List (Nat × Nat × Nat)) : List (List QEntry) :=
  let counts := rd 22
  let marks := rowBytes counts 16 31
  let one (isRow : Bool) (acc : List (Nat × List QEntry) × List (Nat × Nat × Nat)) (q : Nat) :
      List (Nat × List QEntry) × List (Nat × Nat × Nat) :=
    let b := if isRow then slotBase rowQueues q else slotBase wordQueues q
    let elem (i : Nat) : Nat := if isRow then (rd (secRows + b + i)).toNat else secElem rd secWords 64 (b + i)
    let (l, fs) := readQueue elem marks (if isRow then 144 + b else b) (rowBytes counts q 1) 0 acc.2
    (acc.1 ++ [(q, l)], fs)
  let (a, fs) := wordQueues.foldl (one false) ([], fails)
  let (b, _) := rowQueues.foldl (one true) (a, fs)
  (List.range 14).map fun q => ((b.find? fun p => decide (p.1 = q)).map (·.2)).getD []

/-- A stream from the record; C has no outcome FIFO. -/
def readStream (rd : Nat → Row) (i : Nat) (fifoNo : Option Nat) (n : Option Nat) (d : Option Nat) : Stream :=
  let fifo := match fifoNo with
    | none => []
    | some k => (List.range (rowBytes (rd 22) (48 + k) 1)).map fun j => BitVec.ofNat 64 (secElem rd (secFifos + 8 * k) 64 j)
  { pc := rowBytes (rd 1) (8 * i) 8, path := rowBytes (rd 2) (8 * i) 8, wait := rowBytes (rd 1) (40 + i) 1,
    status := .running, fifo := fifo, joints := 0
    n := (match n with
      | none => []
      | some k => spSet (spList 0 ((List.range 8).map fun j => BitVec.ofNat 16 (rowBytes (rd 17) (16 * k + 2 * j) 2))) 0 0)
    d := (match d with
      | none => []
      | some k => spList 0 ((List.range 8).map fun j => BitVec.ofNat 10 (rowBytes (rd 16) (4 + 16 * k + 2 * j) 2))) }

/-- A recorded register file without its fixed register. -/
def readFile (w : Nat) (rd : Nat → Row) (base n : Nat) : Sp w := spSet (secStore rd base n) 0 0

/-- The crew that a record describes, for a slot. Rows outside the live set read zero. -/
def readCrew (l : Launch) (x : SavedCtx) (slot : Nat) (raw : Nat → Row) : Crew :=
  let c0 := freshCrew { l with inits := [] } x.rank slot
  let h := raw 0
  let r2 := raw 2
  let r3 := raw 3
  let r21 := raw 21
  let r23 := raw 23
  let dA (k : Nat) : Nat := rowBytes (raw 16) (4 + 2 * k) 2
  let ops0 := mapNth (fun i _ => replayOp (raw (secReplays + 2 * i)) (raw (secReplays + 2 * i + 1))
    (x.side.ops.getD i noSideOp)) 0 (List.replicate (rowBytes r23 0 1) ())
  let ops := markFell dA ops0
  let live := liveSet l (rowBytes h 1 1) (rowBytes h 42 2)
  let rd (i : Nat) : Row := if rowLive l live (keptLists ops) i then raw i else 0
  let inH := (rowBytes (raw 1) 46 1).testBit 3
  let strM := readStream rd 3 (some 2) (some 1) (some 1)
  let strC := readStream rd 0 none none none
  let mHeld := !strM.d.isEmpty
  let strS := readStream rd 4 (some 3) (some 2) (some 2)
  let sHeld := !strS.d.isEmpty
  let byp := rowBytes r3 40 1
  let bw := widthOf (byp / 2 % 32)
  let ov (b pos : Nat) : Option Word := if (rowBytes r23 32 1).testBit b then some (BitVec.ofNat 64 (rowBytes r23 pos 8)) else none
  let vb := recFixed + l.ra + l.rb
  let spill := rowBytes r2 52 4
  let depth := rowBytes r2 48 4
  { c0 with
    strC := { strC with joints := (strM.fifo.filter fun y => decide (entryKind y ≤ 1)).length }
    strA := readStream rd 1 (some 0) none (some 0)
    strV := readStream rd 2 (some 1) (some 0) none
    strM := strM, strS := strS
    cs := readFile 64 rd 4 32, as := readFile 64 rd 8 32, k := readFile 128 rd 12 16
    cp := BitVec.ofNat 16 (rowBytes (rd 16) 0 2), ap := BitVec.ofNat 16 (rowBytes (rd 16) 2 2)
    mask := readFile 64 rd 19 16, o := secStore rd 18 4
    v := secStore rd vb l.nv, acc := secStore rd (vb + l.nv) (16384 * l.nt)
    st := secStore rd (vb + l.nv + 1024 * l.nt) (8192 * l.nh)
    queues := readQueues rd x.side.fails
    fstat := BitVec.ofNat 6 (rowBytes r2 44 4), slipw := rowBytes r2 40 4, demote := (rowBytes r2 58 1).testBit 0
    cd := rowBytes r2 56 1, ors := rowBytes r3 0 8, issueNo := x.side.issueNo, exchNo := x.side.exchNo
    born := x.side.born
    phase := if rowBytes r23 34 2 / 2 ^ 15 = 1 then some (rowBytes r23 34 2 % 2 ^ 13) else none
    vctx := { vrep := rowBytes r2 57 1, guard := ov 0 8, d1val := ov 1 16, d2val := ov 2 24 }
    mctx := { fw := if mHeld then some (BitVec.ofNat 64 (rowBytes r3 24 8)) else none, mprog := rowBytes r3 8 8
              gather := secStore rd secLists 4096, scatter := secStore rd (secLists + 128) 128
              group := (List.range (rowBytes r23 33 1)).map fun i => rd (secGroup + i)
              flags := BitVec.ofNat 6 (rowBytes r3 32 1), bypValid := byp.testBit 0
              bypFmt := if byp.testBit 0 then byp / 2 % 32 else 0
              byp := if byp.testBit 0 then
                  spList 0 ((List.range 16384).map fun i => BitVec.ofNat 32 (secElem rd secBypass bw i)) else [] }
    sctx := { active := sHeld, sprog := rowBytes r3 16 8, flags := BitVec.ofNat 6 (rowBytes r3 33 1)
              rowX := if rowBytes r3 36 2 / 2 ^ 15 = 1 then some (rowBytes r3 36 2 % 2 ^ 15) else none, cv := x.side.cv }
    trap := { inHandler := inH, tcause := BitVec.ofNat 64 (rowBytes r21 0 8), tpc := BitVec.ofNat 64 (rowBytes r21 8 8)
              taddr := BitVec.ofNat 64 (rowBytes r21 16 8), tinfo := BitVec.ofNat 64 (rowBytes r21 24 8)
              hcs := if inH then readFile 64 rd secBanks 32 else [], has := if inH then readFile 64 rd (secBanks + 4) 32 else []
              hk := if inH then readFile 128 rd (secBanks + 8) 16 else []
              hcp := if inH then BitVec.ofNat 16 (rowBytes (rd (secBanks + 12)) 0 2) else 0
              hap := if inH then BitVec.ofNat 16 (rowBytes (rd (secBanks + 12)) 2 2) else 0
              hpcC := rowBytes r23 40 8, hpcA := rowBytes r23 48 8, hwaitC := 0, hwaitA := 0
              htext := if inH then x.side.htext else 0, hstC := .running, hstA := .running }
    ctl := { freshCtl with pbres := x.side.pbres, dbgctl := BitVec.ofNat 64 (rowBytes r21 32 8)
                           dbgstat := BitVec.ofNat 64 (rowBytes r21 40 8) }
    rem := { rdepth := depth, rspill := spill
             row := spPut [] spill ((List.range (depth - spill)).map fun i => rd (secWindow + i))
             tag := spPut [] spill ((List.range (depth - spill)).map fun i => BitVec.ofNat 16 (secElem rd secTags 16 i)) }
    ops := x.side.joins ++ ops }

/-- Shoots down every combined entry derived from a binding of a crew (R335, R355 step 5). -/
def dropBindings (s : State) : State :=
  { s with xlat := { s.xlat with tlb := s.xlat.tlb.filter fun e => decide (e.tgt ≠ 2) } }

/-- Restores one saved context on a slot whose header has been checked: STATE = 3, carving, contents, streams at their
saved points. -/
def restoreOne (s : State) (l : Launch) (x : SavedCtx) (core slot : Nat) : State :=
  let h := recRow s l x.rank 0
  let c := readCrew l x slot (recRow s l x.rank)
  let live := liveSet l (rowBytes h 1 1) (rowBytes h 42 2)
  let lists := keptLists c.ops
  let rows := (List.range (l.ra + l.rb)).map fun r =>
    (scratchForm c r, if rowLive l live lists (recFixed + r) then recRow s l x.rank (recFixed + r) else 0)
  let s1 := writeRows s l x.rank [(0, setFld h 0 8 3)]
  let (s2, held) := carve s1 core slot c
  let s3 := rows.foldl (fun s p => writeUnit s (rowFormKey core c p.1) 64 p.2.toNat) s2
  let c1 := mapStreams { c with ctl := { c.ctl with scrubHold := held } } fun e y =>
    { y with status := x.side.meets.getD (engCode e) .running }
  let s4 := failedRecords (dropBindings (putCrew s3 core slot c1)) core slot x.side
  { s4 with sched := { s4.sched with saved := s4.sched.saved.filter fun y => !decide (y = x) } }

/-- The contexts that are restored together with one: its migration group, or itself (R355, R358). -/
def restoreSet (s : State) (x : SavedCtx) : List SavedCtx :=
  match x.group with
  | none => [x]
  | some g => s.sched.saved.filter fun y => decide (y.launch = x.launch) && decide (y.group = some g)

/-- Ranks of a scan-group instance that this package places, in chunk order (R209, R316). -/
def localRanks (l : Launch) (inst : Nat) : List Nat :=
  match l.scanl with
  | none => []
  | some v =>
    let g := levelUnit l v
    let run := levelUnit l l.levels.length / max l.pcnt 1
    ((List.range g).map fun i => inst * g + i).filter fun r => decide (l.pcnt ≤ 1) || decide (r / run = l.pidx)

/-- The die on which a member of a scan group stands or last stood. -/
def homeDie (s : State) (launch rank : Nat) : Option Nat :=
  match (spGet s.fabric.homes (launch * 2 ^ 32 + rank)).toNat with
  | 0 => none
  | d + 1 => some d

/-- Notes where a member of a scan group is placed. -/
def setHome (s : State) (l : Launch) (rank core : Nat) : State :=
  if l.scanl.isSome then
    { s with fabric := { s.fabric with
        homes := spSet s.fabric.homes (l.id * 2 ^ 32 + rank) (BitVec.ofNat 16 (dieOf core + 1)) } }
  else s

/-- The chunk indices that a die holds form one run, dyadic, in the order of the chain, of at most 64 (R210). `dies` are
the dies of consecutive chunks from chunk `first` of a group of `g`. -/
def scanRunsOk (g first : Nat) (dies : List Nat) : Bool :=
  let n := dies.length
  let starts := (List.range n).filter fun i => decide (i = 0) || decide (dies.getD i 0 ≠ dies.getD (i - 1) 0)
  (mapNth (fun k (st : Nat) =>
    let en := starts.getD (k + 1) n
    let m := en - st
    let a := Nat.log2 (2 * m - 1)
    decide (m ≤ 64) && decide ((first + st) % 2 ^ a = 0) && (decide (m = 2 ^ a) || decide (first + en = g)) &&
      (decide (k = 0) || decide (dies.getD (st - 1) 0 < dies.getD st 0))) 0 starts).all id

/-- Whether the members of a scan-group instance that stand somewhere stand as R210 requires. -/
def instanceRunsOk (s : State) (l : Launch) (inst : Nat) : Bool :=
  match l.scanl with
  | none => true
  | some v =>
    let rs := localRanks l inst
    let homes := rs.filterMap fun r => homeDie s l.id r
    decide (homes.length ≠ rs.length) || scanRunsOk (levelUnit l v) (rs.headD 0 % levelUnit l v) homes

/-- The die a saved member left, where an exchange of its group is under way on any die, a list that waits for it
included: it is then restored there only (R218). -/
def boundDie (s : State) (l : Launch) (rank : Nat) : Option Nat :=
  match l.scanl, homeDie s l.id rank with
  | some v, some d =>
    if s.fabric.exchanges.any fun x => decide (x.launch = l.id) &&
        decide (x.inst = rank / levelUnit l v) && decide (x.failed = 0) then some d else none
  | _, _ => none

/-- Whether a saved context may be restored on a slot now. -/
def restorable (s : State) (l : Launch) (x : SavedCtx) (core slot : Nat) : Bool :=
  slotEligible s l core slot x.needF && x.waits.isNone &&
    (match boundDie s l x.rank with | some d => decide (dieOf core = d) | none => true)

/-- Restores contexts in turn on a slot each; none where one of the slots is not eligible beside those before it. -/
def restoreEach (l : Launch) : List (SavedCtx × Nat × Nat) → State → Option State
  | [], s => some s
  | (x, core, slot) :: rest, s =>
    if restorable s l x core slot then restoreEach l rest (setHome (restoreOne s l x core slot) l x.rank core) else none

/-- Whether a restore finds a record whole: every row that it reads is present and without an uncorrectable error (R355). -/
def recordWhole (s : State) (l : Launch) (x : SavedCtx) : Bool :=
  let h := recRow s l x.rank 0
  let live := liveSet l (rowBytes h 1 1) (rowBytes h 42 2)
  let inH := (rowBytes (recRow s l x.rank 1) 46 1).testBit 3
  let lists := keptLists (readCrew l x 0 (recRow s l x.rank)).ops
  (List.range (recRowCount l)).all fun i =>
    !(rowLive l live lists i && (inH || decide (i < secBanks) || decide (secFifos ≤ i))) ||
      (match extentKey s l.tenant (fld (saveWord l) 40 24) (recOffset l x.rank i) with
       | some k => !isPoisoned s k
       | none => false)

/-- A restore cut short by an error leaves STATE = 3, and every crew of the unit ends (R355). -/
def tornRestore (s : State) (l : Launch) (x : SavedCtx) : State :=
  let h := recRow s l x.rank 0
  tearUnit (writeRows s l x.rank [(0, setFld h 0 8 3)]) l x.rank (rowBytes h 8 8)

/-- Restores contexts on slots, one for each. A migration group stands within one instance of its level's domain (R315,
R358); every header is checked before any is restored. -/
def restoreAll (s : State) (l : Launch) (xs : List SavedCtx) (slots : List (Nat × Nat)) : State :=
  let whole := oneInstance l l.migl slots && slots.all fun p => decide (dieOf p.1 = dieOf (slots.headD (0, 0)).1)
  if xs.length ≠ slots.length ∨ xs = [] ∨ (xs.zip slots).any (fun p => !restorable s l p.1 p.2.1 p.2.2) = true then s
  else match xs.find? fun x => !headerOk s l x with
  | some x => tearUnit s l x.rank (rowBytes (recRow s l x.rank 0) 8 8)
  | none =>
    if (decide (xs.length = 1) || whole) = false then s
    else match xs.find? fun x => !recordWhole s l x with
    | some x => tornRestore s l x
    | none =>
    match restoreEach l (xs.zip slots) s with
    | none => s
    | some s1 =>
      if xs.all fun x => instanceRunsOk s1 l (x.rank / levelUnit l (l.scanl.getD 0)) then s1 else s

/-! ### Stopping a crew -/

/-- KIND of a save while a suspend is under way is 5 (R435). -/
def kindNow (s : State) (kind : Nat) : Nat :=
  match s.power with
  | .suspending _ _ => 5
  | _ => kind

/-- The crew whose SUSPEND waits is saved last, past it (R254). -/
def isIssuer (s : State) (core slot : Nat) : Bool :=
  match s.power with
  | .suspending _ (some p) => decide (p = (core, slot))
  | _ => false

/-- Whether the scheduler may stop a crew: a crew that the debugger stops keeps its slot (R256). -/
def mayStop (s : State) (core slot : Nat) (c : Crew) : Bool := !debugStopped c && !isIssuer s core slot

/-- Whether a crew's YIELD has been taken and delivered. -/
def yieldTaken (c : Crew) : Bool :=
  allEngs.any fun e => active c e && (match (strOf c e).status with | .yielded _ => true | _ => false)

/-- The live set of a taken YIELD. -/
def yieldSet (c : Crew) : Nat := match c.strC.status with | .yielded l => l | _ => 0

/-- YIELD_SAVE (operands: core, slot): every active stream has stopped at the YIELD; the live set is saved with the PCs
past it, PREQ falls, the slot is released (R248). -/
def execYieldSave (s : State) : Out :=
  let core := s.ev.core
  let slot := s.ev.slot
  match crewAt s core slot with
  | none => .next s
  | some c =>
    if allStatus c (fun x => match x with | .yielded _ => true | _ => false) && !debugStopped c && saveReady s core slot c then
      .next (saveCrew (putCrew s core slot (passAll c)) core slot (kindNow s 1) (yieldSet c) none)
    else .next s

/-- FORCED_SAVE (operands: core, slot): the deadline has passed; the whole context is saved and event 0x17 recorded. A
YIELD whose take has been delivered completes as a yield (R248, R356). -/
def execForcedSave (s : State) : Out :=
  let core := s.ev.core
  let slot := s.ev.slot
  match crewAt s core slot with
  | none => .next s
  | some c =>
    if deadlineRuns c && decide (c.ctl.deadline = 0) && !yieldTaken c && mayStop s core slot c && saveReady s core slot c then
      let r := errRow s 8 0x17 (put c.strC.pc 4 4) (some (c, core))
      .next (saveCrew (tenantError s c.tenant [r]) core slot (kindNow s 2) 0 none)
    else .next s

/-- PAGE_FAULT_SWAP (operands: core, slot): the faulting crew frees its slot for a waiting one (R346), or is saved
with its hold for a suspend (R437). -/
def execPageFaultSwap (s : State) : Out :=
  let core := s.ev.core
  let slot := s.ev.slot
  match crewAt s core slot with
  | none => .next s
  | some c =>
    if faultHeld c && mayStop s core slot c && saveReady s core slot c &&
        (!s.sched.ready.isEmpty || decide (kindNow s 3 = 5) || s.sched.saved.any fun x => x.waits.isNone) then
      .next (saveCrew s core slot (kindNow s 3) 0 none)
    else .next s

/-- Whether a crew has a migrate trap pending (R358). -/
def migratePending (c : Crew) : Bool :=
  match pendingFault c with
  | some f => decide (f.cause = 0x10)
  | none => false

/-- MIGRATE_TRAP (operands: core, slot): once no exchange of the group is open, every resident crew of the migration
group is saved as KIND 4; the group waits for Saffron slots of one die (R218, R358). -/
def execMigrateTrap (s : State) : Out :=
  let core := s.ev.core
  let slot := s.ev.slot
  match crewAt s core slot with
  | none => .next s
  | some c =>
    match launchById s c.launch with
    | none => .next s
    | some l =>
      let mates := s.crews.filter fun p => decide (p.2.launch = l.id) && decide (migUnit l p.2.rank = migUnit l c.rank)
      let ready (p : Nat × Crew) : Bool :=
        mayStop s (p.1 / 2) (p.1 % 2) p.2 && saveReady s (p.1 / 2) (p.1 % 2) p.2 && !exchangeOpen s (p.1 / 2) p.2
      if migratePending c && mates.all ready then
        let g := some (migUnit l c.rank)
        let s1 := mates.foldl (fun s p => saveCrew s (p.1 / 2) (p.1 % 2) 4 0 g) s
        let join (x : SavedCtx) : SavedCtx :=
          if x.launch = l.id ∧ migUnit l x.rank = migUnit l c.rank then { x with group := g, needF := true } else x
        .next { s1 with sched := { s1.sched with saved := s1.sched.saved.map join } }
      else .next s

/-! ### Ends of crews as events -/

/-- TRAP_TAKEN (operands: core, slot): a crew that has stopped with a fault its tenant handles enters handler mode
(R240, R241). -/
def execTrapTaken (s : State) : Out :=
  match crewAt s s.ev.core s.ev.slot with
  | none => .next s
  | some c =>
    match pendingFault c with
    | none => .next s
    | some f =>
      match (if handleable f.cause then handlerFor s c.tenant f.cause else none) with
      | some h => .next (takeTrap s s.ev.core s.ev.slot c f h)
      | none => .next s

/-- CREW_END_BY_FAULT (operands: core, slot): a crew that has stopped with a fault that no handler takes ends (R240). -/
def execCrewEndByFault (s : State) : Out :=
  match crewAt s s.ev.core s.ev.slot with
  | none => .next s
  | some c =>
    match pendingFault c with
    | none => .next s
    | some f =>
      match (if handleable f.cause then handlerFor s c.tenant f.cause else none) with
      | some _ => .next s
      | none => .next (if f.cause = 0x10 then s else endCrew s s.ev.core s.ev.slot c f 0)

/-- The record of the stall watchdog: two slots (R418 type 5). -/
def stallSlots (s : State) (c : Crew) (core : Nat) : List Nat :=
  let part (e : Eng) (pos : Nat) : Nat :=
    if active c e then put (pcOf c e) pos 4 + put (strOf c e).path (pos + 4) 4 + put (strOf c e).wait (pos + 8) 1 else 0
  [errRow s 5 0x12 (part .c 4 + part .a 13 + part .v 22) (some (c, core)),
   errRow s 0x0F 0x12 (part .m 4 + part .s 13) (some (c, core))]

/-- STALL_WATCHDOG (operands: core, slot): the stall counter has reached the limit; the crew ends with 0x12, handled by
nobody (R269). -/
def execStallWatchdog (s : State) : Out :=
  let core := s.ev.core
  let slot := s.ev.slot
  match crewAt s core slot with
  | none => .next s
  | some c =>
    if stallLimit s c ≤ c.ctl.stall ∧ stallHolds c = false then
      let s1 := drainErrs s core slot
      .next (retireCrew (crewIncrement (tenantError s1 c.tenant (stallSlots s c core)) c.launch true) core slot)
    else .next s

/-- CREW_RETIREMENT (operands: core, slot): every active stream has arrived; the combiner flushes, joins, increments and
releases the slot once nothing holds it back (R249, R274). -/
def execCrewRetirement (s : State) : Out := .next (meet s s.ev.core s.ev.slot)

end Sys2Proof.Machine
end

