-- ==== Sys2Proof/Machine/Sched.lean ====
section
/-!
DEFINITION. Machine/Sched.lean: launch records and their acceptance (R302 to R313), readiness and placement (R314 to
R318), the slot calendar (R319 to R321), pipelines (R322 to R324), digests and signatures (R361 to R365).
-/
namespace Sys2Proof.Machine

/-! ### Fields of a record (R302 to R307) -/

/-- `n` bytes of a record's image from byte `p`. -/
def ib (x : BitVec 4096) (p n : Nat) : Nat := fld x (8 * p) (8 * n)

/-- A table or object reference: object number and byte offset. -/
def refObj (w : Nat) : Nat := bitsOf w 40 24
def refOff (w : Nat) : Nat := bitsOf w 0 40

def recFlags (x : BitVec 4096) : Nat := ib x 2 2
def recFlag (x : BitVec 4096) (b : Nat) : Bool := (recFlags x).testBit b
def recNlev (x : BitVec 4096) : Nat := ib x 5 1 % 16
def recNdep (x : BitVec 4096) : Nat := ib x 7 1 % 8
def recNph (x : BitVec 4096) : Nat := ib x 224 2
def recNyl (x : BitVec 4096) : Nat := ib x 226 2
def recNstage (x : BitVec 4096) : Nat := ib x 228 1
def recPcnt (x : BitVec 4096) : Nat := if ib x 62 2 = 0 then 1 else ib x 62 2

/-- Level entry l. -/
def recLevel (x : BitVec 4096) (l : Nat) : Level :=
  let w := ib x (128 + 8 * l) 8
  { count := bitsOf w 0 24, domain := bitsOf w 24 3, scope := bitsOf w 27 3 }

/-- Initial-value entry i: SEL and VALUE. -/
def recInit (x : BitVec 4096) (i : Nat) : Nat × Cap := (ib x (256 + 32 * i) 2, BitVec.ofNat 128 (ib x (272 + 32 * i) 16))

/-- Rows of a table, as they stand; unreadable rows are absent (the record is then refused). -/
def tableRows (s : State) (tenant w n : Nat) : List Row := (extentRows s tenant (refObj w) (refOff w) n).getD []

/-- Entries of 16 bytes of a table. -/
def tableHalves (s : State) (tenant w n : Nat) : List (BitVec 128) :=
  let rows := tableRows s tenant w ((n + 3) / 4)
  (List.range n).map fun i => BitVec.ofNat 128 (rowElem (rows.getD (i / 4) 0) 128 (i % 4))

/-- NE of a digest list's rows (R363). -/
def digNe (rows : List Row) : Nat := fld (rows.headD 0) 0 16

/-- The launch that a record describes, with its tables copied. -/
def launchOf (s : State) (sub : Submission) (tenant id : Nat) : Launch :=
  let x := sub.image
  { id := id, fn := sub.fn, tenant := tenant, queue := sub.queue, cls := fld (regGet s 0 (rLQCFG sub.queue)) 1 2
    flags := BitVec.ofNat 16 (recFlags x), eng := BitVec.ofNat 5 (ib x 4 1)
    levels := (List.range (recNlev x)).map (recLevel x), migl := ib x 6 1 % 8
    scanl := if (ib x 6 1).testBit 7 then some (ib x 6 1 / 16 % 8) else none
    text := ib x 8 4 % 2 ^ 24, slipw := slipBytes (ib x 12 2)
    stallLimit := 65536 * (if ib x 14 2 = 0 then 65536 else ib x 14 2)
    doneObj := BitVec.ofNat 64 (ib x 16 8), target := ib x 24 8, ra := ib x 32 2, rb := ib x 34 2, nt := ib x 36 1
    nh := ib x 37 1, nv := ib x 38 2, save := BitVec.ofNat 64 (ib x 40 8), rem := BitVec.ofNat 64 (ib x 48 8)
    cto := 1024 * (if ib x 56 4 = 0 then 1024 else ib x 56 4), pidx := ib x 60 2, pcnt := recPcnt x
    deps := (List.range (recNdep x)).map fun j =>
      (BitVec.ofNat 64 (ib x (64 + 16 * j) 8), BitVec.ofNat 64 (ib x (72 + 16 * j) 8), false)
    phases := tableRows s tenant (ib x 192 8) (recNph x), yields := tableRows s tenant (ib x 200 8) (recNyl x)
    inits := ((List.range 8).map (recInit x)).filter fun e => e.1.testBit 15
    digl := BitVec.ofNat 64 (ib x 208 8)
    digList := (if recFlag x 7 then
        (let n := digNe (tableRows s tenant (ib x 208 8) 1)
         tableRows s tenant (ib x 208 8) (if n ≤ 64 then 1 + (n + 3) / 4 else 1)) else [])
    doneGen := ((objOf? s tenant (refObj (ib x 16 8))).map (·.gen)).getD 0
    tabs := ((List.range 4).map fun i => refObj (ib x (192 + 8 * i) 8)).filter (· ≠ 0), stages := tableHalves s tenant (ib x 216 8) (recNstage x)
    nextRank := 0, placed := List.replicate (recNstage x) 0, retired := 0, completed := false, held := 0
    heldErr := false, inDig := [], outDig := [], run := 0, seqs := [], progress := [] }

/-! ### Acceptance (R313) -/

/-- Reason 1: VERSION, reserved bits, SLIPU, ENG, and the flags that require DET (R303, R360). DESIGN CHOICE (log 104): R313 names no
reason for a TARGET that R303 does not allow, misaligned offsets, NDEP above 4 and H of 1 to 15; they are refused here. -/
def badHeader (x : BitVec 4096) : Bool :=
  let h := ib x 48 8 / 2 ^ 16 % 2 ^ 6
  decide (ib x 0 2 ≠ 1) || decide (ib x 3 1 ≠ 0) || ((recFlag x 2 || recFlag x 5) && !recFlag x 1) ||
    decide (ib x 4 1 / 32 ≠ 0) || !(ib x 4 1).testBit 1 || decide (ib x 5 1 / 16 ≠ 0) || (ib x 6 1).testBit 3 ||
    decide (ib x 7 1 / 8 ≠ 0) || decide (4 < recNdep x) || decide (ib x 11 1 ≠ 0) ||
    (decide (1 ≤ ib x 12 2) && decide (ib x 12 2 ≤ 3)) || decide (4095 < ib x 12 2) || decide (ib x 16 8 % 8 ≠ 0) ||
    decide (ib x 24 8 = 0) || decide (2 ^ 63 ≤ ib x 24 8) || decide (ib x 40 8 % 64 ≠ 0) ||
    decide (bitsOf (ib x 48 8) 22 18 ≠ 0) || (decide (0 < h) && decide (h < 16)) ||
    ((List.range 4).any fun j => decide (recNdep x ≤ j) && decide (ib x (64 + 16 * j) 16 ≠ 0)) ||
    ((List.range 4).any fun j => decide (j < recNdep x) && decide (ib x (64 + 16 * j) 8 % 8 ≠ 0)) ||
    ((List.range 8).any fun l => decide (bitsOf (ib x (128 + 8 * l) 8) 30 34 ≠ 0) ||
      (decide (recNlev x ≤ l) && decide (ib x (128 + 8 * l) 8 ≠ 0))) ||
    ((List.range 4).any fun i => decide (ib x (192 + 8 * i) 8 % 64 ≠ 0)) || decide (ib x 229 27 ≠ 0) ||
    (List.range 8).any fun i =>
      decide (ib x (256 + 32 * i) 2 / 32 % 32 ≠ 0) || decide (ib x (256 + 32 * i) 2 / 2 ^ 12 % 8 ≠ 0) ||
        decide (ib x (258 + 32 * i) 14 ≠ 0)

/-- The first stage's leaf of each page of a paged object. -/
def pageLeaves (s : State) (tenant : Nat) (e : ObjEnt) : List (Nat × Except XFail Leaf) :=
  let root := regGet s (fnOf s tenant) rFSROOT
  if fld root 63 1 = 0 then []
  else (List.range ((e.size + 16383) / 16384)).map fun p =>
    (16384 * p, dirWalk 1 (fld root 16 24 * 2 ^ 16) (e.vbase * 16384 + 16384 * p) (rdTable s tenant))

/-- Whether any page of a paged object grants write: its leaf is present and has W (R64). -/
def pagesGrantWrite (s : State) (tenant : Nat) (e : ObjEnt) : Bool :=
  (pageLeaves s tenant e).any fun p =>
    match p.2 with
    | .ok l => !l.bad && l.bits.testBit 1
    | .error _ => false

/-- The text object of a record, where it is paged. -/
def pagedText (s : State) (tenant text : Nat) : Option ObjEnt := (objOf? s tenant text).filter (·.paged)

/-- A page table of the text that the check of a record cannot read yet (R339). -/
def textMiss (s : State) (tenant text : Nat) : Option (Nat × XFail) :=
  match pagedText s tenant text with
  | none => none
  | some e => (pageLeaves s tenant e).findSome? fun p =>
    match p.2 with
    | .error f => if f.cause = 0x06 ∧ f.table = true then some (p.1, f) else none
    | .ok _ => none

/-- The type 13 record of a malformed entry that the check of a text's pages meets (R334). -/
def textRecord (s : State) (tenant text : Nat) : State :=
  match pagedText s tenant text with
  | none => s
  | some e =>
    let bad := (pageLeaves s tenant e).findSome? fun p =>
      match p.2 with
      | .error f => if f.record then some (p.1, f) else none
      | .ok l => if l.bad then some (p.1, { cause := 0x07, stage := 1, addr := e.vbase * 16384 + p.1, record := true }) else none
    match bad with
    | some (off, f) => translationRecord s tenant text off f
    | none => s

/-- Reason 2: the text object. -/
def badText (s : State) (l : Launch) : Bool :=
  match objOf? s l.tenant l.text with
  | none => true
  | some e => !hasRights e.rights rightX || hasRights e.rights rightW || (e.paged && pagesGrantWrite s l.tenant e)

/-- Reason 3: the footprint. -/
def badFootprint (l : Launch) : Bool :=
  decide (16384 < l.ra) || decide (l.ra % 16 ≠ 0) || decide (16384 < l.rb) || decide (l.rb % 16 ≠ 0) || decide (16 < l.nt) ||
    decide (16 < l.nh) || decide (768 < l.nv)

/-- Crews that an instance of a domain holds (R305), for a group of `p` packages. -/
def domainCrews (d p : Nat) : Nat := [1, 2, 8, 64, 128, 512, 512 * p, 512 * p].getD d 0
/-- The narrowest scope that a domain allows. -/
def domainScope (d : Nat) : Nat := [0, 1, 2, 2, 3, 3, 4, 4].getD d 0

/-- The levels as R305 requires them. -/
def levelsOk (l : Launch) : Bool :=
  decide (1 ≤ l.levels.length) && decide (l.levels.length ≤ 8) &&
    (List.range l.levels.length).all fun i =>
      match l.levels[i]? with
      | none => false
      | some v =>
        decide (1 ≤ v.count) && decide (v.scope ≤ 5) && decide (domainScope v.domain ≤ v.scope) &&
          decide (levelUnit l i ≤ domainCrews v.domain l.pcnt) &&
          (if i = 0 then decide (v.domain = 0) && decide (v.scope = 0)
           else decide (((l.levels[i - 1]?).map (·.domain)).getD 0 ≤ v.domain))

/-- PCNT runs of whole units, and a place among them; a launch of one package has place 0 (R316). DESIGN
CHOICE (log 104): a PIDX that is not below PCNT has no reason of its own in R313 and is refused with the levels. -/
def runsOk (l : Launch) : Bool :=
  let best := (List.range l.levels.length).foldl
    (fun b i => if ((l.levels[i]?).map (·.domain)).getD 0 ≤ 5 then i else b) 0
  (decide (l.pcnt = 1) && decide (l.pidx = 0)) ||
    (decide (1 < l.pcnt) && decide (l.pidx < l.pcnt) && decide (launchCrews l % (l.pcnt * levelUnit l best) = 0))

/-- Reason 4; SCANL is judged whether or not a scan group is declared (R313). -/
def badLevels (x : BitVec 4096) (l : Launch) : Bool :=
  !levelsOk l || !runsOk l || decide (l.levels.length ≤ l.migl) ||
    decide (3 < ((l.levels[l.migl]?).map (·.domain)).getD 8) || decide (l.levels.length ≤ ib x 6 1 / 16 % 8)

/-- Dies of a launch's partition on which its queue may place it. -/
def launchDies (s : State) (l : Launch) : List Nat :=
  (List.range 8).filter fun d =>
    (queueMask s l.queue).testBit (d / 2) && (decide (l.tenant = 0) || (fnPart s (fnOf s l.tenant)).testBit (d / 2))

/-- Whether the forward link from die `d` to the next is up. -/
def linkUp (s : State) (i : Nat) : Bool := s.fabric.links.any fun x => decide (x.id = i) && x.up

/-- The hard partition that holds a launch (R367, R393). -/
def hardMask (s : State) (l : Launch) : Nat :=
  match launchDies s l with
  | [] => 0
  | d :: _ => fld (regGet s 0 (rMEMIL (d / 2))) 0 4

/-- Carry ports (entry, exit) of the partition that holds a launch (R367); none in a quarter. -/
def carryPorts (s : State) (l : Launch) : Option (Nat × Nat) :=
  let m := hardMask s l
  if m = 15 then some (0, 1) else if m = 3 then some (0, 2) else if m = 12 then some (3, 1) else none

/-- Slots of a core on which crews of the footprint can stand together. -/
def slotsPerCore (l : Launch) : Nat :=
  if 2 * l.ra ≤ 16384 ∧ 2 * l.rb ≤ 16384 ∧ 2 * l.nt ≤ 16 ∧ 2 * l.nh ≤ 16 ∧ 2 * l.nv ≤ 768 then 2 else 1

/-- Crews of the footprint that `n` cores from core `b`, of one die, hold when empty, of profile F only where the launch needs it;
none on a die where the launch may not stand. -/
def emptyRoom (s : State) (l : Launch) (b n : Nat) : Nat :=
  if (launchDies s l).contains (dieOf b) then
    (((List.range n).map (b + ·)).filter fun c => corePresent s c && (!l.flags.getLsbD 3 || isSaffron c)).length * slotsPerCore l
  else 0

/-- Crews of the footprint that `n` cores from core `b` take as they now stand, two on a core only where both fit beside each
other. -/
def freeRoom (s : State) (l : Launch) (needF : Bool) (b n : Nat) : Nat :=
  ((List.range n).map fun i =>
    let k := ([0, 1].filter fun sl => slotEligible s l (b + i) sl needF).length
    if k = 2 then slotsPerCore l else k).sum

/-- The positions, from the start to position `e` of a group of `g` chunks, at which the next die's run may start, after a die with
room for `n` crews takes any run that R210 allows or none. -/
def runStarts (g e n : Nat) (starts : List Nat) : List Nat :=
  ((starts.map fun p =>
    p :: (List.range 7).filterMap fun a =>
      if p % 2 ^ a ≠ 0 then none
      else if e = g ∧ p < g ∧ g ≤ p + 2 ^ a ∧ g - p ≤ n then some g
      else if p + 2 ^ a ≤ e ∧ 2 ^ a ≤ n then some (p + 2 ^ a)
      else none).flatten).eraseDups

/-- The chunks from `b` to `e` of a group of `g` have runs on dies with these rooms, in the order of the chain, every die link that
the group then crosses being up; with `enters` and `leaves` the group goes on in the packages before and after (R210, R423). -/
def runsFit (s : State) (g b e : Nat) (enters leaves : Bool) (rooms : List (Nat × Nat)) : Bool :=
  let idle (p : Nat) : Bool := (decide (p = b) && !enters) || (decide (p = e) && !leaves)
  let cross (prev : Option Nat) (d : Nat) (ps : List Nat) : List Nat :=
    match prev with
    | none => ps
    | some f => if (List.range (d - f)).all fun i => linkUp s (f + i) then ps else ps.filter idle
  (rooms.foldl (fun (acc : Option Nat × List Nat) r => (some r.1, runStarts g e r.2 (cross acc.1 r.1 acc.2))) (none, [b])).2.contains e

/-- The rooms, die by die, of each instance of a domain (R210, R305); `room` gives the room of `n` cores from a core on. -/
def instanceRooms (domain : Nat) (room : Nat → Nat → Nat) : List (List (Nat × Nat)) :=
  let dies := List.range 8
  match domain with
  | 0 => dies.map fun d => [(d, min 1 (room (32 * d) 32))]
  | 1 => (List.range 256).map fun c => [(dieOf c, room c 1)]
  | 2 => (List.range 64).map fun q => [(dieOf (4 * q), room (4 * q) 4)]
  | 3 => dies.map fun d => [(d, room (32 * d) 32)]
  | 4 => (List.range 4).map fun q => [2 * q, 2 * q + 1].map fun d => (d, room (32 * d) 32)
  | _ => [dies.map fun d => (d, room (32 * d) 32)]

/-- The rooms of a partition's dies, in the order of its chain (R367). -/
def chainRooms (mask : Nat) (room : Nat → Nat → Nat) : List (Nat × Nat) :=
  ((List.range 8).filter fun d => mask.testBit (d / 2)).map fun d => (d, room (32 * d) 32)

/-- Crews of a launch that this package places when every instance is placed: run PIDX (R316). -/
def runCrews (l : Launch) : Nat := launchCrews l / max l.pcnt 1

/-- Whether a carry port is up and its CPLINK shows a live cable to another device's entry (ports 0 and 3) or exit (ports 1 and 2),
as the chain of R367 needs it (R423). -/
def chainLink (s : State) (port : Nat) (toEntry : Bool) : Bool :=
  let w := regGet s 0 (rCPLINK port)
  let far := Config.cplinkFar w
  w.getLsbD 31 && linkUp s (7 + port) && (regGet s 0 rPRESPORT).getLsbD port && decide (far.1 ≠ Config.deviceNumber) && (if toEntry then [0, 3] else [1, 2]).contains far.2

/-- Domain of a level. -/
def levelDomain (l : Launch) (v : Nat) : Nat := ((l.levels[v]?).map (·.domain)).getD 0

/-- Whether an instance of a scan group at level `v` cannot stand with its members of this package: no place for their runs, and
where the runs of R316 cut it, no chain of packages for it, or one of more than 32 (R210, R367). -/
def badInstance (s : State) (l : Launch) (v inst : Nat) : Bool :=
  let g := levelUnit l v
  let run := runCrews l
  let a := inst * g
  let b := max a (l.pidx * run) - a
  let e := min (a + g) ((l.pidx + 1) * run) - a
  let wide := decide (a / run ≠ (a + g - 1) / run)
  let rooms := if wide then [chainRooms (hardMask s l) (emptyRoom s l)] else instanceRooms (levelDomain l v) (emptyRoom s l)
  !(rooms.any fun r => runsFit s g b e (decide (b ≠ 0)) (decide (e ≠ g)) r) ||
    (wide && (match carryPorts s l with
      | none => true
      | some (i, o) =>
        decide (32 < (a + g - 1) / run - a / run + 1) || (decide (b ≠ 0) && !chainLink s i false) ||
          (decide (e ≠ g) && !chainLink s o true)))

/-- Reason 5: the scan group's place with the links that it needs, and its longest carry list with W = 1 (R210, R214, R367), judged
on the empty device. Of the instances that this package holds members of, all but the first and the last are whole and alike. -/
def badScanGroup (s : State) (l : Launch) : Bool :=
  match l.scanl with
  | none => false
  | some v =>
    let g := levelUnit l v
    let first := l.pidx * runCrews l / g
    let last := ((l.pidx + 1) * runCrews l - 1) / g
    decide (32 < Nat.log2 g + 1) || ([first, min (first + 1) last, last].any fun i => badInstance s l v i)

/-- A current extent object with rights, at least `n` bytes long from an offset. -/
def extentFits (s : State) (tenant w rights n : Nat) : Bool :=
  match objOf? s tenant (refObj w) with
  | some e => !e.paged && hasRights e.rights rights && decide (refOff w + n ≤ e.size)
  | none => false

/-- NE of the digest list, as copied at acceptance (R306). -/
def digCount (l : Launch) : Nat := digNe l.digList

/-- `n` bytes of the copied digest list from byte `p`, within one row. -/
def digRead (l : Launch) (p n : Nat) : Nat := fld (l.digList.getD (p / 64) 0) (8 * (p % 64)) (8 * n)

/-- Length of the signature record (R365). -/
def sigLength (ne : Nat) (sign : Bool) : Nat := 128 + 32 * ne + (if sign then 96 else 0)

/-- The digest list breaks R363. -/
def badDigest (s : State) (l : Launch) : Bool :=
  let w := l.digl.toNat
  let ne := digCount l
  let fl := digRead l 2 1
  !extentFits s l.tenant w rightR 64 || decide (ne = 0) || decide (64 < ne) ||
    !extentFits s l.tenant w rightR (64 + 16 * ne) || decide (2 ≤ fl) || decide (digRead l 3 5 ≠ 0) ||
    decide (digRead l 48 16 ≠ 0) ||
    decide (digRead l 8 8 % 8 ≠ 0) || !extentFits s l.tenant (digRead l 8 8) rightW (sigLength ne (decide (fl = 1))) ||
    (List.range ne).any fun j =>
      let p := 64 + 16 * j
      decide (digRead l p 8 % 64 ≠ 0) || decide (digRead l (p + 8) 6 % 64 ≠ 0) || decide (digRead l (p + 14) 1 ≠ 0) ||
        decide (4 ≤ digRead l (p + 15) 1) || decide (digRead l (p + 15) 1 = 0)

/-- Reason 6: save area, remainder object, tables. -/
def badAreas (s : State) (x : BitVec 4096) (l : Launch) : Bool :=
  let n := launchCrews l
  let tbl (w rows : Nat) : Bool := decide (rows ≠ 0) && !extentFits s l.tenant w rightR (64 * rows)
  let cs := fld l.rem 0 16 * 64
  !extentFits s l.tenant (saveWord l).toNat (rightR + rightW) (64 * recRowCount l * n) ||
    (if fld l.rem 40 24 = 0 then decide (cs ≠ 0)
     else !extentFits s l.tenant (fld l.rem 40 24 * 2 ^ 40) (rightR + rightW) (66 * cs * n)) ||
    tbl (ib x 192 8) (recNph x) || tbl (ib x 200 8) (recNyl x) || tbl (ib x 216 8) ((recNstage x + 3) / 4) ||
    (recFlag x 7 && badDigest s l)

/-- Reason 7: the valid initial-value entries (R307); their reserved bits are reason 1. A capability is valid on every die where a
crew of the launch may stand. -/
def badInits (s : State) (x : BitVec 4096) (l : Launch) : Bool :=
  let one (i : Nat) : Bool :=
    let e := recInit x i
    let file := e.1 / 2 ^ 10 % 4
    let r := e.1 % 32
    e.1.testBit 15 &&
      (decide (r = 0) || decide (file = 3) ||
        (if file = 2 then
          decide (15 < r) || !(launchDies s l).all fun d => capValid s (64 * (l.ra + l.rb)) d l.tenant e.2
         else decide (2 ^ 64 ≤ e.2.toNat)))
  let keys : List Nat := l.inits.map fun e => e.1 % 2 ^ 12
  (List.range 8).any one || !decide keys.Nodup

/-- A row range of R308 that a launch may name. -/
def rangeOk (l : Launch) (rg : Nat) : Bool :=
  let first := rg % 2 ^ 14
  let n := rg / 2 ^ 15 % 2 ^ 15
  decide (rg / 2 ^ 30 = 0) && decide (first + n ≤ 2 ^ 14) &&
    (decide (n = 0) || decide (first + n ≤ if rg / 2 ^ 14 % 2 = 0 then l.ra else l.rb))

/-- Reason 12: phase and yield tables. DESIGN CHOICE (log 104): NPH or NYL above 4,096 is refused here too. -/
def badTables (x : BitVec 4096) (l : Launch) : Bool :=
  let phase (r : Row) : Bool := (List.range 12).all (fun k => rangeOk l (rowElem r 32 k)) && decide (rowElem r 128 3 = 0)
  let vrange (v : Nat) : Bool :=
    decide (v / 2 ^ 10 % 64 = 0) && decide (v / 2 ^ 26 = 0) &&
      (decide (v / 2 ^ 16 % 2 ^ 10 = 0) || decide (v % 2 ^ 10 + v / 2 ^ 16 % 2 ^ 10 ≤ l.nv))
  let yield (r : Row) : Bool :=
    (List.range 4).all (fun k => rangeOk l (rowElem r 32 k)) && vrange (rowElem r 32 5) && vrange (rowElem r 32 6) &&
      decide (r.toNat / 2 ^ 224 = 0)
  decide (4096 < recNph x) || decide (4096 < recNyl x) || (decide (recNph x = 0) && decide (refObj (ib x 192 8) ≠ 0)) ||
    (decide (recNyl x = 0) && decide (refObj (ib x 200 8) ≠ 0)) || !l.phases.all phase || !l.yields.all yield ||
    (l.flags.getLsbD 1 && phaseOverlap (l.phases.getD 0 0))

/-- Fields of a stage entry (R310). -/
def stAddhi (e : BitVec 128) : Nat := fld e 16 16
def stHold (e : BitVec 128) : Nat := fld e 32 8
def stRow (e : BitVec 128) : Nat := fld e 48 15
def stNone (e : BitVec 128) : Bool := e.getLsbD 63

/-- The most instances of a stage (R322). -/
def stageMax (l : Launch) : Nat := ((l.levels[l.levels.length - 2]?).map (·.count)).getD 0

/-- Reason 10: the pipeline; a stage table without entries needs object 0 (R306; DESIGN CHOICE, log 94: no reason names
it). -/
def badPipe (x : BitVec 4096) (l : Launch) : Bool :=
  let n := recNstage x
  if recFlag x 6 then
    decide (n < 2) || decide (8 < n) || decide (l.levels.length < 2) ||
      decide (((l.levels[l.levels.length - 1]?).map (·.count)).getD 0 ≠ n) ||
      (List.range n).any fun i =>
        let e := l.stages.getD i 0
        decide (stMin e = 0) || decide (stageMax l < stMin e) || decide (stAddhi e = 0) || decide (64 < stAddhi e) ||
          decide (stHold e = 0) || decide (fld e 40 8 ≠ 0) || decide (fld e 64 64 ≠ 0) || decide (stNone e ≠ decide (i = 0)) ||
          (!stNone e && !(if stRow e / 2 ^ 14 = 0 then decide (stRow e % 2 ^ 14 < l.ra) else decide (stRow e % 2 ^ 14 < l.rb)))
  else decide (n ≠ 0) || decide (refObj (ib x 216 8) ≠ 0)

/-- Reason 11: dependences and DONE. -/
def badObjects (s : State) (l : Launch) : Bool :=
  let ok (w : Word) : Bool := extentFits s l.tenant w.toNat 0 8
  !ok l.doneObj || l.deps.any fun d => !ok d.1

/-- The reason for which a record is refused: 13 by a queue that is off, whatever else is wrong, and 14 by another tenant's (R312);
else the first in ascending number (DEDUCED, log 28). -/
def refuseReason (s : State) (sub : Submission) (l : Launch) : Option Nat :=
  let x := sub.image
  let cfg := regGet s 0 (rLQCFG sub.queue)
  let dies := (List.range 8).filter fun d => (queueMask s sub.queue).testBit (d / 2)
  ([ (13, !cfg.getLsbD 0), (14, decide (fld cfg 8 8 ≠ l.tenant)), (1, badHeader x), (2, badText s l), (3, badFootprint l), (4, badLevels x l), (5, badScanGroup s l),
     (6, badAreas s x l), (7, badInits s x l), (8, recFlag x 0 && !cfg.getLsbD 3 && !sub.clove),
     (9, !dies.isEmpty && !dies.any fun d => calendarAdmits s d l.tenant), (10, badPipe x l), (11, badObjects s l), (12, badTables x l) ].find? (·.2)).map (·.1)

/-- Records that a queue holds or is about to hold. -/
def queueLoad (s : State) (q : Nat) : Nat :=
  (s.sched.queued.filter fun p => decide (p.1 = q)).length + (s.sched.arrivals.filter fun x => decide (x.queue = q)).length

/-- The 512 bytes of a record as one number, byte 0 lowest. -/
def imageOf (rows : List Row) : BitVec 4096 :=
  BitVec.ofNat 4096 (rows.foldr (fun r acc => r.toNat + 2 ^ 512 * acc) 0)

/-- A front end has taken a copy of a record. -/
def submit (s : State) (x : Submission) : State :=
  { s with sched := { s.sched with arrivals := s.sched.arrivals ++ [x] }, agenda := s.agenda ++ [.event .launchRecordArrival {}] }

/-- The Clove controller submits a record (operands: fn, queue, idx = object, off, rows), once its queue has room (R312). -/
def cloveSubmit (s : State) : State :=
  if s.ev.rows.length = 8 ∧ queueLoad s s.ev.queue < 32 ∧ s.ev.queue < 64 ∧ s.host.cloveError = false then
    submit s { fn := s.ev.fn, clove := true, queue := s.ev.queue, obj := s.ev.idx, off := s.ev.off, image := imageOf s.ev.rows }
  else s

/-- The bytes that the check of a record reaches through the tenant's object table: its objects, and the ends of its tables. -/
def recordRefs (x : BitVec 4096) : List (Nat × Nat) :=
  let table (w rows : Nat) : List (Nat × Nat) :=
    if rows = 0 then [] else [(refObj w, refOff w), (refObj w, refOff w + 64 * rows - 64)]
  ((ib x 8 4 % 2 ^ 24, 0) :: ([ib x 16 8, ib x 40 8, ib x 48 8] ++ (List.range (min (recNdep x) 4)).map fun j => ib x (64 + 16 * j) 8).map
    fun w => (refObj w, refOff w)) ++
  table (ib x 192 8) (recNph x) ++ table (ib x 200 8) (recNyl x) ++ table (ib x 216 8) ((recNstage x + 3) / 4) ++
  (if recFlag x 7 then table (ib x 208 8) 1 else [])

/-- Where the check of a record waits: an absence of the second stage, of which the guest sees only the hold (R339). -/
def recordHeld (s : State) (tenant : Nat) (x : BitVec 4096) : Option State :=
  let hold (obj off : Nat) (f : XFail) : Option State :=
    match openFault s tenant f .load obj off with
    | (s1, some _) => some s1
    | (_, none) => none
  let text := ib x 8 4 % 2 ^ 24
  match (recordRefs x).findSome? fun p => (extentMiss s tenant p.1 p.2).bind (hold p.1 p.2) with
  | some s1 => some s1
  | none => (textMiss s tenant text).bind fun p => hold text p.1 p.2

/-- LAUNCH_RECORD_ARRIVAL (operand: flag): with flag set, the Clove controller submits a record; else the front end checks
the oldest record it holds a copy of, and queues or refuses it (R313). -/
def execLaunchRecordArrival (s : State) : Out :=
  if s.ev.flag then .next (cloveSubmit s)
  -- an error of the Clove's own stores stops the front ends (R427)
  else if s.host.cloveError then .next s
  else match s.sched.arrivals with
  | [] => .next s
  | sub :: rest =>
    let s1 : State := { s with sched := { s.sched with arrivals := rest } }
    let tenant := fnTenant s sub.fn
    let l := launchOf s1 sub tenant s1.sched.nextLaunch
    match recordHeld s tenant sub.image with
    | some held => .next held
    | none =>
    match refuseReason s1 sub l with
    | some r =>
      let s2 := tenantError (textRecord s1 tenant l.text) tenant [errRow s1 6 0 (put r 2 1 + put (sub.obj * 2 ^ 40 + sub.off) 8 8 +
        put l.doneObj.toNat 48 8) none]
      .next (if extentFits s1 tenant l.doneObj.toNat 0 8 then doneIncrement s2 tenant l.doneObj 1 true else s2)
    | none =>
      -- bindings of launches that share a DONE no longer give their crews (R335)
      let twins := s1.sched.launches.filter fun y => decide (y.tenant = tenant) && !y.completed && decide (y.doneObj = l.doneObj)
      let s1 := twins.foldl (fun s y => dropBound s y.id) (textRecord s1 tenant l.text)
      .next (addTextUse { s1 with sched := { s1.sched with
        launches := s1.sched.launches ++ [l], nextLaunch := s1.sched.nextLaunch + 1
        queued := s1.sched.queued ++ [(sub.queue, l.id)] } } tenant l.text true)

/-! ### Digests (R361 to R365) -/

/-- A row of a digested range. -/
def digRow (s : State) (l : Launch) (obj off : Nat) : Row :=
  match portAccess s (agentDie s l.tenant) l.tenant 4 obj none off { kLoad with rights := 0, bits := 0 } with
  | (_, .ok a) => if a.remote then Config.unreadRow obj off else BitVec.ofNat 512 (readUnit s a.key 64)
  | (_, .error _) => Config.unreadRow obj off

/-- The rows that the digests of a use bit cover, as object and offset. -/
def digRows (l : Launch) (useBit : Nat) : List (Nat × Nat) :=
  if l.flags.getLsbD 7 then
    ((List.range (digCount l)).map fun j =>
      if (digRead l (79 + 16 * j) 1).testBit useBit then
        let range := digRead l (64 + 16 * j) 8
        (List.range (digRead l (72 + 16 * j) 6 / 64)).map fun i => (refObj range, refOff range + 64 * i)
      else []).flatten
  else []

/-- What the digests of a use bit meet on their way: an absent page holds them until it is there (R339), every refused row makes its
type 13 record (R334). Whether they are held. -/
def digCheck (s : State) (l : Launch) (useBit : Nat) : State × Bool :=
  (digRows l useBit).foldl (fun acc p =>
    if acc.2 then acc
    else match (portAccess acc.1 (agentDie acc.1 l.tenant) l.tenant 4 p.1 none p.2 { kLoad with rights := 0, bits := 0 }).2 with
    | .ok _ => acc
    | .error f =>
      if f.cause = 0x06 then ((openFault acc.1 l.tenant f .load p.1 p.2).1, (openFault acc.1 l.tenant f .load p.1 p.2).2.isSome)
      else (translationRecord acc.1 l.tenant p.1 p.2 f, false)) (s, false)

/-- Bytes of the digest list's key. -/
def digKey (l : Launch) : List Byte := leBytes (digRead l 16 32) 32

/-- The digest of entry j. -/
def digEntry (s : State) (l : Launch) (j : Nat) : BitVec 128 :=
  let range := digRead l (64 + 16 * j) 8
  let n := digRead l (72 + 16 * j) 6 / 64
  (List.range n).foldl (fun d i =>
    let msg := leBytes j 8 ++ leBytes (64 * i) 8 ++ leBytes (digRow s l (refObj range) (refOff range + 64 * i)).toNat 64
    d + BitVec.ofNat 128 (leNat ((hmac384 (digKey l) msg).take 16))) 0

/-- The digests of the entries whose USE has a bit; zero for the others. -/
def digests (s : State) (l : Launch) (useBit : Nat) : List (BitVec 128) :=
  if l.flags.getLsbD 7 then
    (List.range (digCount l)).map fun j => if (digRead l (79 + 16 * j) 1).testBit useBit then digEntry s l j else 0
  else []

/-- The shape record of a partition (R364). -/
def shapeRecord (s : State) (mask : Nat) : List Byte :=
  let qs := (List.range 4).filter fun q => mask.testBit q
  let gran := fld (regGet s 0 (rMEMIL (maskLow mask))) 4 2
  let share := (spGet s.host.commons (2 * maskLow mask)).toNat
  [BitVec.ofNat 8 (mask + 16 * gran), BitVec.ofNat 8 share, 0, 0] ++
    (qs.map fun q => ([2 * q, 2 * q + 1].map fun d =>
      leBytes (regGet s 0 (rPRESCORE d)).toNat 4 ++ leBytes (regGet s 0 (rPRESSLICE d)).toNat 8 ++
        leBytes (regGet s 0 (rPRESSLICEH d)).toNat 8).flatten).flatten ++
    (qs.map fun q => ([3 * q, 3 * q + 1, 3 * q + 2].map fun k => leBytes (fld (regGet s 0 (rPRESSTACK k)) 0 7) 2).flatten).flatten

/-- The shape hash: the first 16 bytes of its SHA-384. -/
def shapeHash (s : State) (mask : Nat) : List Byte := (sha384 (shapeRecord s mask)).take 16

/-- The partition that a tenant's launches run in. -/
def tenantMask (s : State) (tenant : Nat) : Nat := fnPart s (fnOf s tenant)

/-- The measurement's 48 bytes. -/
def measurementBytes (s : State) : List Byte := leBytes s.host.measurement.toNat 48

/-- The ECDSA signature by the device identity key: 96 bytes nobody can foresee. -/
def signatureOf (m : List Byte) : List Byte := (List.range 96).map fun i => Config.signatureByte (beNat (sha384 m)) i

/-- The reproducibility signature (R365). -/
def signatureBytes (s : State) (l : Launch) (ins outs : List (BitVec 128)) : List Byte :=
  let ne := digCount l
  let sign := decide (digRead l 2 1 = 1)
  let head := leBytes 1 2 ++ leBytes (fld l.flags 0 8 + (if sign then 2 ^ 15 else 0)) 2 ++ leBytes ne 2 ++ leBytes 0 2 ++
    measurementBytes s ++ (if l.flags.getLsbD 5 then leBytes 0 16 else shapeHash s (tenantMask s l.tenant)) ++ leBytes 0 56
  let body := ((List.range ne).map fun j => leBytes (ins.getD j 0).toNat 16 ++ leBytes (outs.getD j 0).toNat 16).flatten
  let m := head ++ body
  if sign then m ++ signatureOf m else m

/-- Writes bytes of an extent object. -/
def writeBytes (s : State) (tenant w : Nat) (l : List Byte) : State :=
  (mapNth (fun i b => (i, b)) 0 l).foldl (fun s p =>
    match extentKey s tenant (refObj w) (refOff w + p.1) with
    | some k => { s with mem := memSet s.mem k p.2 }
    | none => s) s

/-- Ranks of this package's run that stage `st` places as ordinary crews: the first of them, and how many (R316, R322). -/
def stageSpan (l : Launch) (st : Nat) : Nat × Nat :=
  let lo := max (st * stageCrews l) (l.pidx * runCrews l)
  let hi := min (st * stageCrews l + stMin (l.stages.getD st 0) * instCrews l) ((l.pidx + 1) * runCrews l)
  (lo, hi - lo)

/-- Crews that a launch places of itself: its run, or in it the first MINI instances of each stage (R316, R322). -/
def ordinaryCrews (l : Launch) : Nat :=
  if l.flags.getLsbD 6 then ((List.range l.stages.length).map fun st => (stageSpan l st).2).sum else runCrews l

/-- The first entry in which two digest lists differ. -/
def firstDiffer (a b : List (BitVec 128)) : Option Nat := (List.range a.length).find? fun i => decide (a[i]? ≠ b[i]?)

/-- LAUNCH_DIGEST (operand: launch): every crew of a held-back launch has retired and the count has reached TARGET. The
first run of a checked launch starts the second; the last run takes the digests, signs, and updates DONE once. -/
def execLaunchDigest (s : State) : Out :=
  match launchById s s.ev.launch with
  | none => .next s
  | some l =>
    if !isDigested l || l.completed || decide (l.held < l.target) ||
        s.crews.any (fun p => decide (p.2.launch = l.id)) || s.sched.saved.any (fun x => decide (x.launch = l.id) && decide (x.kind ≠ 7)) ||
        decide (l.nextRank < ordinaryCrews l) then .next s
    else
      let (s, held) := digCheck s l 1
      let (s, held) := if held || (decide (l.flags.getLsbD 2 = true) && decide (l.run = 0)) then (s, held) else digCheck s l 0
      if held then .next s
      else
      let outs := digests s l 1
      if l.flags.getLsbD 2 ∧ l.run = 0 then
        let l1 := { l with run := 1, outDig := outs, nextRank := 0, placed := l.placed.map fun _ => 0, retired := 0
                           held := 0, heldErr := false, progress := [] }
        let s1 := dropExchanges (setLaunch s l1) l.id
        .next { s1 with sched := { s1.sched with
          queued := (l.queue, l.id) :: s1.sched.queued, ready := s1.sched.ready.filter (· ≠ l.queue) ++ [l.queue] } }
      else
        let ins := digests s l 0
        let bad := if l.flags.getLsbD 2 then
            (match firstDiffer outs l.outDig, firstDiffer ins l.inDig with
             | some j, some k => some (min j k)
             | some j, none => some j
             | none, k => k) else none
        let s1 := if l.flags.getLsbD 7 then
            writeBytes s l.tenant (digRead l 8 8) (signatureBytes s l l.inDig outs) else s
        let s2 := match bad with
          | none => s1
          | some j =>
            tenantError s1 l.tenant [errRow s1 10 0 (put j 8 2 + put (Config.arbSeed l.id 0).toNat 16 8 +
              put (Config.arbSeed l.id 1).toNat 24 8) none + put l.doneObj.toNat 48 8]
        .next (doneIncrement s2 l.tenant l.doneObj l.held (l.heldErr || bad.isSome))

/-! ### Readiness (R314) -/

/-- The record at the head of a queue. -/
def queueHead (s : State) (q : Nat) : Option Launch :=
  match s.sched.queued.find? fun p => decide (p.1 = q) with
  | none => none
  | some p => launchById s p.2

/-- Takes a record out of its queue. -/
def leaveQueue (s : State) (q id : Nat) : State :=
  { s with sched := { s.sched with
      queued := s.sched.queued.filter fun p => !(decide (p.1 = q) && decide (p.2 = id))
      ready := s.sched.ready.filter (· ≠ q) } }

/-- The value of a dependence's object. -/
def depValue (s : State) (l : Launch) (w : Word) : Nat :=
  (extentRead s l.tenant (refObj w.toNat) (refOff w.toNat) 8).getD 0

/-- RECORD_READY (operand: queue): the head's dependences are observed; once all are met the record is ready, or leaves
its queue because a cancelling one carries ERR. -/
def execRecordReady (s : State) : Out :=
  let q := s.ev.queue
  match queueHead s q with
  | none => .next s
  | some l =>
    if s.sched.ready.contains q || s.host.cloveError then .next s
    else
      let deps := l.deps.map fun d => (d.1, d.2.1, d.2.2 || decide (fld d.2.1 0 63 ≤ depValue s l d.1 % 2 ^ 63))
      let l1 := { l with deps := deps }
      let s1 := setLaunch s l1
      if !deps.all (fun d => d.2.2) then .next s1
      else if deps.any fun d => d.2.1.getLsbD 63 && decide (depValue s l d.1 / 2 ^ 63 = 1) then
        let s2 := doneIncrement (leaveQueue s1 q l.id) l.tenant l.doneObj l.target true
        .next (match launchById s2 l.id with
          | some l2 => if l2.completed then s2 else completeLaunch s2 l2
          | none => s2)
      else
        let (s1, held) := digCheck s1 l1 0
        if held then .next s1
        else
        let s2 := if isDigested l then setLaunch s1 { l1 with inDig := digests s1 l1 0 } else s1
        .next { s2 with sched := { s2.sched with ready := s2.sched.ready ++ [q] } }

/-! ### Placement (R315, R316, R318, R322) -/

/-- Number `i` within spans that follow one another. -/
def rankInSpans : Nat → List (Nat × Nat) → Nat
  | _, [] => 0
  | i, (first, n) :: rest => if i < n then first + i else rankInSpans (i - n) rest

/-- The rank of ordinary crew number `i`. -/
def ordinaryRank (l : Launch) (i : Nat) : Nat :=
  if l.flags.getLsbD 6 then rankInSpans i ((List.range l.stages.length).map (stageSpan l)) else l.pidx * runCrews l + i

/-- Crews that are placed in one decision: whole units of the scan-group and the migration level. -/
def placeUnit (l : Launch) : Nat :=
  min (max (levelUnit l l.migl) (match l.scanl with | some v => levelUnit l v | none => 1)) (runCrews l)

/-- Consecutive runs of `n`. -/
def chunksOf {α : Type} (n : Nat) : Nat → List α → List (List α)
  | 0, _ => []
  | k + 1, l => l.take n :: chunksOf n k (l.drop n)

/-- Whether slots suit one whole unit of crews. -/
def unitPlaceOk (l : Launch) (slots : List (Nat × Nat)) : Bool :=
  let um := levelUnit l l.migl
  let ms := chunksOf um (slots.length / max um 1) slots
  ms.all (fun u => oneInstance l l.migl u) &&
    (match l.scanl with
     | none => true
     | some v =>
       let us := min (levelUnit l v) (runCrews l)
       let first := if us < levelUnit l v then l.pidx * us % levelUnit l v else 0
       (chunksOf us (slots.length / max us 1) slots).all fun u =>
         oneInstance l v u && scanRunsOk (levelUnit l v) first (u.map fun p => dieOf p.1))

/-- Place of a queue in the round of a class, which starts after the queue that the class served last (R314). -/
def roundPos (s : State) (cls q : Nat) : Nat := (q + 64 - (spGet s.sched.turn cls).toNat % 64) % 64

/-- The most crews of a launch that the eligible slots of one instance of a domain take. -/
def roomIn (s : State) (l : Launch) (domain : Nat) (needF : Bool) : Nat :=
  let n := [1, 1, 4, 32, 64].getD domain 256
  let m := ((List.range (256 / n)).map fun i => freeRoom s l needF (n * i) n).foldl max 0
  if domain = 0 then min 1 m else m

/-- Whether a whole unit of a ready record finds its slots now (R315). -/
def unitReady (s : State) (l : Launch) : Bool :=
  decide (min (levelUnit l l.migl) (runCrews l) ≤ roomIn s l (levelDomain l l.migl) false) &&
    (match l.scanl with
     | none => true
     | some v =>
       let g := levelUnit l v
       let us := min g (runCrews l)
       let b := if us < g then l.pidx * us % g else 0
       let rooms := if us < g then [chainRooms (hardMask s l) (freeRoom s l false)] else instanceRooms (levelDomain l v) (freeRoom s l false)
       rooms.any fun r => runsFit s g b (b + us) (decide (b ≠ 0)) (decide (b + us ≠ g)) r)

/-- Whether the contexts that are restored with one find their slots now (R355, R359). -/
def setReady (s : State) (l : Launch) (x : SavedCtx) : Bool :=
  decide ((restoreSet s x).length ≤ 1) || decide ((restoreSet s x).length ≤ roomIn s l (levelDomain l l.migl) x.needF)

/-- What the slots are kept for before crews of a launch: a record or context of a higher class whose whole unit can be placed, and
where it is a record that would take them, a context of its class, and a record of its class whose queue comes before in the round
(R314, R318). -/
def outranked (s : State) (l : Launch) (slots : List (Nat × Nat)) (record : Bool) : Bool :=
  (s.sched.ready.any fun q =>
    match queueHead s q with
    | some h =>
      (decide (h.cls < l.cls) ||
        (record && decide (h.cls = l.cls) && decide (roundPos s l.cls q < roundPos s l.cls l.queue))) &&
        slots.any (fun p => slotEligible s h p.1 p.2 false) && unitReady s h
    | none => false) ||
  (s.sched.saved.any fun x =>
    match launchById s x.launch with
    | some h => (decide (h.cls < l.cls) || (record && decide (h.cls = l.cls))) && decide (x.kind ≠ 7) &&
      slots.any (fun p => restorable s h x p.1 p.2) && setReady s h x
    | none => false)

/-- Places crews of given ranks on slots, one by one; none where a slot is not eligible beside those before it. -/
def placeRanks (l : Launch) : List (Nat × Nat × Nat) → State → Option State
  | [], s => some s
  | (rank, p) :: rest, s =>
    if slotEligible s l p.1 p.2 false then placeRanks l rest (setHome (placeCrew s l rank p.1 p.2) l rank p.1) else none

/-- Places crews of ordinary numbers from `i` on the slots. -/
def placeEach (l : Launch) (i : Nat) (slots : List (Nat × Nat)) (s : State) : Option State :=
  placeRanks l (mapNth (fun j p => (ordinaryRank l j, p)) i slots) s

/-- Raises PREQ in a crew, with its tenant's deadline (R248, R356), for the crews of a launch or for none; a second request
has no effect (R357). -/
def raisePreq (deadline for_ : Nat) (c : Crew) : Crew :=
  if c.ctl.preq then c else { c with ctl := { c.ctl with preq := true, deadline := deadline, preqFor := for_ } }

/-- The tenant's deadline (R248). -/
def tenantDeadline : Nat := 20000

/-- Domain of the level whose units are placed whole. -/
def placeDomain (l : Launch) : Nat :=
  let lv := match l.scanl with
    | some v => if levelUnit l l.migl < levelUnit l v then v else l.migl
    | none => l.migl
  ((l.levels[lv]?).map (·.domain)).getD 0

/-- Class of a resident crew. -/
def crewClass (s : State) (c : Crew) : Nat := ((launchById s c.launch).map (·.cls)).getD 0

/-- The crew that the scheduler asks to yield for crews of a launch: of a lower class, of the same tenant or in a slot that
admits the launch's tenant; the lowest class first, then the youngest (R318). For a group that needs Saffron slots, one that
stands on such a slot (R359). -/
def victimFor (s : State) (l : Launch) (needF : Bool) : Option (Nat × Crew) :=
  let ok := s.crews.filter fun p =>
    decide (l.cls < crewClass s p.2) && !p.2.ctl.preq && (!needF || isSaffron (p.1 / 2)) &&
      (decide (p.2.tenant = l.tenant) || slotAdmits s (p.1 / 2) (p.1 % 2) l.tenant)
  ok.foldl (fun best p =>
    match best with
    | none => some p
    | some b =>
      if crewClass s b.2 < crewClass s p.2 ∨ (crewClass s b.2 = crewClass s p.2 ∧ b.2.born ≤ p.2.born) then some p
      else best) none

/-- The scheduler asks one crew to yield where `n` slots in one instance of a domain are wanted for a launch and fewer are
eligible or have been asked for: at most one crew for each missing slot (R318). -/
def askRoom (s : State) (l : Launch) (domain n : Nat) (needF : Bool) : State :=
  let asked := (s.crews.filter fun p => p.2.ctl.preq && decide (p.2.ctl.preqFor = l.id)).length
  if n ≤ roomIn s l domain needF + asked then s
  else match victimFor s l needF with
  | none => s
  | some (k, c) => putCrew s (k / 2) (k % 2) (raisePreq tenantDeadline l.id c)

/-- The launch front ends work after a resume: not before its collective exchange is over and every saved crew of it is restored
(R436). -/
def frontEndsOpen (s : State) : Bool :=
  !s.host.exchange && !(s.sched.saved.any fun x => decide (x.kind = 5) && x.waits.isNone &&
    (match launchById s x.launch with | some l => decide (fnState s (fnOf s l.tenant) = 1) | none => false))

/-- CREW_PLACEMENT (operands: queue, slots): crews of a ready record go on the slots, in ascending rank, whole units
together; with no slot to offer and none eligible, the scheduler asks one crew to yield. -/
def execCrewPlacement (s : State) : Out :=
  let q := s.ev.queue
  let slots := s.ev.slots
  match queueHead s q with
  | none => .next s
  | some l =>
    if !s.sched.ready.contains q || !frontEndsOpen s || s.host.cloveError then .next s
    else if slots.isEmpty then .next (askRoom s l (placeDomain l) (placeUnit l) false)
    else
      let n := ordinaryCrews l
      let u := placeUnit l
      if decide (n < l.nextRank + slots.length) || decide (slots.length % u ≠ 0) || !unitPlaceOk l slots ||
          outranked s l slots true then .next s
      else match placeEach l l.nextRank slots s with
      | none => .next s
      | some s1 =>
        let l1 := { l with nextRank := l.nextRank + slots.length
                           placed := if l.flags.getLsbD 6 then l.stages.map fun e => 2 ^ stMin e - 1 else l.placed }
        let s2 := setLaunch s1 l1
        .next (if l1.nextRank = n then leaveQueue { s2 with sched := { s2.sched with turn := spSet s2.sched.turn l.cls (BitVec.ofNat 16 ((q + 1) % 64)) } } q l.id else s2)

/-- CONTEXT_RESTORE: the saved context of a rank, with its migration group where it has one, on the slot (core, slot) or
on the slots listed (operands: launch, idx = rank, core, slot, slots); not before what is more urgent (R318). A parked context
comes back through PIPELINE_ADD alone (R323). With `flag`, the scheduler asks one crew to yield for a group that waits (R359). -/
def execContextRestore (s : State) : Out :=
  match launchById s s.ev.launch with
  | none => .next s
  | some l =>
    match s.sched.saved.find? fun x => decide (x.launch = l.id) && decide (x.rank = s.ev.idx) && decide (x.kind ≠ 7) with
    | none => .next s
    | some x =>
      let slots := if s.ev.slots = [] then [(s.ev.core, s.ev.slot)] else s.ev.slots
      if s.ev.flag then
        .next (if x.group.isSome && x.needF then askRoom s l (levelDomain l l.migl) (restoreSet s x).length true else s)
      else .next (if outranked s l slots false then s else restoreAll s l (restoreSet s x) slots)

/-- SCRUB_HOLD_END (operands: core, slot): the carve-time zeroing is complete and the crew starts (R317). -/
def execScrubHoldEnd (s : State) : Out :=
  match crewAt s s.ev.core s.ev.slot with
  | none => .next s
  | some c => .next (putCrew s s.ev.core s.ev.slot { c with ctl := { c.ctl with scrubHold := false } })

/-! ### Calendar (R319, R321) -/

/-- Whether a die's shadow is to become the calendar: GO was written in a period that is over. -/
def switchDue (s : State) (d : Nat) : Bool :=
  s.sched.calPending.any fun x => decide (x.1 = d) && decide (x.2 < s.cycle.toNat / 1024)

/-- CALENDAR_SWITCH (operand: die): the first period boundary after GO; the shadow becomes the calendar (R319, R320). -/
def execCalendarSwitch (s : State) : Out :=
  let d := s.ev.die
  if switchDue s d then
    .next { s with sched := { s.sched with
      calPending := s.sched.calPending.filter fun x => decide (x.1 ≠ d)
      calendar := spPut s.sched.calendar (64 * d) ((List.range 64).map fun i =>
        BitVec.ofNat 16 (fld (regGet s 0 (rCALSHADOW d i)) 0 9) ^^^ 0x100#16) } }
  else .next s

/-- CALCOMMIT (operands: die, v): GO schedules the shadow for the next period boundary. -/
def execCalcommit (s : State) : Out :=
  let d := s.ev.die
  if s.ev.v.getLsbD 0 ∧ (s.sched.calPending.map (·.1)).contains d = false ∧ d < 8 ∧ regsAnswer s = true then
    .next { s with sched := { s.sched with calPending := s.sched.calPending ++ [(d, s.cycle.toNat / 1024)] } }
  else .next s

/-- PROGRESS_BOUND_MISSED (operands: die, unit, kind = message class, tenant): a type 12 record (R321, R418). -/
def execProgressBoundMissed (s : State) : Out :=
  let a := s.ev
  .next (tenantError s a.tenant [errRow s 12 0 (put a.die 2 1 + put a.unit 8 8 + put a.kind 16 1) none])

/-! ### Pipelines (R322 to R324) -/

/-- Rank of crew `r` of an instance of a stage. -/
def stageRank (l : Launch) (stage inst r : Nat) : Nat := stage * stageCrews l + inst * instCrews l + r

/-- Where a stage's input ring header lies: at RINGROW of its instance 0 (R322). -/
def ringHome (s : State) (l : Launch) (stage : Nat) : Option Nat :=
  let e := l.stages.getD stage 0
  if stNone e then none
  else match residentOf s l.id (stageRank l stage 0 0) with
  | none => none
  | some k => (asGet s.crews k).map fun c => rowFormKey (k / 2) c (stRow e)

/-- Occupancy TAIL − HEAD of a ring. -/
def ringOccupancy (s : State) (key : Nat) : Nat :=
  let h : Row := BitVec.ofNat 512 (readUnit s key 64)
  ringDiff (ringTail h) (ringHead h)

/-- Whether a crew waits on a ring: its A stream in class 0x9 on an RWAITF of that header, and every other active stream
for another stream (DEDUCED, log 94: only A executes RWAITF, so no other stream can be in class 0x9 on it). -/
def crewIdle (s : State) (k : Nat) (c : Crew) (key : Nat) : Bool :=
  decide (c.strA.wait = 9) && c.trap.inHandler = false &&
    (match (peekWords s (k / 2) c c.strA.pc 1).map decode with
     | some (.ok (.rwaitf _ _ _ kr _)) =>
       let cap := kRead c kr
       (match (access s (k / 2) (k % 2) c cap kRing (unitOf 64 (capCursor cap)) 64).2 with
        | .ok a => decide (a.key = key) && decide (a.tgt ≠ 4)
        | .error _ => false)
     | _ => false) &&
    allEngs.all fun e => !active c e || decide ((strOf c e).wait ≠ 0)

/-- Whether every crew of an instance waits on a ring. -/
def instanceIdle (s : State) (l : Launch) (stage inst key : Nat) : Bool :=
  (List.range (instCrews l)).all fun r =>
    match residentOf s l.id (stageRank l stage inst r) with
    | none => false
    | some k => (asGet s.crews k).any fun c => crewIdle s k c key

/-- History of a stage: periods at or above ADDHI, and by instance the periods empty and idle. -/
def pipeHistory (s : State) (id stage : Nat) : Nat × Sp 16 :=
  ((s.sched.pipes.find? fun p => decide (p.1 = id) && decide (p.2.1 = stage)).map fun p => (p.2.2.1, p.2.2.2)).getD (0, [])

/-- `n` calendar periods of a stage that pass in one step, in which nothing else happens: the counts of periods in a row
go on or start again. -/
def pipePeriod (s : State) (l : Launch) (stage n : Nat) : State :=
  match ringHome s l stage with
  | none => s
  | some key =>
    let occ := ringOccupancy s key
    let (a, z) := pipeHistory s l.id stage
    let a1 := if stAddhi (l.stages.getD stage 0) ≤ occ then a + n else 0
    let idle (i : Nat) : Nat :=
      if decide (occ = 0) && (l.placed.getD stage 0).testBit i && instanceIdle s l stage i key then (spGet z i).toNat + n else 0
    let z1 := spList 0 ((List.range (stageMax l)).map fun i => BitVec.ofNat 16 (min (idle i) 65535))
    { s with sched := { s.sched with
        pipes := (s.sched.pipes.filter fun p => !(decide (p.1 = l.id) && decide (p.2.1 = stage))) ++ [(l.id, stage, a1, z1)] } }

/-- The scheduler reads every ring of every pipeline once per period, outside deterministic mode (R323, R324). -/
def pipePeriods (n : Nat) (s : State) : State :=
  s.sched.launches.foldl (fun s l =>
    if l.flags.getLsbD 6 ∧ l.flags.getLsbD 1 = false ∧ l.completed = false then
      (List.range l.stages.length).foldl (fun s st => pipePeriod s l st n) s
    else s) s

/-- Whether an instance has waited on its ring throughout HOLD periods: found so in each, and none of its crews has made
progress in all that time. -/
def idleLong (s : State) (l : Launch) (stage inst : Nat) (ks : List Nat) : Bool :=
  let hold := stHold (l.stages.getD stage 0)
  decide (hold ≤ (spGet (pipeHistory s l.id stage).2 inst).toNat) &&
    ks.all fun k => (asGet s.crews k).any fun c => decide (1024 * hold ≤ c.ctl.stall)

/-- PIPELINE_ADD (operands: launch, kind = stage, slots): the lowest-numbered absent instance is restored from its parked
contexts, or placed fresh. -/
def execPipelineAdd (s : State) : Out :=
  match launchById s s.ev.launch with
  | none => .next s
  | some l =>
    let st := s.ev.kind
    let slots := s.ev.slots
    let e := l.stages.getD st 0
    let mask := l.placed.getD st 0
    match (List.range (stageMax l)).find? fun i => !mask.testBit i && rankHere l (stageRank l st i 0) with
    | none => .next s
    | some inst =>
      if l.flags.getLsbD 6 = false ∨ l.flags.getLsbD 1 ∨ l.stages.length ≤ st ∨ l.completed ∨ l.nextRank < ordinaryCrews l ∨
          (pipeHistory s l.id st).1 < stHold e ∨ slots.length ≠ instCrews l ∨ unitPlaceOk l slots = false then .next s
      else
        let ranks := (List.range (instCrews l)).map (stageRank l st inst)
        let parked := ranks.filterMap fun r =>
          s.sched.saved.find? fun x => decide (x.launch = l.id) && decide (x.rank = r) && decide (x.kind = 7)
        -- the instance is placed once every crew of it stands
        let put1 (t : State) : State :=
          match launchById t l.id with
          | some l1 =>
            if ranks.all fun r => (residentOf t l.id r).isSome then setLaunch t { l1 with placed := setNth l1.placed st (mask + 2 ^ inst) } else t
          | none => t
        if parked.length = ranks.length then .next (put1 (restoreAll s l parked slots))
        else match placeRanks l (ranks.zip slots) s with
        | some t => .next (put1 t)
        | none => .next s

/-- PIPELINE_PARK (operands: launch, kind = stage, idx = instance): an idle instance other than 0 of an uncompleted launch is saved
as KIND 7. -/
def execPipelinePark (s : State) : Out :=
  match launchById s s.ev.launch with
  | none => .next s
  | some l =>
    let st := s.ev.kind
    let inst := s.ev.idx
    let ks := (List.range (instCrews l)).filterMap fun r => residentOf s l.id (stageRank l st inst r)
    if l.flags.getLsbD 6 = false ∨ l.flags.getLsbD 1 ∨ l.completed ∨ l.stages.length ≤ st ∨ inst = 0 ∨ ks.length ≠ instCrews l ∨
        idleLong s l st inst ks = false ∨ (ringHome s l st).any (instanceIdle s l st inst) = false ∨
        ks.all (fun k => (asGet s.crews k).any fun c =>
          mayStop s (k / 2) (k % 2) c && saveReady s (k / 2) (k % 2) c) = false then .next s
    else
      let s1 := ks.foldl (fun s k => saveCrew s (k / 2) (k % 2) 7 0 none) s
      match launchById s1 l.id with
      | none => .next s1
      | some l1 =>
        let mask := l1.placed.getD st 0
        .next (setLaunch s1 { l1 with placed := setNth l1.placed st (if mask.testBit inst then mask - 2 ^ inst else mask) })

end Sys2Proof.Machine
end

