-- ==== Sys2Proof/Machine/ScanNet.lean ====
section
/-!
DEFINITION. Machine/ScanNet.lean: scans over several crews: SNET, CSEND, CRECV (R209 to R218), the die's scan network
(R53), and the carry channel between dies and packages (R366 to R372).
-/
namespace Sys2Proof.Machine

/-! ### Aggregates as data -/

/-- One channel of an aggregate of W tiles. -/
def aggChan (kind : Nat) (x : Sp 32) (ch : Nat) : ChanElem :=
  let tile (t : Nat) : List Nat := (spBlock x (8192 * t + 64 * ch) 64).map fun y => y.toNat
  { b := tile 0, a := (List.range (aggW kind - 1)).map fun k => tile (k + 1), fl := 0 }

/-- An aggregate from its channels. -/
def aggOf (kind : Nat) (f : Nat → ChanElem) : Sp 32 :=
  (List.range 128).foldl (fun x ch =>
    let e := f ch
    (List.range (aggW kind)).foldl (fun x t =>
      let l := if t = 0 then e.b else e.a.getD (t - 1) []
      spPut x (8192 * t + 64 * ch) (l.map fun y => BitVec.ofNat 32 y)) x) []

/-- combine of two aggregates, the earlier first; an identity is bypassed, in either order (R53). -/
def aggCombine (kind : Nat) (x y : Option (Sp 32)) : Option (Sp 32) :=
  match x, y with
  | none, z => z
  | z, none => z
  | some p, some q => some (aggOf kind fun ch => combineChan kind (aggChan kind p ch) (aggChan kind q ch))

/-- Up-sweep aggregate of the dyadic block of 2^n chunks from `i`; `leaf` is none for an identity (R53). -/
def upSweep (kind : Nat) (leaf : Nat → Option (Sp 32)) (i : Nat) : Nat → Option (Sp 32)
  | 0 => leaf i
  | n + 1 => aggCombine kind (upSweep kind leaf i n) (upSweep kind leaf (i + 2 ^ n) n)

/-- The dyadic blocks of `[0, j)` from the most significant digit of j down, below 2^n: start and log2. -/
def dyadics (j : Nat) : Nat → List (Nat × Nat)
  | 0 => []
  | n + 1 =>
    (if j.testBit n then [(j / 2 ^ (n + 1) * 2 ^ (n + 1), n)] else []) ++ dyadics j n

/-- A dyadic block of a list; one that holds identities only has no aggregate. -/
structure Block where
  start : Nat
  log2 : Nat
  agg : Option (Sp 32)
deriving DecidableEq, Repr

/-- Merges equal-sized siblings at the end of a list of blocks, the left one first (R214). -/
def mergeUp (kind : Nat) : Nat → List Block → List Block
  | 0, l => l
  | fuel + 1, l =>
    match l.reverse with
    | y :: x :: rest =>
      if x.log2 = y.log2 ∧ x.start % 2 ^ (x.log2 + 1) = 0 then
        mergeUp kind fuel (rest.reverse ++ [{ x with log2 := x.log2 + 1, agg := aggCombine kind x.agg y.agg }])
      else l
    | _ => l

/-- The dyadic blocks of `[0, s)` with the aggregates that an incoming list gives them. -/
def incomingBlocks (s : Nat) (inc : List CarryEntry) : List Block :=
  (dyadics s 32).map fun b =>
    { start := b.1, log2 := b.2
      agg := (inc.find? fun e => decide (e.start = b.1) && decide (e.log2 = b.2)).map fun e => e.agg }

/-! ### Where a group stands -/

/-- Ranks of an instance whose home is a die. -/
def dieRanks (s : State) (l : Launch) (inst die : Nat) : List Nat :=
  (localRanks l inst).filter fun r => decide (homeDie s l.id r = some die)

/-- Members of a group, G; 0 where the launch has no scan group. -/
def groupSize (l : Launch) : Nat := match l.scanl with | some v => levelUnit l v | none => 0

/-- Whether a later die of this package holds a chunk of the instance. -/
def laterHere (s : State) (l : Launch) (inst die : Nat) : Bool :=
  (localRanks l inst).any fun r => match homeDie s l.id r with | some d => decide (die < d) | none => false

/-- Whether a later package holds a chunk of the instance. -/
def laterAway (l : Launch) (inst : Nat) : Bool :=
  match (localRanks l inst).getLast? with
  | some r => decide (r % max (groupSize l) 1 + 1 < groupSize l)
  | none => false

/-- The link by which lists leave a die towards the later dies of a group: to the next die, or through the exit port of
the partition (R367). -/
def exitLink (s : State) (l : Launch) (inst die : Nat) : Option Nat :=
  if laterHere s l inst die then some die
  else if laterAway l inst then
    match carryPorts s l with
    | none => none
    | some (_, o) => if (if o = 2 then 3 else 7) = die then some (7 + o) else some die
  else none

/-! ### Links (R368 to R370) -/

def linkAt (s : State) (i : Nat) : Option CarryLink := s.fabric.links.find? fun k => decide (k.id = i)
def setLink (s : State) (k : CarryLink) : State :=
  { s with fabric := { s.fabric with links := s.fabric.links.map fun x => if x.id = k.id then k else x } }

/-- The die that a link leads to: the next one, or the die of a port. -/
def linkDie (i : Nat) : Nat :=
  if i < 7 then i + 1 else if i = 7 then 0 else if i = 8 then 7 else if i = 9 then 3 else 4

/-- A type 9 record of an error (R418): unit kind, location, die. -/
def errorRecord (s : State) (kind loc die : Nat) : Nat := errRow s 9 0 (put kind 2 1 + put loc 8 8 + put die 16 1) none

/-- A link or port is down: 0 to 6 between dies, 7 to 10 the carry ports, 16 to 19 the bridge stations, 32 + n the link of the
package ring to stop n; PRESPORT and a record
to the physical function report it (R421, R423). -/
def downLink (s : State) (i die : Nat) : State :=
  let links := s.fabric.links.map fun k => if k.id = i then { k with up := false } else k
  let ring := if 32 ≤ i ∧ i ≤ 41 then s.fabric.ringDown.filter (· ≠ i - 32) ++ [i - 32] else s.fabric.ringDown
  let s1 : State := { s with fabric := { s.fabric with links := links, ringDown := ring } }
  let clear (s : State) (b : Nat) : State := regSet s 0 rPRESPORT (setBit (regGet s 0 rPRESPORT) b false)
  let s2 := if 7 ≤ i ∧ i ≤ 10 then clear s1 (i - 7) else if 16 ≤ i ∧ i ≤ 19 then clear s1 (i - 12) else s1
  eqPost s2 0 [errorRecord s2 6 i die]

/-- The header row of a packet (R369); a failure marker holds its cause in byte 13. -/
def packetHeader (p : CarryPacket) : Row :=
  fields [(p.type, 0, 1), (p.kind, 1, 1), (p.cid, 2, 2), (p.exch, 4, 4), (p.clen, 8, 4), (p.verdict, 12, 1), (p.cause, 13, 1),
    (p.launch.toNat, 16, 8), (p.inst, 24, 4), (p.entry, 28, 2), (p.nentry, 30, 2), (p.start, 32, 4), (p.log2, 36, 1),
    (p.w, 37, 1), (p.pkt, 38, 2), (p.npkt, 40, 2), (p.rows.length, 42, 2), (p.seq, 44, 4)]

/-- A packet as it goes on a link: its header raw, its rows as row records (R32, R369). -/
def wireOf (p : CarryPacket) : WirePacket := { header := packetHeader p, records := p.rows.map encodeRecord, marks := p.marks, bad := false }

/-- SEQ of a header. -/
def headerSeq (h : Row) : Nat := rowBytes h 44 4

/-- The rows of records; none where one is malformed (R34). -/
def recordRows : List RowRecord → Option (List Row)
  | [] => some []
  | r :: rest =>
    match decodeRecord r, recordRows rest with
    | some x, some l => some (x :: l)
    | _, _ => none

/-- The packet that a receiver reads from the wire; none where it fails link integrity: damaged, a malformed record, or not
as many rows as its header says (R34, R370). -/
def readPacket (x : WirePacket) : Option CarryPacket :=
  let h := x.header
  match (if x.bad then none else recordRows x.records) with
  | none => none
  | some rows =>
    if rowBytes h 0 1 = 1 ∧ rows.length ≠ rowBytes h 42 2 then none
    else some
      { type := rowBytes h 0 1, kind := rowBytes h 1 1, cid := rowBytes h 2 2, exch := rowBytes h 4 4, clen := rowBytes h 8 4,
        verdict := rowBytes h 12 1, cause := rowBytes h 13 1, launch := BitVec.ofNat 64 (rowBytes h 16 8),
        inst := rowBytes h 24 4, entry := rowBytes h 28 2, nentry := rowBytes h 30 2, start := rowBytes h 32 4,
        log2 := rowBytes h 36 1, w := rowBytes h 37 1, pkt := rowBytes h 38 2, npkt := rowBytes h 40 2, rows := rows,
        marks := x.marks, seq := headerSeq h }

/-- Sends waiting packets while the link is up and credits are held, each as it goes on the wire; the second component lists the
links whose room in this die's carry store a forwarded packet has left. A port's packets leave the package. -/
def pump : Nat → CarryLink → CarryLink × List Nat
  | 0, k => (k, [])
  | fuel + 1, k =>
    match k.pending with
    | [] => (k, [])
    | (p, came) :: rest =>
      if k.up = false ∨ k.credits = 0 then (k, [])
      else
        let q := { p with seq := k.nextSeq }
        let (k1, l) := pump fuel { k with pending := rest, unacked := k.unacked ++ [q], credits := k.credits - 1
                                          flight := k.flight ++ [wireOf q]
                                          nextSeq := (k.nextSeq + 1) % 2 ^ 32 }
        (k1, came.toList ++ l)

/-- The receiver has freed `n` packets' room in the carry store. -/
def freeCredits (s : State) (i n : Nat) : State :=
  match linkAt s i with
  | none => s
  | some k => setLink s (giveCredits k n)

/-- Lets a link send what it can. -/
def pumpLink (s : State) (k : CarryLink) : State :=
  let (k1, freed) := pump k.pending.length k
  freed.foldl (fun s i => freeCredits s i 1) (setLink s k1)

/-- Hands packets to a link, each with the link by which it came into this die's carry store, if it did. -/
def sendOn (s : State) (i : Nat) (ps : List (CarryPacket × Option Nat)) : State :=
  match linkAt s i with
  | none => s
  | some k => pumpLink s { k with pending := k.pending ++ ps }

/-- A header common to the packets of an exchange. -/
def packetOf (s : State) (l : Launch) (x : Exchange) : CarryPacket :=
  { type := 1, kind := ((x.params[0]?).map (·.1)).getD 0, cid := cidOf s l.tenant, exch := x.exch,
    clen := ((x.params[0]?).map (·.2)).getD 0, verdict := x.outVerdict, cause := 0, launch := l.doneObj, inst := x.inst,
    entry := 0, nentry := 0, start := 0, log2 := 0, w := 0, pkt := 0, npkt := 0, rows := [], marks := [], seq := 0 }

/-- The packets of one entry: tiles in order, 1,024 rows to a packet (R369). -/
def entryPackets (h : CarryPacket) (i n : Nat) (e : CarryEntry) : List CarryPacket :=
  let rows : List Row := (List.range (512 * e.w)).map fun r => rowOf 32 16 fun j => (spGet e.agg (16 * r + j)).toNat
  let np := (e.w + 1) / 2
  (List.range np).map fun p =>
    { h with entry := i, nentry := n, start := e.start, log2 := e.log2, w := e.w, pkt := p, npkt := np,
             rows := (rows.drop (1024 * p)).take 1024
             marks := (List.range (min 1024 (rows.length - 1024 * p))).filter fun r => e.bad.contains (r % 512 / 4) }

/-- The entry that packets of one entry index hold. -/
def packetsEntry (ps : List CarryPacket) (i : Nat) : Option CarryEntry :=
  let mine := ps.filter fun p => decide (p.entry = i)
  match mine with
  | [] => none
  | p :: _ =>
    let rows := (mine.map fun q => q.rows).flatten
    some { start := p.start, log2 := p.log2, w := p.w
           bad := ((mine.map fun q => q.marks.map fun r => r % 512 / 4).flatten).eraseDups
           agg := spList 0 ((rows.map fun r => (List.range 16).map fun j => BitVec.ofNat 32 (rowElem r 32 j)).flatten) }

/-- The incoming list, once every packet of it has arrived. -/
def incomingList (x : Exchange) : Option (List CarryEntry) :=
  match x.held.getLast? with
  | none => none
  | some p =>
    if p.entry + 1 = p.nentry ∧ p.pkt + 1 = p.npkt then
      let es := (List.range p.nentry).filterMap (packetsEntry x.held)
      if es.length = p.nentry then some es else none
    else none

/-! ### Exchanges -/

def sameExchange (x y : Exchange) : Bool :=
  decide (x.die = y.die) && decide (x.launch = y.launch) && decide (x.inst = y.inst) && decide (x.exch = y.exch)

def exchangeAt (s : State) (die launch inst exch : Nat) : Option Exchange :=
  s.fabric.exchanges.find? fun x =>
    decide (x.die = die) && decide (x.launch = launch) && decide (x.inst = inst) && decide (x.exch = exch)

def freshExchange (die launch inst exch : Nat) : Exchange :=
  { die := die, launch := launch, inst := inst, exch := exch, opened := false, params := [], contribs := [], held := [],
    inLink := 0, recvAt := none, sendAt := none, failed := 0, carried := false, kept := [], bads := [], out := [], outVerdict := 0,
    sent := 0 }

/-- Stores an exchange, new or known. -/
def putExchange (s : State) (x : Exchange) : State :=
  let l := s.fabric.exchanges
  { s with fabric := { s.fabric with
      exchanges := if l.any (sameExchange x) then l.map fun y => if sameExchange x y then x else y else l ++ [x] } }

/-- The exchange with what its members name added. -/
def nameParams (x : Exchange) (kind clen : Nat) : Exchange :=
  if x.params.contains (kind, clen) then x else { x with params := x.params ++ [(kind, clen)] }

/-- Whether a member is still resident or saved. -/
def memberAlive (s : State) (launch rank : Nat) : Bool :=
  s.crews.any (fun p => decide (p.2.launch = launch) && decide (p.2.rank = rank)) ||
    s.sched.saved.any fun y => decide (y.launch = launch) && decide (y.rank = rank)

/-- Closes an exchange once every carry of the die has been written and its CSEND is acknowledged (R213). -/
def closeExchange (s : State) (l : Launch) (x : Exchange) : State :=
  let left := x.kept.filter fun k => memberAlive s x.launch k.1
  if x.carried && left.isEmpty && decide (x.failed = 0) && ((exitLink s l x.inst x.die).isNone || decide (2 ≤ x.sent)) then
    let s1 : State := { s with fabric := { s.fabric with exchanges := s.fabric.exchanges.filter fun y => !sameExchange x y } }
    freeCredits s1 x.inLink x.held.length
  else putExchange s { x with kept := left }

/-- An exchange fails on a die: no carry is written, a marker goes forward in place of the list, and the room of its
packets is free again (R216, R217, R372). -/
def failExchange (s : State) (l : Launch) (x : Exchange) (cause : Nat) : State :=
  if x.failed ≠ 0 then s
  else
    let s1 := putExchange (freeCredits s x.inLink x.held.length) { x with failed := cause, held := [], kept := [] }
    match exitLink s l x.inst x.die with
    | none => s1
    | some i =>
      if x.sent = 0 then sendOn s1 i [({ packetOf s l x with type := 2, cause := cause, verdict := 0 }, none)] else s1

/-- The current exchange number of an instance on a die: the open one, or the number of its members' next (R371). -/
def currentExch (s : State) (l : Launch) (inst die : Nat) : Nat :=
  match s.fabric.exchanges.find? fun x =>
      decide (x.die = die) && decide (x.launch = l.id) && decide (x.inst = inst) && x.opened && decide (x.failed = 0) with
  | some x => x.exch
  | none =>
    let rs := dieRanks s l inst die
    ((s.crews.map fun p => if p.2.launch = l.id ∧ rs.contains p.2.rank then p.2.exchNo else 0) ++
      s.sched.saved.map fun y => if y.launch = l.id ∧ rs.contains y.rank then y.side.exchNo else 0).foldl max 0

/-! ### The scan network (R53, R213, R214) -/

/-- Verdict bits: a short chunk has been seen; the counts so far obey R209. -/
def countStep (clen : Nat) (acc : Bool × Bool) (idx count : Nat) : Bool × Bool :=
  let (short, ok) := acc
  if count = 0 ∧ idx ≠ 0 then acc
  else (short || (decide (0 < count) && decide (count < clen)), ok && !short)

/-- Whether the die's members have all contributed and the incoming list is there, or is not called for. -/
def networkReady (s : State) (l : Launch) (x : Exchange) : Bool :=
  let rs := dieRanks s l x.inst x.die
  let first := ((x.contribs.map fun k => k.idx).foldl min (2 ^ 40))
  !rs.isEmpty && decide (x.failed = 0) && !x.carried && rs.all (fun r => x.contribs.any fun k => decide (k.rank = r)) &&
    (decide (first = 0) || (incomingList x).isSome)

/-- Packets held for an exchange before it opened that its members do not agree with (R371). -/
def heldDiffers (x : Exchange) : Bool :=
  x.params.any fun q => x.held.any fun p => decide ((p.kind, p.clen) ≠ q)

/-- Opens an exchange, or goes on with it; it fails at once where the packets held for it differ from its members. -/
def openExchange (s : State) (l : Launch) (x : Exchange) : State :=
  if x.failed = 0 ∧ heldDiffers x = true then failExchange (putExchange s x) l x 0x13 else putExchange s x

/-- The network forms the aggregates and the carries of an exchange, or finds that it fails. -/
def runNetwork (s : State) (l : Launch) (x : Exchange) : State :=
  let inc := (incomingList x).getD []
  let head := x.held.head?
  match x.params with
  | [(kind, clen)] =>
    let cs := (List.range (groupSize l)).filterMap fun i => x.contribs.find? fun k => decide (k.idx = i)
    let v0 := match head with | some p => p.verdict | none => 2
    let (short, ok) := cs.foldl (fun acc k => countStep clen acc k.idx k.count) (v0.testBit 0, v0.testBit 1)
    if !ok || heldDiffers x || cs.any (fun k => decide (k.exch ≠ x.exch)) then failExchange s l x 0x13
    else
      let leaf (i : Nat) : Option (Sp 32) :=
        match cs.find? fun k => decide (k.idx = i) with
        | some k => if k.count = 0 ∧ k.idx ≠ 0 then none else some k.agg
        | none => none
      let st := (cs.map fun k => k.idx).foldl min (2 ^ 40)
      let n := cs.length
      let a := if n ≤ 1 then 0 else Nat.log2 (n - 1) + 1
      let pre := incomingBlocks st inc
      let before : Option (Sp 32) := pre.foldl (fun acc b => aggCombine kind acc b.agg) none
      let carry (j : Nat) : Option (Sp 32) :=
        (dyadics (j - st) a).foldl (fun acc b => aggCombine kind acc (upSweep kind leaf (st + b.1) b.2)) before
      let kept := cs.map fun k =>
        if k.idx = 0 then (k.rank, false, ([] : Sp 32))
        else match carry k.idx with
          | some g => (k.rank, true, spKeep g 0 8192)
          | none => (k.rank, false, [])
      let spans : List (Nat × Nat × List Nat) := inc.map (fun e => (e.start, e.start + 2 ^ e.log2, e.bad)) ++
        (cs.filter fun k => decide (k.count ≠ 0) || decide (k.idx = 0)).map fun k => (k.idx, k.idx + 1, k.bad)
      let badSpan (lo hi : Nat) : List Nat :=
        (((spans.filter fun p => decide (lo ≤ p.1) && decide (p.2.1 ≤ hi)).map fun p => p.2.2).flatten).eraseDups
      let out : List CarryEntry := (mergeUp kind 32 (pre ++ [⟨st, a, upSweep kind leaf st a⟩])).filterMap fun b =>
        b.agg.map fun g =>
          { start := b.start, log2 := b.log2, w := aggW kind, agg := g, bad := badSpan b.start (b.start + 2 ^ b.log2) }
      let sends := (exitLink s l x.inst x.die).isSome
      if 2 ^ 20 < max inc.length (if sends then out.length else 0) * aggW kind * 32768 then failExchange s l x 0x13
      else
        putExchange s { x with carried := true, kept := kept, bads := cs.map (fun k => (k.rank, badSpan 0 k.idx)), out := if sends then out else []
                               outVerdict := (if short then 1 else 0) + 2 }
  | _ => failExchange s l x 0x13

/-- SCAN_NETWORK_CARRY (operands: die, launch, idx = instance, off = exchange). -/
def execScanNetworkCarry (s : State) : Out :=
  match launchById s s.ev.launch, exchangeAt s s.ev.die s.ev.launch s.ev.idx s.ev.off with
  | some l, some x => .next (if networkReady s l x then runNetwork s l x else s)
  | _, _ => .next s

/-- Lets the network fall due for an exchange. -/
def notifyNetwork (s : State) (l : Launch) (x : Exchange) : State :=
  if networkReady s l x then
    { s with agenda := s.agenda ++
        [.event .scanNetworkCarry { die := x.die, launch := x.launch, idx := x.inst, off := x.exch }] }
  else s

/-! ### SNET, CRECV, CSEND -/

/-- Whether one of the four rows of a tile channel is poisoned. -/
def chanPoisoned (s : State) (core slot h ch : Nat) : Bool :=
  (List.range 4).any fun r => unitPoisoned s core slot 2 (512 * h + 4 * ch + r)

/-- What a member's SNET contributes. -/
def contributionOf (s : State) (core slot : Nat) (c : Crew) (w : SWord) (idx : Nat) : Contribution :=
  let kind := dKind (descOf c w)
  let n := stepCount c w
  let h := w.h.toNat
  let agg : Sp 32 := (spKeep c.st (8192 * h) (8192 * aggW kind)).map fun p => (p.1 - 8192 * h, p.2)
  { idx := idx, kind := kind, clen := clenOf w, count := n, w := aggW kind, agg := if n = 0 ∧ idx ≠ 0 then [] else agg,
    bad := (List.range 128).filter fun ch => (List.range (aggW kind)).any fun t => chanPoisoned s core slot (h + t) ch
    exch := c.exchNo, core := core, slot := slot, rank := c.rank }

/-- A member waits on the scan network. -/
def waitNet (s : State) (c : Crew) : Out := wait s c .s 0xA

/-- Raises the cause with which an exchange has failed. -/
def raiseNet (s : State) (c : Crew) (cause : Nat) : Out := raiseHere s c .s cause 0

/-- The poisoned channels of a member's carry. -/
def carryBads (x : Exchange) (rank : Nat) : List Nat := ((x.bads.find? fun k => decide (k.1 = rank)).map (·.2)).getD []

/-- Tile `t` has been written whole: of its channels those of `bad` came poisoned, the others are clean (R421). -/
def landCarry (s : State) (core t : Nat) (bad : List Nat) : State :=
  (List.range 128).foldl (fun s ch =>
    if bad.contains ch then
      (List.range 4).foldl (fun s r => poisonUnit s core s.cur.slot 2 (512 * t + 4 * ch + r)) s
    else cleanChan s core t ch) s

/-- SNET once it is issued: contribute, then wait for the carry and collect it. -/
def snetRun (w : SWord) (s : State) (c : Crew) : Out :=
  let core := s.cur.core
  let die := dieOf core
  match launchById s c.launch, groupOf s c with
  | some l, some (g, idx, inst) =>
    if g ≤ 1 then sFinish s { c with exchNo := c.exchNo + 1 }
    else if c.sctx.sprog = 0 then
      let before := s.fabric.exchanges.any fun x => decide (x.die = die) && decide (x.launch = l.id) &&
        decide (x.inst = inst) && decide (x.exch < c.exchNo) && x.opened && decide (x.failed = 0)
      let ahead := s.fabric.exchanges.find? fun x => decide (x.die = die) && decide (x.launch = l.id) &&
        decide (x.inst = inst) && decide (c.exchNo < x.exch) && x.opened && decide (x.failed = 0)
      if before then waitNet s c
      else match ahead with
      | some y => raiseNet (failExchange s l y 0x13) c 0x13
      | none =>
        let x := (exchangeAt s die l.id inst c.exchNo).getD (freshExchange die l.id inst c.exchNo)
        if x.failed ≠ 0 then raiseNet s { c with exchNo := c.exchNo + 1, sctx := { c.sctx with sprog := 1 } } x.failed
        else
          let k := contributionOf s core s.cur.slot c w idx
          let x1 := nameParams { x with opened := true, contribs := x.contribs ++ [k] } k.kind k.clen
          let c1 := { c with exchNo := c.exchNo + 1, sctx := { c.sctx with sprog := 1 } }
          let s1 := openExchange (putCrew s core s.cur.slot c1) l x1
          if heldDiffers x1 then raiseNet s1 c1 0x13 else waitNet (notifyNetwork s1 l x1) c1
    else
      match exchangeAt s die l.id inst (c.exchNo - 1) with
      | none => sFinish s c
      | some x =>
        if x.failed ≠ 0 then raiseNet s c x.failed
        else match x.kept.find? fun k => decide (k.1 = c.rank) with
        | none => waitNet s c
        | some (_, write, agg) =>
          let t := w.h.toNat + aggW (dKind (descOf c w))
          let c1 := if write then { c with st := spPut c.st (8192 * t) (spBlock agg 0 8192) } else c
          let s1 := if write then landCarry s core t (carryBads x c.rank) else s
          sFinish (closeExchange s1 l { x with kept := x.kept.filter fun k => decide (k.1 ≠ c.rank) }) c1
  | _, _ => raiseNet s c 0x13

/-- CRECV once it is issued: only the member with the die's first chunk acts, and only when chunks precede it. -/
def crecvRun (w : SWord) (s : State) (c : Crew) : Out :=
  let core := s.cur.core
  let die := dieOf core
  match launchById s c.launch, groupOf s c with
  | some l, some (_, idx, inst) =>
    let first := ((dieRanks s l inst die).headD c.rank) = c.rank
    if idx = 0 ∨ !first then sFinish s c
    else
      let x := (exchangeAt s die l.id inst c.exchNo).getD (freshExchange die l.id inst c.exchNo)
      if x.failed ≠ 0 then raiseNet s c x.failed
      else if (incomingList x).isSome ∧ x.opened then
        let x1 := nameParams x (dKind (descOf c w)) (clenOf w)
        if heldDiffers x1 then raiseNet (openExchange s l x1) c 0x13 else sFinish (putExchange s x1) c
      else if c.sctx.sprog = 0 then
        let x1 := nameParams { x with opened := true, recvAt := some s.cycle.toNat } (dKind (descOf c w)) (clenOf w)
        let c1 := { c with sctx := { c.sctx with sprog := 1 } }
        if heldDiffers x1 then raiseNet (openExchange s l x1) c 0x13
        else if (incomingList x1).isSome then sFinish (putExchange s x1) c1
        else waitNet (putExchange s x1) c1
      else waitNet s c
  | _, _ => raiseNet s c 0x13

/-- CSEND once it is issued: only the member with the die's last chunk acts, towards a later die. -/
def csendRun (w : SWord) (s : State) (c : Crew) : Out :=
  let core := s.cur.core
  let die := dieOf core
  match launchById s c.launch, groupOf s c with
  | some l, some (_, _, inst) =>
    let last := ((dieRanks s l inst die).getLast?.getD c.rank) = c.rank
    match exitLink s l inst die with
    | none => sFinish s c
    | some i =>
      if !last then sFinish s c
      else match exchangeAt s die l.id inst (c.exchNo - 1) with
      | none => if c.exchNo = 0 then waitNet s c else sFinish s c
      | some x =>
        if x.failed ≠ 0 then raiseNet s c x.failed
        else if x.sent = 3 then raiseNet s c 0x14
        else if x.sent = 2 then sFinish s c
        else if x.carried = false then waitNet s { c with sctx := { c.sctx with sprog := 1 } }
        else if !x.params.contains (dKind (descOf c w), clenOf w) then
          let s1 := failExchange s l x 0x13
          raiseNet s1 c 0x13
        else if x.sent = 0 then
          let x1 := { x with sent := 1, sendAt := some s.cycle.toNat }
          let h := packetOf s l x1
          let ps := ((mapNth (fun n e => entryPackets h n x.out.length e) 0 x.out).flatten).map fun p => (p, none)
          let c1 := { c with sctx := { c.sctx with sprog := 1 } }
          waitNet (sendOn (putExchange s x1) i ps) c1
        else waitNet s c
  | _, _ => raiseNet s c 0x13

/-- Issues a network instruction, or goes on with it. -/
def netExec (k : SKind) (w : SWord) (run : SWord → State → Crew → Out) (s : State) : Out :=
  onCrew s .s fun c =>
    if c.sctx.active then run w s c
    else match sIssue s s.cur.core c k w with
    | .wait cls => wait s c .s cls
    | .fault cause addr => raiseHere s c .s cause addr
    | .go c1 => if (groupOf s c1).isNone then raiseHere s c .s 0x13 0 else run w s c1

def execSnet (w : SWord) (s : State) : Out := netExec .net w snetRun s
def execCsend (w : SWord) (s : State) : Out := netExec .send w csendRun s
def execCrecv (w : SWord) (s : State) : Out := netExec .recv w crecvRun s

/-! ### Packets (R369 to R372) -/

/-- The launch instance that a packet names, if it is accepted, uncompleted and of a current, undrained generation. -/
def packetLaunch (s : State) (p : CarryPacket) : Option Launch :=
  let tenant := p.cid / 256
  if cidOf s tenant ≠ p.cid ∨ fnState s (fnOf s tenant) = 0 ∨ s.fabric.draining.contains p.cid = true then none
  else s.sched.launches.find? fun l =>
    decide (l.tenant = tenant) && decide (l.doneObj = p.launch) && !l.completed && l.scanl.isSome

/-- A packet that is discarded is counted in CARRYDROP and its room is free at once. -/
def dropPacket (s : State) (link die : Nat) : State :=
  let n := (spGet s.fabric.carryDrop die).toNat
  freeCredits { s with fabric := { s.fabric with
    carryDrop := spSet s.fabric.carryDrop die (BitVec.ofNat 32 (min (n + 1) (2 ^ 32 - 1))) } } link 1

/-- The packets of an identifier that wait for a link are discarded and counted, and their room is free (R386, R408). -/
def dropWaiting (s : State) (cid : Nat) (k : CarryLink) : State :=
  let die := if k.id < 7 then k.id else linkDie k.id
  let gone := k.pending.filter fun p => decide (p.1.cid = cid)
  let n := (spGet s.fabric.carryDrop die).toNat + gone.length
  let s1 : State := { s with fabric := { s.fabric with
    carryDrop := if gone.isEmpty then s.fabric.carryDrop else spSet s.fabric.carryDrop die (BitVec.ofNat 32 (min n (2 ^ 32 - 1)))
    links := s.fabric.links.map fun x => if x.id = k.id then { x with pending := x.pending.filter fun p => decide (p.1.cid ≠ cid) } else x } }
  gone.foldl (fun s p => match p.2 with | some i => freeCredits s i 1 | none => s) s1

/-- What a die does with an accepted packet, by its header (R371). A packet of a reserved TYPE, or an acknowledgement or a
credit in the forward direction, is acknowledged, discarded and counted (DESIGN CHOICE, log 95). -/
def takePacket (s : State) (link : Nat) (p : CarryPacket) : State :=
  let die := linkDie link
  match (if p.type = 1 ∨ p.type = 2 then packetLaunch s p else none) with
  | none => dropPacket s link die
  | some l =>
    let mine := dieRanks s l p.inst die
    if mine.isEmpty then
      (match exitLink s l p.inst die with
       | some i => sendOn s i [(p, some link)]
       | none => dropPacket s link die)
    else
      let cur := currentExch s l p.inst die
      let x : Exchange := { (exchangeAt s die l.id p.inst p.exch).getD (freshExchange die l.id p.inst p.exch) with inLink := link }
      if p.exch < cur ∨ cur + 1 < p.exch ∨ x.failed ≠ 0 then dropPacket s link die
      else if p.type = 2 then failExchange (freeCredits s link 1) l x p.cause
      else
        let x1 := { x with held := x.held ++ [p] }
        let s1 := putExchange s x1
        let differs := x.params.any fun q => decide (q ≠ (p.kind, p.clen))
        if differs || !p.verdict.testBit 1 then failExchange s1 l x1 0x13 else notifyNetwork s1 l x1

/-- An accepted packet is acknowledged on the reverse direction; one that came by a port, outside the package. -/
def acceptPacket (k : CarryLink) : CarryLink :=
  { k with expect := (k.expect + 1) % 2 ^ 32, resends := 0, acks := if k.id < 7 then k.acks ++ [linkReply 3 k.expect] else k.acks }

/-- CARRY_PACKET_RECEIVE (operands: unit = link, pkt, flag): the packet at the head of the wire, or one that comes through
a port from another package; flag says that the link has damaged it. A good packet in sequence is acknowledged and acted
on; any other is discarded and a resend asked for. -/
def execCarryPacketReceive (s : State) : Out :=
  let i := s.ev.unit
  match linkAt s i with
  | none => .next s
  | some k =>
    let got : Option (WirePacket × CarryLink) :=
      if 7 ≤ i then s.ev.pkt.map fun p => (p, k)
      else match k.flight with
      | p :: rest => some (p, { k with flight := rest })
      | [] => none
    match got with
    | none => .next s
    | some (x, k1) =>
      if k.up = false then .next s
      else match (if s.ev.flag then none else readPacket x) with
      | none => .next (setLink s { k1 with resend := true })
      | some p =>
        if p.seq ≠ k.expect then .next (setLink s { k1 with resend := true })
        else .next (takePacket (setLink s (acceptPacket k1)) i p)

/-- The exchange whose list a link carried is acknowledged once none of its packets is left at the sender. -/
def noteAcked (s : State) (i : Nat) : State :=
  match linkAt s i with
  | none => s
  | some k =>
    s.fabric.exchanges.foldl (fun s x =>
      match launchById s x.launch with
      | none => s
      | some l =>
        let still := (k.pending.map (·.1) ++ k.unacked).any fun p =>
          decide (p.type = 1) && decide (p.launch = l.doneObj) && decide (p.inst = x.inst) && decide (p.exch = x.exch)
        if x.sent = 1 ∧ exitLink s l x.inst x.die = some i ∧ still = false then closeExchange s l { x with sent := 2 } else s) s

/-- The oldest packet of a type on a link's reverse direction, or for a port the one that comes from outside. -/
def replyIn (s : State) (k : CarryLink) (type : Nat) (l : List WirePacket) : Option (WirePacket × List WirePacket) :=
  if k.id < 7 then (match l with | a :: rest => some (a, rest) | [] => none)
  else match s.ev.pkt with
  | some a => if rowBytes a.header 0 1 = type ∧ a.bad = false then some (a, l) else none
  | none => none

/-- CARRY_ACKNOWLEDGEMENT (operands: unit = link, pkt = TYPE 3 packet from outside): the sender's copy of a packet is
free. -/
def execCarryAcknowledgement (s : State) : Out :=
  let i := s.ev.unit
  match linkAt s i with
  | none => .next s
  | some k =>
    match replyIn s k 3 k.acks with
    | none => .next s
    | some (a, rest) =>
      .next (noteAcked (setLink s
        { k with acks := rest, unacked := k.unacked.filter (fun p => decide (p.seq ≠ headerSeq a.header)), resends := if k.id < 7 then k.resends else 0
                 flight := if k.id < 7 then k.flight else k.flight.filter fun p => decide (headerSeq p.header ≠ headerSeq a.header) }) i)

/-- CARRY_CREDIT (operands: unit = link, pkt = TYPE 4 packet from outside): 64 KiB of the receiver's carry store are free,
and the sender may send. -/
def execCarryCredit (s : State) : Out :=
  match linkAt s s.ev.unit with
  | none => .next s
  | some k =>
    match replyIn s k 4 k.freed with
    | none => .next s
    | some (_, rest) => .next (pumpLink s { k with freed := rest, credits := min (k.credits + 1) 16 })

/-- What the sender sends again: every packet from the expected SEQ on (R370). -/
def resendFrom (k : CarryLink) (expect : Nat) : List WirePacket :=
  (k.unacked.dropWhile fun p => decide (p.seq ≠ expect)).map wireOf

/-- CARRY_RESEND_REQUEST (operands: unit = link; off = the SEQ expected beyond an exit port): the sender sends again every packet
from the expected SEQ on; beyond an entry port the other package's sender does. After 64 resends in a row the link is down
(R421). -/
def execCarryResendRequest (s : State) : Out :=
  match linkAt s s.ev.unit with
  | none => .next s
  | some k =>
    if k.resend && decide (64 ≤ k.resends) then .next (downLink (setLink s { k with resend := false }) k.id (linkDie k.id))
    else if k.resend then
      .next (setLink s { k with resend := false, resends := k.resends + 1, flight := if k.id < 7 then resendFrom k k.expect else k.flight })
    else if (k.id = 8 ∨ k.id = 9) ∧ k.unacked.any (fun p => decide (p.seq = s.ev.off)) = true then
      if 64 ≤ k.resends then .next (downLink s k.id (linkDie k.id))
      else .next (setLink s { k with resends := k.resends + 1, flight := resendFrom k s.ev.off })
    else .next s

/-- CARRY_TIMEOUT (operands: die, launch, idx = instance, off = exchange): an acting CRECV's list is not complete within
the timeout of its issue; the exchange fails with 0x14 (R217, R372). -/
def execCarryTimeout (s : State) : Out :=
  match launchById s s.ev.launch, exchangeAt s s.ev.die s.ev.launch s.ev.idx s.ev.off with
  | some l, some x =>
    match x.recvAt with
    | some t =>
      if t + l.cto ≤ s.cycle.toNat ∧ (incomingList x).isNone then .next (failExchange s l x 0x14) else .next s
    | none => .next s
  | _, _ => .next s

/-- CSEND_PORT_TIMEOUT (operands: die, launch, idx = instance, off = exchange): the exit of an acting CSEND is down when
the group's timeout has run from its issue; the CSEND raises 0x14 (R372). -/
def execCsendPortTimeout (s : State) : Out :=
  match launchById s s.ev.launch, exchangeAt s s.ev.die s.ev.launch s.ev.idx s.ev.off with
  | some l, some x =>
    match x.sendAt, exitLink s l x.inst x.die with
    | some t, some i =>
      if t + l.cto ≤ s.cycle.toNat ∧ x.sent = 1 ∧ linkUp s i = false then
        .next (putExchange s { x with sent := 3 })
      else .next s
    | _, _ => .next s
  | _, _ => .next s

/-- The cycles that acting CSENDs spend waiting for credits on a link that is up do not count towards their timeout (R370). -/
def creditWaits (n : Nat) (s : State) : State :=
  let waits (x : Exchange) : Bool :=
    decide (x.sent = 1) && match launchById s x.launch with
      | none => false
      | some l =>
        match (exitLink s l x.inst x.die).bind (linkAt s) with
        | some k => k.up && decide (k.credits = 0) &&
            k.pending.any fun p => decide (p.1.launch = l.doneObj) && decide (p.1.inst = x.inst) && decide (p.1.exch = x.exch)
        | none => false
  { s with fabric := { s.fabric with
      exchanges := s.fabric.exchanges.map fun x => if waits x then { x with sendAt := x.sendAt.map (· + n) } else x } }

/-- What falls due for the exchanges as time passes. -/
def exchangesDue (s : State) : List Activity :=
  (s.fabric.exchanges.map fun x =>
    let a : EvArgs := { die := x.die, launch := x.launch, idx := x.inst, off := x.exch }
    match launchById s x.launch with
    | none => []
    | some l =>
      (match x.recvAt with
       | some t => if t + l.cto ≤ s.cycle.toNat ∧ x.failed = 0 ∧ (incomingList x).isNone then
           [Activity.event .carryTimeout a] else []
       | none => []) ++
      (match x.sendAt with
       | some t => if t + l.cto ≤ s.cycle.toNat ∧ x.sent = 1 then [Activity.event .csendPortTimeout a] else []
       | none => [])).flatten

end Sys2Proof.Machine
end

