-- ==== Sys2Proof/Machine/System.lean ====
section
/-!
DEFINITION. Machine/System.lean: system registers, traps, launching, partitions, shoot-downs, suspend and debug
(R237 to R244, R250 to R257).
-/
namespace Sys2Proof.Machine

/-! ### Shoot-downs (R253, R341, R347) -/

/-- Removes the combined entries that a test selects, and unpins the lines whose page another test selects (R347). A walk
reads its tables through the second stage too (R339), and a cache may drop any entry, so a test may select more entries
than the change reaches; it selects no pin beyond it. -/
def shootDown (s : State) (p : TlbEntry → Bool) (q : Pin → Bool) : State :=
  { s with xlat := { s.xlat with tlb := s.xlat.tlb.filter fun e => !p e
                                 pins := s.xlat.pins.filter fun x => !q x } }

/-- Every combined entry of a tenant at a stage: FSG or SSG advances (R340). -/
def shootTenant (s : State) (tenant : Nat) (first second : Bool) : State :=
  let bump (on : Bool) (m : Sp 16) : Sp 16 := if on then spSet m tenant (spGet m tenant + 1) else m
  let s1 := shootDown s (fun e => decide (e.tenant = tenant)) fun x => decide (x.tenant = tenant)
  { s1 with xlat := { s1.xlat with fsg := bump first s1.xlat.fsg, ssg := bump second s1.xlat.ssg } }

/-- The entries and pins of a tenant that lie in the 2 MiB around an address at one stage: at the first, of object `obj` and
of every other that shares the page (R331, R341), and with `both` what the second stage maps there; at the second, what has
that guest-physical address, and the entries whose walk may have read a table there. -/
def shootPage (s : State) (tenant obj a : Nat) (first both : Bool) : State :=
  let same (x y : Nat) : Bool := decide (x / 2 ^ 21 = y / 2 ^ 21)
  let gpas : List Nat :=
    if both then (hbmOf? s tenant a).toList ++ ((s.xlat.tlb.filter fun e => decide (e.tenant = tenant) && same e.va a).map (·.gpa))
    else if first then [] else [a]
  let mine (x : Pin) : Bool := decide (x.tenant = tenant) &&
    ((first && same x.va a && (decide (x.obj = obj) || x.paged)) || gpas.any (same x.gpa))
  shootDown s (fun e => decide (e.tenant = tenant) && (!first || both || same e.va a)) mine

/-! ### Debug stops (R256, R257) -/

/-- Every stream stops; a deferred operation fault is reported at this stop. -/
def debugStop (c : Crew) : Crew :=
  { c with ctl := { c.ctl with dbgstat := setBit c.ctl.dbgstat 1 true, stepping := 0, deferSeen := c.ctl.dbgstat.getLsbD 11 } }

/-- The streams run; a deferred fault that has been reported is cleared. -/
def debugRun (c : Crew) : Crew :=
  let d := setBit c.ctl.dbgstat 1 false
  { c with ctl := { c.ctl with dbgstat := if c.ctl.deferSeen then setFld (setBit d 11 false) 12 8 0 else d
                               stepping := 0, deferSeen := false } }

/-- A write of DBGCTL. -/
def dbgWrite (c : Crew) (v : Word) : Crew :=
  let c1 := { c with ctl := { c.ctl with dbgctl := v &&& 0xFD#64 } }
  if v.getLsbD 2 then debugStop c1
  else if v.getLsbD 3 then
    (if 5 ≤ fld v 5 3 then debugStop c1
     else let c2 := debugRun c1
          { c2 with ctl := { c2.ctl with stepping := 1 } })
  else debugRun c1

/-- DBGCTL_WRITE (operands: core, slot, v): the debugger's write through the management path. -/
def execDbgctlWrite (s : State) : Out :=
  match crewAt s s.ev.core s.ev.slot with
  | none => .next s
  | some c => .next (putCrew s s.ev.core s.ev.slot (dbgWrite c s.ev.v))

/-- SINGLE_STEP_END (operands: core, slot): the stepped stream has retired an instruction and the others stand at a
boundary; every stream is stopped. -/
def execSingleStepEnd (s : State) : Out :=
  match crewAt s s.ev.core s.ev.slot with
  | none => .next s
  | some c => .next (if c.ctl.stepping = 2 then putCrew s s.ev.core s.ev.slot (debugStop c) else s)

/-- DBG: event 0x16 when DBGCTL.EN is set; the crew stops past it. -/
def execDbg (n : BitVec 1) (g : BitVec 4) (i : BitVec 12) (s : State) : Out :=
  guarded s .c n g fun c =>
    if c.ctl.dbgctl.getLsbD 0 then
      let c1 := { c with ctl := { c.ctl with dbgstat := setFld c.ctl.dbgstat 20 12 i.toNat } }
      .next (putCrew s s.cur.core s.cur.slot (debugStop (retire c1 .c 4)))
    else done s c .c 4

/-! ### System registers (R238) -/

/-- Who may use a register: 0 every crew, 1 a handler or system privilege, 2 system privilege. -/
def sysUse (r : Nat) : Option Nat :=
  if r ≤ 5 then some 0
  else if 0x100 ≤ r ∧ r ≤ 0x103 then some 1
  else if r = 0x180 ∨ r = 0x200 ∨ r = 0x201 then some 2
  else none

/-- Whether the crew may name the register at all. -/
def sysOpen (c : Crew) (r : Nat) : Bool :=
  match sysUse r with
  | none => false
  | some 0 => true
  | some 1 => c.trap.inHandler || isPriv c
  | some _ => isPriv c

/-- PREQ: the request, and the cycles left before the deadline. -/
def preqWord (c : Crew) : Nat := if c.ctl.preq then 1 + min c.ctl.deadline 0xFFFF_FFFF * 2 ^ 32 else 0

/-- The value of a system register. -/
def sysRead (c : Crew) (r : Nat) : Word :=
  match r with
  | 0x000 => c.fstat.zeroExtend 64
  | 0x001 => BitVec.ofNat 64 (rstatWord c)
  | 0x002 => BitVec.ofNat 64 (preqWord c)
  | 0x003 => BitVec.ofNat 64 c.slipw
  | 0x004 => if c.demote then 1 else 0
  | 0x005 => BitVec.ofNat 64 (modeBits c)
  | 0x100 => c.trap.tcause
  | 0x101 => c.trap.tpc
  | 0x102 => c.trap.taddr
  | 0x103 => c.trap.tinfo
  | 0x180 => c.ctl.pbres
  | 0x200 => c.ctl.dbgctl
  | 0x201 => c.ctl.dbgstat
  | _ => 0

/-- A write under the register's access codes: W1C of FSTAT and DEMOTE, TCAUSE.SKIP in handler mode, DBGCTL; every other
write is ignored. -/
def sysWrite (c : Crew) (r : Nat) (v : Word) : Crew :=
  match r with
  | 0x000 => { c with fstat := c.fstat &&& ~~~ (v.truncate 6) }
  | 0x004 => { c with demote := c.demote && !v.getLsbD 0 }
  | 0x100 =>
    if c.trap.inHandler then { c with trap := { c.trap with tcause := setBit c.trap.tcause 30 (v.getLsbD 30) } } else c
  | 0x200 => dbgWrite c v
  | _ => c

/-- SRD. -/
def execSrd (n : BitVec 1) (g : BitVec 4) (d : BitVec 5) (r : BitVec 12) (s : State) : Out :=
  onCrew s .c fun c =>
    if !sysOpen c r.toNat then raiseHere s c .c 0x01 0
    else if guard c .c n g then writeDone s c .c d (sysRead c r.toNat) else done s c .c 4

/-- SWR. -/
def execSwr (n : BitVec 1) (g : BitVec 4) (a : BitVec 5) (r : BitVec 12) (s : State) : Out :=
  onCrew s .c fun c =>
    if !sysOpen c r.toNat then raiseHere s c .c 0x01 0
    else if guard c .c n g then .next (putCrew s s.cur.core s.cur.slot (sysWrite (retire c .c 4) r.toNat (sRead c .c a)))
    else done s c .c 4

/-! ### Traps (R239 to R244) -/

/-- TRAP: retires, then raises 0x15 with the next instruction's address. -/
def execTrap (n : BitVec 1) (g : BitVec 4) (i : BitVec 12) (s : State) : Out :=
  guarded s .c n g fun c =>
    let c1 := retire c .c 4
    .next (raise s s.cur.core s.cur.slot c1 { faultInfo c1 .c 0x15 0 with swc := i.toNat })

/-- Tag and length of the instruction at which a stream stopped. -/
def stoppedAt (s : State) (core : Nat) (c : Crew) (e : Eng) : Nat × Nat :=
  match peekWords s core c (strOf c e).pc 1 with
  | some w => (w / 2 ^ 29 % 8, if lenOfTag (w / 2 ^ 29 % 8) = 0 then 4 else lenOfTag (w / 2 ^ 29 % 8))
  | none => (0, 4)

/-- TRAPRET: handler mode ends. A skipped X instruction of C retires as not taken in every stream, and waits, as any does,
while an outcome FIFO is full (R262). -/
def execTrapret (n : BitVec 1) (g : BitVec 4) (s : State) : Out :=
  onCrew s .c fun c =>
    if !c.trap.inHandler then raiseHere s c .c 0x01 0
    else if !guard c .c n g then done s c .c 4
    else
      let e := engOfCode (fld c.trap.tcause 8 3)
      let (tag, len) := stoppedAt s s.cur.core c e
      let skips := c.trap.tcause.getLsbD 30 && decide (fld c.trap.tcause 0 8 ≠ 0x15)
      let entry := skips && decide (e = .c) && decide (tag = 5)
      if entry && fifoFull c jointEngs then wait s c .c 4
      else
      let c1 := if entry then countJoint (fifoPush c jointEngs (jointEntry c.strC.pc false)) .c else c
      .next (putCrew s s.cur.core s.cur.slot (noteStep (trapReturn c1 len) .c))

/-- The causes of a mask. -/
def maskCauses (m : Nat) : List Nat := (List.range 32).filter fun i => m.testBit i

/-- C's instruction looks up an object: behind an absent page of the second stage C is held, as at any page fault (R339);
otherwise the lookup ends as the instruction says. -/
def missOr (s : State) (c : Crew) (obj off : Nat) (f : XFail) (otherwise : Out) : Out :=
  if f.cause = 0x06 then .next (holdStream s s.cur.core s.cur.slot c .c f .load obj off) else otherwise

/-- TRAPINSTALL. -/
def execTrapinstall (n : BitVec 1) (g : BitVec 4) (a b : BitVec 5) (s : State) : Out :=
  privileged s n g fun c =>
    let x := sRead c .c a
    let y := sRead c .c b
    let text := fld x 0 24
    let entry := fld x 24 40
    let causes := maskCauses (fld y 0 32)
    let data := fld y 32 24
    let objs := (if text = 0 then [] else [(text, rightX)]) ++ (if data = 0 then [] else [(data, rightR + rightW)])
    let found : Except XFail (List (ObjEnt × Nat)) := objs.mapM fun o => (lookupObj s c.tenant o.1).map fun e => (e, o.2)
    if fld y 56 8 ≠ 0 ∨ entry % 4 ≠ 0 ∨ causes.any (fun i => !handleable i) = true then raiseHere s c .c 0x01 0
    else match found with
    | .error f => missOr s c text 0 f (raiseHere s c .c 0x05 0)
    | .ok es =>
      if es.any fun e => !hasRights e.1.rights e.2 then raiseHere s c .c 0x04 0
      else if es.any fun e => e.1.paged then raiseHere s c .c 0x19 0
      else
        let kept := s.xlat.handlers.filter fun h => !(decide (h.tenant = c.tenant) && causes.contains h.cause)
        let new := if text = 0 then []
          else causes.map fun i => { tenant := c.tenant, cause := i, text := text, entry := entry, data := data : Handler }
        done { s with xlat := { s.xlat with handlers := kept ++ new } } c .c 4

/-! ### LAUNCH (R250) -/

/-- LAUNCH. -/
def execLaunch (n : BitVec 1) (g : BitVec 4) (a b : BitVec 5) (s : State) : Out :=
  privileged s n g fun c =>
    let x := sRead c .c a
    let y := sRead c .c b
    let obj := fld x 0 24
    let off := fld x 24 40
    let q := fld y 0 6
    if fld y 6 58 ≠ 0 ∨ off % 64 ≠ 0 then raiseHere s c .c 0x01 0
    else match lookupObj s c.tenant obj with
    | .error f => missOr s c obj off f (raiseHere s c .c 0x05 0)
    | .ok e =>
      if e.paged then raiseHere s c .c 0x05 0
      else if e.size < off + 512 then raiseHere s c .c 0x03 off
      else if fld (regGet s 0 (rLQCFG q)) 8 8 ≠ c.tenant then raiseHere s c .c 0x04 0
      else if decide (32 ≤ queueLoad s q) || s.host.cloveError then wait s c .c 0
      else match extentRows s c.tenant obj off 8 with
      | none =>
        (match [off, off + 448].findSome? (extentMiss s c.tenant obj) with
         | some f => missOr s c obj off f (wait s c .c 0)
         | none => wait s c .c 0)
      | some rows =>
        done (submit s { fn := fnOf s c.tenant, clove := false, queue := q, obj := obj, off := off, image := imageOf rows }) c .c 4

/-! ### Partitions (R251, R252, R394, R397) -/

/-- Crews resident on a quarter. -/
def crewsIn (s : State) (q : Nat) : List (Nat × Crew) := s.crews.filter fun p => decide (quarterOf (p.1 / 2) = q)

/-- Raises PREQ in the resident crews that a test selects. -/
def raiseAll (s : State) (deadline : Nat) (p : Nat → Bool) : State :=
  { s with crews := s.crews.map fun x => (x.1, if p x.1 then raisePreq deadline 0 x.2 else x.2) }

/-- PQUIESCE. -/
def execPquiesce (n : BitVec 1) (g : BitVec 4) (a : BitVec 5) (s : State) : Out :=
  privileged s n g fun c =>
    let x := sRead c .c a
    if fld x 5 59 ≠ 0 then raiseHere s c .c 0x01 0
    else
      let qs : BitVec 4 := x.truncate 4
      let s1 := putCrew s s.cur.core s.cur.slot (retire c .c 4)
      if x.getLsbD 4 then
        let s2 := raiseAll s1 tenantDeadline fun k => qs.getLsbD (quarterOf (k / 2))
        .next { s2 with sched := { s2.sched with quiesce := s2.sched.quiesce ||| qs } }
      else .next { s1 with sched := { s1.sched with quiesce := s1.sched.quiesce &&& ~~~ qs } }

/-- Launch queues that hold a record placeable on a quarter. -/
def queuesFor (s : State) (q : Nat) : Nat :=
  ((List.range 64).filter fun i =>
    (queueMask s i).testBit q &&
      s.sched.queued.any fun p => decide (p.1 = i) &&
        (match launchById s p.2 with
         | some l => decide (l.tenant = 0) || (fnPart s (fnOf s l.tenant)).testBit q
         | none => false)).length

/-- The report of PSTATUS. -/
def pstatusWord (s : State) (q : Nat) : Nat :=
  let nq := queuesFor s q
  let nc := (crewsIn s q).length
  nq % 2 ^ 16 * 2 ^ 16 + nc % 2 ^ 8 * 2 ^ 8 + (if s.sched.quiesce.getLsbD q then 4 else 0) + (if nq = 0 then 2 else 0) +
    (if nc = 0 then 1 else 0)

/-- PSTATUS. -/
def execPstatus (n : BitVec 1) (g : BitVec 4) (d a : BitVec 5) (s : State) : Out :=
  privileged s n g fun c =>
    let x := sRead c .c a
    if fld x 2 62 ≠ 0 then raiseHere s c .c 0x01 0
    else writeDone s c .c d (BitVec.ofNat 64 (pstatusWord s (fld x 0 2)))

/-- The masks that make a hard partition. -/
def partMask (m : Nat) : Bool := [1, 2, 4, 8, 3, 12, 15].contains m

/-- PMASK of a quarter. -/
def pmaskOf (s : State) (q : Nat) : Nat := fld (regGet s 0 (rMEMIL q)) 0 4

/-- Quarters that a rewrite to a mask affects. -/
def affected (s : State) (mask : Nat) : List Nat :=
  (List.range 4).filter fun q => mask.testBit q || (List.range 4).any fun r => mask.testBit r && (pmaskOf s q).testBit r

/-- Zeroes the Commons of a die. -/
def zeroCommons (s : State) (die : Nat) : State := zeroKeys s (commonsKey die 0) (2 ^ 25)

/-- A type 11 record: the unit and the new shape hash of the partition that holds a die (R418, R423). -/
def retiredRecord (s : State) (kind loc die : Nat) : Nat :=
  errRow s 11 0 (put kind 2 1 + put loc 8 8 + put (leNat (shapeHash s (pmaskOf s (die / 2)))) 16 16) none

/-- Retires an L2 slice: the die's Commons share is zeroed, and the slice is no longer present (R423). -/
def retireSlice (s : State) (die slice : Nat) : State :=
  let off := if slice < 64 then rPRESSLICE die else rPRESSLICEH die
  let s1 := zeroCommons s die
  let s2 := if die < 8 ∧ slice < 128 then regSet s1 0 off (setBit (regGet s1 0 off) (slice % 64) false) else s1
  { s2 with host := { s2.host with retiring := s2.host.retiring.filter fun p => !decide (p = (die, slice)) } }

/-- The registers of one affected quarter after a rewrite; RETCFG loses V where the interleave changes. DESIGN CHOICE (log 112): an
affected quarter outside PBOUND's mask becomes a partition of its own with its granule kept, since R252 gives none. -/
def rewriteQuarter (mask gran : Nat) (s : State) (q : Nat) : State :=
  let old := regGet s 0 (rMEMIL q)
  let new : Word := if mask.testBit q then BitVec.ofNat 64 (gran * 16 + mask) else BitVec.ofNat 64 (fld old 4 2 * 16 + 2 ^ q)
  let s1 := regSet s 0 (rMEMIL q) new
  let s2 := [2 * q, 2 * q + 1].foldl (fun s d => regSet s 0 (rRSBND (stopOf d)) (BitVec.ofNat 64 (fld new 0 4))) s1
  if new = old then s2 else regSet s2 0 (rRETCFG q) (setBit (regGet s2 0 (rRETCFG q)) 63 false)

/-- Whether RETCFG of a quarter is valid: enough frames, every block owned by tenant 0 and on a stack of the quarter. -/
def retJudge (s : State) (q : Nat) : Bool :=
  let r := regGet s 0 (rRETCFG q)
  let n := fld r 40 16
  let base := fld r 14 26 * 16384
  r.getLsbD 63 && decide (24576 ≤ n) && (List.range (4 * n)).all fun i =>
    match blockOf s (base + 4096 * i) with
    | some (st, b) =>
      let f := frameRec s st b
      decide (fld f 0 2 = 1) && decide (fld f 8 8 = 0) && decide (st / 3 = q)
    | none => false

/-- A slice that waits for it is retired, with its record to the physical function. -/
def retireDue (s : State) (p : Nat × Nat) : State :=
  let s1 := retireSlice s p.1 p.2
  eqPost s1 0 [retiredRecord s1 2 p.2 p.1]

/-- Judges the RETCFG of every quarter of a list. -/
def judgeRet (s : State) (qs : List Nat) : State :=
  { s with host := { s.host with retValid := qs.foldl (fun v q => setBit v q (retJudge s q)) s.host.retValid } }

/-- The rewrite in one step: registers, entries of affected quarters, slices that wait to be retired there. -/
def rewriteParts (s : State) (mask gran : Nat) : State :=
  let qs := affected s mask
  let s1 := shootDown s (fun e => decide (e.tgt = 0) && qs.contains (e.frame / 0x30_0000_0000)) fun x =>
    qs.contains (128 * x.line / 2 ^ 36 / 3)
  let s2 := qs.foldl (rewriteQuarter mask gran) s1
  judgeRet ((s2.host.retiring.filter fun p => qs.contains (p.1 / 2)).foldl retireDue s2) (List.range 4)

/-- PBRES of a refusal: why, and the quarter; none where the rewrite may take place. -/
def pboundRefusal (s : State) (core mask : Nat) : Option (Nat × Nat) :=
  let qs := affected s mask
  if qs.contains (quarterOf core) then some (3, quarterOf core)
  else match qs.find? fun q => decide ((crewsIn s q).length ≠ 0) with
  | some q => some (1, q)
  | none =>
    match qs.find? fun q => decide (queuesFor s q ≠ 0) with
    | some q => some (2, q)
    | none => none

/-- PBOUND. -/
def execPbound (n : BitVec 1) (g : BitVec 4) (a b : BitVec 5) (s : State) : Out :=
  privileged s n g fun c =>
    let x := sRead c .c a
    let y := sRead c .c b
    let mask := fld x 0 4
    if fld x 4 60 ≠ 0 ∨ partMask mask = false ∨ fld y 2 62 ≠ 0 ∨ fld y 0 2 = 3 then raiseHere s c .c 0x01 0
    else match pboundRefusal s s.cur.core mask with
    | some (why, q) => done s { c with ctl := { c.ctl with pbres := BitVec.ofNat 64 (q * 256 + why * 16 + 2) } } .c 4
    | none => done (rewriteParts s mask (fld y 0 2)) { c with ctl := { c.ctl with pbres := 1 } } .c 4

/-- TLBSHOOT: a release at device scope, then the shoot-down. -/
def execTlbshoot (n : BitVec 1) (g : BitVec 4) (a b : BitVec 5) (sub : BitVec 2) (s : State) : Out :=
  privileged s n g fun c =>
    let x := sRead c .c a
    let y := sRead c .c b
    let whole := y.getLsbD 63
    let tenant := fld y 0 8
    let first := decide (sub ≠ 1)
    let second := decide (sub ≠ 0)
    if sub = 3 ∨ fld y 32 31 ≠ 0 ∨ fld x 48 16 ≠ 0 ∨ (whole = true ∧ x ≠ 0) then raiseHere s c .c 0x01 0
    else match releaseReady s s.cur.core s.cur.slot c with
    | none => wait s c .c 6
    | some s1 =>
      if whole then done (shootTenant s1 tenant first second) c .c 4
      else done (shootPage s1 tenant (fld y 8 24) (fld x 0 48) first (first && second)) c .c 4

/-! ### SUSPEND (R254, R435, R437) -/

/-- A device suspend starts: no crew is placed, and PREQ rises in every crew but the issuer. -/
def beginSuspend (s : State) (issuer : Option (Nat × Nat)) (deadline : Nat) : State :=
  let mine (k : Nat) : Bool := match issuer with | some (c, sl) => decide (k = 2 * c + sl) | none => false
  let s1 := raiseAll s deadline fun k => !mine k
  let s2 := match issuer with
    | some (c, sl) =>
      (match crewAt s1 c sl with
       | some x => putCrew s1 c sl { x with ctl := { x.ctl with noDeadline := true } }
       | none => s1)
    | none => s1
  { s2 with power := .suspending 0 issuer }

/-- SUSPEND. -/
def execSuspend (n : BitVec 1) (g : BitVec 4) (a : BitVec 5) (s : State) : Out :=
  privileged s n g fun c =>
    let x := sRead c .c a
    let core := s.cur.core
    let slot := s.cur.slot
    if fld x 16 48 ≠ 0 then raiseHere s c .c 0x01 0
    else match s.power with
    | .suspending _ (some (c0, sl0)) =>
      if c0 = core ∧ sl0 = slot then
        (if s.crews.all (fun p => decide (p.1 = 2 * core + slot)) && saveReady s core slot c then
           .next (saveCrew (putCrew s core slot (retire c .c 4)) core slot 5 0 none)
         else wait s c .c 0)
      else done s c .c 4
    | .suspending _ none => done s c .c 4
    | _ =>
      let d := fld x 0 16
      let s1 := beginSuspend s (some (core, slot)) (if d = 0 then tenantDeadline else 1024 * d)
      match crewAt s1 core slot with
      | none => .next s1
      | some c1 => wait s1 c1 .c 0

end Sys2Proof.Machine
end

