-- ==== Sys2Proof/Machine/Fabric.lean ====
section
/-!
DEFINITION. Machine/Fabric.lean: messages on the package ring and the rack rings (R373 to R386): receiving, refusing,
retrying, answering, voiding, and the requests of other devices performed here.
-/
namespace Sys2Proof.Machine

/-! ### Failures of a request (R153, R382) -/

/-- What waits for an answered request falls due. -/
def wakeWaiter (s : State) (m : FabMsg) : State :=
  let at_ (i : Instr) (n : Nat) : State :=
    { s with agenda := s.agenda ++ [.event i { core := m.core, slot := m.slot, idx := n }] }
  if m.waiter = 2 then at_ .loadDataReturn m.id
  else if m.waiter = 4 then
    { s with agenda := s.agenda ++
        [.event (if m.slot = 0 then .hostCopyToDevice else .hostCopyToHost) { fn := m.core - 2 ^ 16, idx := m.widx, flag := true }] }
  else if m.waiter = 3 then (if m.op = 0x5C then at_ .completionIncrement m.widx else at_ .copyRow m.widx)
  else s

/-- Counts a message that a stop or station discards. -/
def countDrop (s : State) : State := { s with fabric := { s.fabric with dropped := s.fabric.dropped + 1 } }

/-- A request fails: a posted form makes its record and is gone; whoever waits finds the cause. Of a draining identifier
it is dropped and counted (R386). A group operation makes one record for each member that has not answered (R384). -/
def failMsg (s : State) (m : FabMsg) (cause : Nat) : State :=
  if s.fabric.draining.contains m.cid then dropMsg (countDrop s) m.id
  else if m.waiter = 5 then dropMsg s m.id
  else if m.waiter = 0 then
    (if m.peer.testBit 62 then m.members.foldl (fun s d => failRecord s { m with peer := d } cause) (dropMsg s m.id)
     else failRecord (dropMsg s m.id) m cause)
  else wakeWaiter (updMsg s { m with phase := 3, cause := cause }) m

/-! ### Requests performed at their destination (R336, R384, R413) -/

/-- The access a request makes at its owner. -/
def inboundKind (m : FabMsg) : AccKind :=
  let sig := decide (m.cls = 2)
  match m.op % 256 with
  | 0x45 => kKld
  | 0x26 => kLdq
  | 0x5A => kCopyR
  | 0x4C => if sig then kStoreSig else kStore
  | 0x46 => kKst
  | 0x28 => kStq
  | 0x5B => if m.op.testBit 18 then kRingCopy else kCopyW
  | 0x50 => kAtom (m.op.testBit 16)
  | 0x51 => kRed (m.op.testBit 16)
  | 0x5C => kCount
  | 0xF2 => kFetch
  | 0x29 => kWait
  | x => if 0x52 ≤ x ∧ x ≤ 0x59 then kRing else kLoad

/-- What a request's performance gives: the data that goes back, or the cause with which it fails. -/
abbrev Performed := State × Except Nat Payload

/-- A write of a row that comes over a link: one that is marked stays poisoned (R421). -/
def landUnit (s : State) (key n x : Nat) (marked : Bool) : State :=
  if marked then poisonKey (writeUnit s key n x) key else writeUnit s key n x

/-- A row of a copy at its destination: written, into the ring row that it names where the copy claims slots, and counted
at its barrier (R149). -/
def landRow (s : State) (m : FabMsg) (a : Acc) : Performed :=
  let row := m.cmp.toNat / 2 ^ 16
  let key : Option Nat :=
    if m.op.testBit 18 then
      (match asGet s.crews a.slotKey with
       | some c => if rowFormOk c row then some (rowFormKey (a.slotKey / 2) c row) else none
       | none => none)
    else some a.key
  match key with
  | none => (s, .error 0x03)
  | some k =>
    let s1 := doneReachedRow (landUnit s k m.size m.data.row.toNat m.marked) k m.size
    if m.op.testBit 17 then
      (match countArrival s1 a.slotKey (m.cmp.toNat % 2 ^ 15) with
       | some s2 => (s2, .ok (.raw 0))
       | none => (s1, .error 0x03))
    else (s1, .ok (.raw 0))

/-- The effect of a request at a translated place, and what it returns. -/
def requestEffect (s : State) (m : FabMsg) (a : Acc) : Performed :=
  let n := m.size
  let old := readUnit s a.key n
  let x := m.data.row.toNat
  let o := m.op / 256 % 256
  let wake (sig : Bool) (s : State) : State := if sig then wakeRow s (a.key / 64) else s
  let nothing : Payload := .raw 0
  match m.op % 256 with
  | 0x4C => (wake (decide (m.cls = 2)) (doneReachedRow (writeUnit s a.key n x) a.key n), .ok nothing)
  | 0x46 => (doneReachedRow (writeUnit s a.key n x) a.key n, .ok nothing)
  | 0x28 => (doneReachedRow (landUnit s a.key n x m.marked) a.key n, .ok nothing)
  | 0x5B => landRow s m a
  | 0x29 =>
    -- a wait: ready, or registered in the table of the unit that owns the row, or not for want of an entry (R142, R143)
    if waitReady (decide (o = 1)) n old x then (s, .ok (.raw (BitVec.ofNat 512 old)))
    else
      let un := monitorUnit s a
      if 64 ≤ (s.monitors.filter fun y => decide (y.unit = un)).length then (s, .ok (.raw (BitVec.ofNat 512 (2 * 2 ^ 64))))
      else
        let y : Monitor := { unit := un, row := a.key / 64, core := m.core, slot := m.slot, dev := if m.inbound then some m.from_ else none }
        ({ s with monitors := s.monitors ++ [y] }, .ok (.raw (BitVec.ofNat 512 (2 ^ 64))))
  | 0x50 => (wake (m.op.testBit 16) (doneReached (applyUpdate s a.key n o x m.cmp.toNat) a.key), .ok (payloadOf n old))
  | 0x51 => (wake (m.op.testBit 16) (doneReached (applyUpdate s a.key n o x 0) a.key), .ok nothing)
  | 0x5C =>
    (doneReached (wake true (writeUnit s a.key 8 (countUp old (x % 2 ^ 63) (decide (2 ^ 63 ≤ x % 2 ^ 64))))) a.key, .ok nothing)
  | k =>
    if 0x52 ≤ k ∧ k ≤ 0x59 then
      let (s1, r) := bankApply s k a.key n x
      (s1, .ok (.raw (bankReply r)))
    else (s, .ok (payloadOf n old))

/-- A request at the place its access reaches: refused where that is no memory of this device (R336), 0x18 where the data it
returns is poisoned, its effect otherwise. -/
def performAt (s : State) (m : FabMsg) (k : AccKind) (a : Acc) (here : Bool) : Performed :=
  if !here then (s, .error 0x07)
  else if (k.returns || decide (k.form = .ring)) && isPoisoned s a.key then (s, .error 0x18)
  else requestEffect s m a

/-- Whether a table (the lowest step below which all are performed, and the window from it on) shows a step as performed. -/
def tableHas (low : Nat) (window : Word) (step : Nat) : Bool :=
  let d := (step + 2 ^ 32 - low) % 2 ^ 32
  decide (2 ^ 31 ≤ d) || window.getLsbD d

/-- The steps of a source that are performed here, as the table of a group has them; none yet, where it names no such source. -/
def stepTable (g : Group) (dev : Nat) : Nat × Word :=
  ((g.performed.find? fun p => decide (p.1 = dev)).map (·.2)).getD (0, 0)

/-- Whether a group operation has been performed here already (R438). -/
def stepDone (s : State) (m : FabMsg) : Bool :=
  match groupOfPeer s m.peer with
  | some g => tableHas (stepTable g m.from_).1 (stepTable g m.from_).2 m.step
  | none => false

/-- The window moves on over the steps that are performed. -/
def slideSteps : Nat → Nat → Word → Nat × Word
  | 0, low, w => (low, w)
  | n + 1, low, w => if w.getLsbD 0 then slideSteps n ((low + 1) % 2 ^ 32) (w >>> 1) else (low, w)

/-- A table with one more step performed. DESIGN CHOICE (log 114): a step more than 64 above the lowest unfinished one moves the
window up to it, and the unfinished ones below count as performed. -/
def tableWith (low : Nat) (w : Word) (step : Nat) : Nat × Word :=
  let d := (step + 2 ^ 32 - low) % 2 ^ 32
  if 2 ^ 31 ≤ d then (low, w)
  else if d < 64 then slideSteps 64 low (setBit w d true)
  else slideSteps 64 ((low + (d - 63)) % 2 ^ 32) (setBit (w >>> (d - 63)) 63 true)

/-- Notes a group operation as performed, with the last of its rows (R438). -/
def noteGroupStep (s : State) (m : FabMsg) : State :=
  match groupOfPeer s m.peer with
  | some g =>
    if !m.last then s
    else
      let t := stepTable g m.from_
      setGroup s { g with performed := g.performed.filter (fun p => decide (p.1 ≠ m.from_)) ++ [(m.from_, tableWith t.1 t.2 m.step)] }
  | none => s

/-- Performs a request of another device, which a bridge station of a Yarrow die brings in and which reaches every partition
(R396), under the owner's own tables, and holds its answer; an absent page holds it. A
tenant that has been torn down has no object any more (R410). -/
def performInbound (s : State) (m : FabMsg) : State :=
  let tenant := m.cid / 256
  let answer (s : State) (phase cause : Nat) (r : Payload) : State :=
    updMsg s { m with phase := phase, cause := cause, reply := r }
  if !hasFn s tenant then answer (countDrop s) 3 0x05 (.raw 0)
  else if stepDone s m then answer s 2 0 (.raw 0)
  else if fnState s (fnOf s tenant) = 3 then answer s 3 0x11 (.raw 0)
  else
    let k := inboundKind m
    match portAccess s (agentDie s tenant) tenant 4 m.obj (some m.gen) m.off k true with
    | (s1, .error f) =>
      if f.cause = 0x06 then
        (match openFault s1 tenant f k.form m.obj m.off with
         | (s2, some tag) => updMsg s2 { m with widx := tag }
         | (s2, none) => answer s2 3 0x11 (.raw 0))
      else answer (translationRecord s1 tenant m.obj m.off f) 3 (if f.cause = 0x05 then 0x05 else 0x07) (.raw 0)
    | (s1, .ok a) =>
      match performAt s1 m k a (!(decide (a.tgt = 4) || decide (a.tgt = 10))) with
      | (s2, .ok r) => answer (noteGroupStep s2 m) 2 0 r
      | (s2, .error cause) => answer s2 3 cause (.raw 0)

/-- The answer to a request of this device: a posted form is gone, or reported where it failed; whoever waits finds it. -/
def answerMsg (s : State) (m : FabMsg) : Except Nat Payload → State
  | .error cause => failMsg s m cause
  | .ok r => if m.waiter = 0 ∨ m.waiter = 5 then dropMsg s m.id else wakeWaiter (updMsg s { m with phase := 2, reply := r }) m

/-- A request whose place has changed goes on to the new one: to another core's bank units, or to another device. -/
def redirect (s : State) (m : FabMsg) (a : Acc) : State :=
  updMsg s { m with acc := some a, peer := a.peer, obj := a.robj, off := a.roff, dst := (msgTarget s a).1, unit := (msgTarget s a).2,
                    phase := 0, due := 0, expires := none }

/-- A request to a peer core's bank units is performed when they take it, once, and its acknowledgement returns (R374, R375). It
reaches the place that it was translated to (R341, R342); where the crew it was for has left its slot it is translated again, and
reaches that place whole (R347). An absent page leaves it there until the page is resolved. -/
def performHere (s : State) (m : FabMsg) : State :=
  let tenant := m.cid / 256
  let k := inboundKind m
  match m.acc with
  | some a =>
    let (s2, r) := performAt s m k a true
    answerMsg s2 m r
  | none =>
  match portAccess s (dieOf (m.unit - 16)) tenant 4 m.obj (some m.gen) m.off k with
  | (s1, .error f) =>
    if f.cause = 0x06 then
      (match openFault s1 tenant f k.form m.obj m.off with
       | (s2, some tag) => updMsg s2 { m with due := tag + 1 }
       | (s2, none) => failMsg s2 m 0x06)
    else failMsg (translationRecord s1 tenant m.obj m.off f) m f.cause
  | (s1, .ok a) =>
    if a.tgt = 4 ∨ (a.tgt = 2 ∧ m.unit ≠ 16 + a.slotKey / 2) then redirect s1 m a
    else
      let (s2, r) := performAt s1 m k a (decide (a.tgt ≠ 10))
      answerMsg s2 m r

/-- The live move whose source this device is, for an identifier whose stub stands (R414). -/
def stubFor (s : State) (cid : Nat) : Option Move :=
  s.host.moves.find? fun v => !v.target && v.stubs.contains cid

/-! ### Receiving (R375, R378, R386) -/

/-- STATO in cycles. -/
def statoCycles (s : State) : Nat := max (fld (regGet s 0 rSTATO) 0 16) 16 * 2100

/-- FABPOL of a tenant. -/
def retryLimit (s : State) (tenant : Nat) : Nat := fld (regGet s (fnOf s tenant) rFABPOL) 16 4
/-- Cycles before retry k: BACKOFF · 2^k ring cycles of 0.8 ns. -/
def backoffCycles (s : State) (tenant k : Nat) : Nat := (fld (regGet s (fnOf s tenant) rFABPOL) 8 8 * 2 ^ k * 168 + 99) / 100

/-- An identifier that stops and stations discard: draining, of no function, or of a generation that is not current (R386,
R399). -/
def cidDead (s : State) (cid : Nat) : Bool :=
  s.fabric.draining.contains cid || !hasFn s (cid / 256) || decide (cidOf s (cid / 256) ≠ cid)

/-- A group packet whose identifier bears a generation that is not current, or that comes from a member that has been
withdrawn (R384, R385). -/
def groupStale (s : State) (m : FabMsg) : Bool :=
  m.peer.testBit 62 &&
    !(s.fabric.groups.any fun g => decide (g.num = bitsOf m.peer 4 12) && decide (g.gen = bitsOf m.peer 0 4) && g.live &&
      !g.withdrawn && !(m.inbound && g.gone.contains m.from_))

/-- Responses and error messages always drain (R375, R380). -/
def mayRefuse (m : FabMsg) : Bool := decide (m.cls ≠ 1) && decide (m.cls ≠ 4)

/-- The link of a message has damaged it: the link sends it again; after 64 times in a row the link is down, and a message to
a bridge station takes another one (R34, R421, R423). -/
def resendMsg (s : State) (m : FabMsg) : State :=
  if m.resends < 64 then updMsg s { m with resends := m.resends + 1 }
  else if m.onPackage then
    -- the message comes round the ring the other way
    (if s.fabric.ringDown.contains m.dst then updMsg s { m with resends := 0 }
     else downLink (updMsg s { m with resends := 0 }) (32 + m.dst) (dieOf (m.unit - 16)))
  else
    let s1 := downLink s (16 + m.unit) 0
    let st := stationFor s1 (m.peer % 2 ^ 16) (m.off / 16384)
    updMsg s1 { m with resends := 0, unit := st, dst := stationStop st }

/-! ### Members of groups (R383 to R385, R438) -/

/-- Operation codes of the notices that members exchange: one enters retention; one returns, with its step table; one has been
withdrawn. -/
def opRests : Nat := 0x1F0
def opReturns : Nat := 0x1F1
def opWithdrawn : Nat := 0x1F2
def isNotice (m : FabMsg) : Bool := [opRests, opReturns, opWithdrawn, opWake, opUnwatch].contains m.op

/-- Identifier of a group. -/
def groupId (g : Group) : Nat := g.num * 16 + g.gen

/-- The answer of one member to a group operation: it is done when no member is left; a failure is reported for the member, and
waits for the others (R384). -/
def memberAnswer (s : State) (m : FabMsg) (dev cause : Nat) : State :=
  let m1 := { m with members := m.members.filter (· ≠ dev), cause := if cause ≠ 0 then cause else m.cause }
  let s1 := if cause ≠ 0 ∧ m.waiter = 0 then failRecord s { m with peer := dev } cause else s
  if !m1.members.isEmpty then updMsg s1 m1
  else if m1.waiter = 0 ∨ m1.waiter = 5 then dropMsg s1 m1.id
  else if m1.cause ≠ 0 then failMsg s1 m1 m1.cause
  else wakeWaiter (updMsg s1 { m1 with phase := 2 }) m1

/-- What a member has answered to a group operation that awaits it, wherever it has been sent again. -/
def stepAnswered (s : State) (peer step dev cause : Nat) : State :=
  (s.fabric.msgs.filter fun m => !m.inbound && decide (m.peer = peer) && decide (m.step = step) && m.members.contains dev).foldl
    (fun s m => memberAnswer s m dev cause) s

/-- A message that a receiving point has no buffer for: round the ring once more, then a NACK to its source. The source waits
and retries, or the request fails when its retries are spent (R376): this device is the source of the copy of a group operation
that is for its own member. -/
def refuseMsg (s : State) (m : FabMsg) : State :=
  if m.refused = 0 then updMsg s { m with refused := 1 }
  else if m.inbound ∧ m.from_ ≠ Config.deviceNumber then dropMsg s m.id
  else if retryLimit s (m.cid / 256) ≤ m.retries then (if m.inbound then stepAnswered (dropMsg s m.id) m.peer m.step Config.deviceNumber 0x11 else failMsg s { m with refused := 0 } 0x11)
  else updMsg s { m with refused := 0, phase := 1, due := s.cycle.toNat + backoffCycles s (m.cid / 256) m.retries }

/-- A member leaves a group. The local function's own withdrawal drops the group's packets here; any other member's is
reported to the local one: its completion object rises with ERR, a record names the device, and no operation waits for it. -/
def withdrawMember (s : State) (g : Group) (dev : Nat) : State :=
  if dev = Config.deviceNumber then
    let s1 := setGroup s { g with withdrawn := true }
    let mine (m : FabMsg) : Bool := m.peer.testBit 62 && decide (bitsOf m.peer 4 12 = g.num)
    let gone := (s1.fabric.msgs.filter mine).length
    { s1 with fabric := { s1.fabric with msgs := s1.fabric.msgs.filter (fun m => !mine m), dropped := s1.fabric.dropped + gone } }
  else
    let i := g.members.findIdx fun d => decide (d = dev)
    let s1 := setGroup s { g with members := delNth g.members i, dones := delNth g.dones i, resting := g.resting.filter (· ≠ dev)
                                  kept := g.kept.filter (fun k => decide (k.1 ≠ dev)), gone := g.gone ++ [dev] }
    let s2 := (s1.fabric.msgs.filter fun m => !m.inbound && m.peer.testBit 62 && decide (bitsOf m.peer 4 12 = g.num) &&
      m.members.contains dev).foldl (fun s m => memberAnswer s m dev 0) s1
    let me := g.members.findIdx fun d => decide (d = Config.deviceNumber)
    match g.dones[me]? with
    | some w =>
      if g.withdrawn then s2
      else tenantError (doneIncrement s2 g.tenant w 1 true) g.tenant [errRow s2 2 0 (put (groupId g) 2 2 + put dev 16 2) none]
    | none => s2

/-- A resume's collective exchange is over once no member of a live group is still to come back (R436). -/
def endExchange (s : State) : State :=
  if s.fabric.groups.any fun g => g.live && !g.withdrawn && !g.resting.isEmpty then s
  else { s with host := { s.host with exchange := false } }

/-- Sends this device's table for a source to that member of a group (R438): nobody waits for its answer, and it has no step
number. -/
def sendTable (s : State) (g : Group) (dev : Nat) : State :=
  let t := stepTable g dev
  let st := stationFor s dev 0
  let m : FabMsg :=
    { id := s.fabric.nextMsg, src := stopOf 0, dst := stationStop st, unit := st, cid := cidOf s g.tenant, cls := 2, form := 0,
      peer := 2 ^ 62 + groupId g, obj := 0, gen := 0, off := t.1, size := 8, op := opReturns, data := .raw (t.2.zeroExtend 512), cmp := 0,
      core := 2 ^ 17, slot := 0, pc := 0, waiter := 5, widx := 0, phase := 0, retries := 0, refused := 0, reply := .raw 0, resends := 0,
      cause := 0, inbound := false, due := 0, expires := none, step := 2 ^ 32, from_ := 0, members := [dev] }
  { s with fabric := { s.fabric with msgs := s.fabric.msgs ++ [m], nextMsg := s.fabric.nextMsg + 1 } }

/-- The tables of a group go to every other member (R438). -/
def sendTables (s : State) (g : Group) : State :=
  if g.live && !g.withdrawn then (g.members.filter (· ≠ Config.deviceNumber)).foldl (fun s d => sendTable s g d) s else s

/-- Sends an operation kept for a member again. -/
def resendKept (s : State) (m : FabMsg) (dev : Nat) : State :=
  { s with fabric := { s.fabric with
      msgs := s.fabric.msgs ++
        [{ m with id := s.fabric.nextMsg, core := 2 ^ 17, waiter := 0, phase := 0, retries := 0, expires := none, members := [dev] }]
      nextMsg := s.fabric.nextMsg + 1 } }

/-- A notice of another device. Of a group's member: operations are kept for it while it rests; on its return, and whenever it
sends its table, those kept and those unfinished that the table does not show as performed are sent again, and the others are
performed; a member whose function is reset is withdrawn. Of a monitor table: a waiter here is woken, or one there has gone. -/
def memberNotice (s : State) (m : FabMsg) : State :=
  let sl := m.cmp.toNat
  if m.op = opUnwatch then
    { s with monitors := s.monitors.filter fun y => !(decide (y.dev = some m.from_) && decide (2 * y.core + y.slot = sl)) }
  else if m.op = opWake then
    -- the marker goes and the waiter looks again, also where the owner's first answer is still to come
    let s1 := wakeStream { s with monitors := s.monitors.filter fun y =>
      !(decide (y.unit = farUnit + m.from_) && decide (2 * y.core + y.slot = sl)) } (sl / 2) (sl % 2)
    (s1.fabric.msgs.filter fun y => !y.inbound && decide (y.waiter = 1) && decide (y.op % 256 = 0x29) && !y.onPackage &&
        decide (2 * y.core + y.slot = sl)).foldl
      (fun s y => updMsg s { y with phase := 2, reply := .raw (BitVec.ofNat 512 (3 * 2 ^ 64)) }) s1
  else match groupOfPeer s m.peer with
  | none => s
  | some g =>
    if m.op = opWithdrawn then (if g.members.contains m.from_ then withdrawMember s g m.from_ else s)
    else if m.op = opRests then setGroup s { g with resting := g.resting.filter (· ≠ m.from_) ++ [m.from_] }
    else
      let mine := g.kept.filter fun k => decide (k.1 = m.from_)
      let has (k : Nat × FabMsg) : Bool := tableHas m.off (m.data.row.truncate 64) k.2.step
      let s1 := setGroup s { g with resting := g.resting.filter (· ≠ m.from_), kept := g.kept.filter fun k => decide (k.1 ≠ m.from_) }
      let s2 := (mine.filter has).foldl (fun s k => stepAnswered s k.2.peer k.2.step m.from_ 0) s1
      let s3 := (mine.filter fun k => !has k).foldl (fun s k => resendKept s k.2 m.from_) s2
      -- steps that were on their way and were not kept for it
      let left := s.fabric.msgs.filter fun y => !y.inbound && !isNotice y && decide (y.peer = m.peer) && decide (y.phase ≤ 1) &&
        y.members.contains m.from_ && !(mine.any fun k => decide (k.2.step = y.step))
      left.foldl (fun s y =>
        if tableHas m.off (m.data.row.truncate 64) y.step then stepAnswered s y.peer y.step m.from_ 0
        else updMsg s { y with phase := 0, retries := 0, expires := none }) s3

/-! ### The events -/

/-- A message that a receiving point takes. -/
def acceptMsg (s : State) (m0 : FabMsg) : State :=
  let m := { m0 with refused := 0, resends := 0 }
  if m.inbound && isNotice m then endExchange (memberNotice (dropMsg s m.id) m)
  else if m.inbound then
    (match stubFor s m.cid with
     | some v =>
       -- rewritten and sent on; it waits at the stub until the new identifier is known (log 46)
       if m.forwarded || !v.transferred then s
       else
         let st := stationFor s v.peerDev 0
         updMsg s { m with cid := v.newCid, peer := v.peerDev, dst := stationStop st, unit := st, forwarded := true,
                           expires := some (s.cycle.toNat + statoCycles s) }
     | none =>
       if m.forwarded then s else
       if (hasFn s (m.cid / 256) && cidDead s m.cid) || groupStale s m then dropMsg (countDrop s) m.id else performInbound s m)
  else
    let m1 := { m with expires := some (m.expires.getD (s.cycle.toNat + statoCycles s)) }
    -- the identifier of a message sent on to the target of a move is the target's
    if (cidDead s m.cid && !m.forwarded) || groupStale s m then updMsg (countDrop s) m1
    else if m.onPackage then performHere (updMsg s m) m
    else updMsg s m1

/-- An answer to a request of another device leaves the package; the local member's own answers its group operation. -/
def sendAnswer (s : State) (m : FabMsg) : State :=
  let s1 := dropMsg s m.id
  if m.from_ = Config.deviceNumber then stepAnswered s1 m.peer m.step m.from_ m.cause else s1

/-- RING_MESSAGE_RECEIVE (operands: idx = message, or msg for one that arrives from outside; flag: no buffer; kind = 6: its
link has damaged it, 7: msg is message idx as its link has sent it again): a receiving point takes the message whole, or refuses
it before any effect. A message whose row record is malformed is never delivered (R34). -/
def execRingMessageReceive (s : State) : Out :=
  let (s1, id) := match s.ev.msg with
    | some m =>
      if s.ev.kind = 7 then
        -- the link has sent a damaged message again
        ((s.fabric.msgs.filter fun (x : FabMsg) => decide (x.id = s.ev.idx) && x.inbound && decide (x.phase = 0)).foldl
          (fun s (x : FabMsg) => updMsg s { x with data := m.data, marked := m.marked }) s, s.ev.idx)
      else
      (({ s with fabric := { s.fabric with
           msgs := s.fabric.msgs ++ [{ m with id := s.fabric.nextMsg, inbound := true, phase := 0, widx := 0 }]
           nextMsg := s.fabric.nextMsg + 1 } } : State), s.fabric.nextMsg)
    | none => (s, s.ev.idx)
  match s1.fabric.msgs.find? fun m => decide (m.id = id) with
  | none => .next s1
  | some m =>
    if m.inbound && decide (2 ≤ m.phase) then .next (sendAnswer s1 m)
    else if m.phase ≠ 0 then .next s1
    else if decide (s.ev.kind = 6) || m.data.row?.isNone then .next (resendMsg s1 m)
    else if s.ev.flag && mayRefuse m then .next (refuseMsg s1 m)
    else .next (acceptMsg s1 m)

/-- FABRIC_RETRY (operand: idx): the backoff of a NACKed request has expired; it is sent again (R376). -/
def execFabricRetry (s : State) : Out :=
  match s.fabric.msgs.find? fun m => decide (m.id = s.ev.idx) with
  | none => .next s
  | some m =>
    if (m.inbound ∧ m.from_ ≠ Config.deviceNumber) ∨ m.phase ≠ 1 ∨ s.cycle.toNat < m.due then .next s
    else .next (updMsg s { m with phase := 0, retries := m.retries + 1, expires := none })

/-- REMOTE_ACKNOWLEDGEMENT (operands: idx, answer = the data as it stands on the link, or row = the data; kind = cause of a
refusal at the owner, or 0; unit = the member that answers a group operation): the answer of another device to a request that is
on its way, or to one that a stub has sent on (R414); an answer that no request awaits is discarded and counted. An answer whose
row record is malformed is never delivered: the link sends it again (R34). -/
def execRemoteAcknowledgement (s : State) : Out :=
  match s.fabric.msgs.find? fun m => decide (m.id = s.ev.idx) && (!m.inbound || m.forwarded) && !m.onPackage && decide (m.phase ≤ 1) with
  | none => .next (countDrop s)
  | some m =>
    let p := s.ev.answer.getD (payloadOf m.size s.ev.row.toNat)
    if p.row?.isNone then .next (resendMsg s m)
    else if m.inbound then .next (updMsg s { m with phase := if s.ev.kind ≠ 0 then 3 else 2, cause := s.ev.kind, reply := p })
    else if m.peer.testBit 62 then
      .next (if m.members.contains s.ev.unit then stepAnswered s m.peer m.step s.ev.unit s.ev.kind else countDrop s)
    else .next (answerMsg s m (if s.ev.kind ≠ 0 then .error s.ev.kind else .ok p))

/-- The reply reservation of a request has run out. A group operation that only members in retention have still to perform
holds none: they are withdrawn when they do not return (R438). -/
def reservationOut (s : State) (m : FabMsg) : Bool :=
  let rests := match groupOfPeer s m.peer with
    | some g => !m.members.isEmpty && m.members.all g.resting.contains
    | none => false
  match m.expires with
  | some t => (!m.inbound || m.forwarded) && decide (m.phase = 0) && decide (t ≤ s.cycle.toNat) && !rests
  | none => false

/-- VOID_REPLY (operand: idx): STATO has expired on the reservation of a request; it fails with 0x11 (R378). -/
def execVoidReply (s : State) : Out :=
  match s.fabric.msgs.find? fun m => decide (m.id = s.ev.idx) with
  | none => .next s
  | some m =>
    .next (if !reservationOut s m then s
           else if m.inbound then updMsg s { m with phase := 3, cause := 0x11 } else failMsg s m 0x11)

/-- What falls due on the fabric as time passes. -/
def fabricDue (s : State) : List Activity :=
  (s.fabric.msgs.map fun m =>
    if m.inbound && !m.forwarded && decide (m.from_ ≠ Config.deviceNumber) then []
    else if m.phase = 1 ∧ m.due ≤ s.cycle.toNat then [Activity.event .fabricRetry { idx := m.id }]
    else if reservationOut s m then [Activity.event .voidReply { idx := m.id }] else []).flatten

end Sys2Proof.Machine
end

