-- ==== Sys2Proof/Machine/Host.lean ====
section
/-!
DEFINITION. Machine/Host.lean: the host submission queues and device event queues (R432 to R434), copies between host and
device (R433), and the error and fault queues' registers (R345, R419).
-/
namespace Sys2Proof.Machine

/-- A register write: its effect, while the register blocks answer. -/
def regWrite (s : State) (f : State → State) : Out := .next (if regsAnswer s then f s else s)

/-! ### Sequence numbers (R432) -/

/-- How far `b` lies beyond `a`, sequence numbers wrapping at 2^32. -/
def seqAhead (a b : Nat) : Nat := (b + 2 ^ 32 - a) % 2 ^ 32
/-- `b` is above `a`. -/
def seqAbove (a b : Nat) : Bool := decide (seqAhead a b ≠ 0) && decide (seqAhead a b < 2 ^ 31)
/-- Host address of the entry numbered `n` of a ring. -/
def ringSlot (s : State) (fn base cfg n : Nat) : Nat :=
  (regGet s fn base).toNat / 4096 * 4096 + 64 * ((n + 2 ^ 32 - 1) % 2 ^ 32 % ringSlots (regGet s fn cfg))

def regEn (s : State) (fn cfg : Nat) : Bool := (regGet s fn cfg).getLsbD 31

/-- A row of host memory. -/
def hostRow (s : State) (a : Nat) : Row := BitVec.ofNat 512 (memReadN s.mem (hostKey a) 64)

/-! ### Device events (R433, R434) -/

/-- The event ring has a free slot, and the host link works. -/
def deqRoom (s : State) (fn : Nat) : Bool :=
  regEn s fn rDEQCFG && s.host.linkUp && decide (seqAhead (regGet s fn rDEQACK).toNat (regGet s fn rDEQSEQ).toNat < ringSlots (regGet s fn rDEQCFG))

/-- An event entry. -/
def eventRow (e : DevEvent) (dseq : Nat) : Row :=
  BitVec.ofNat 512 (put dseq 0 4 + put e.hseq 4 4 + put e.status 8 1 + put e.type 9 1 + put e.eseq 12 4)

/-- The first event of a function that waits for a slot, and the list without it. -/
def takeEvent (fn : Nat) : List DevEvent → Option (DevEvent × List DevEvent)
  | [] => none
  | e :: rest =>
    if e.fn = fn then some (e, rest)
    else match takeEvent fn rest with
    | none => none
    | some (x, l) => some (x, e :: l)

/-- Writes the oldest waiting event of a function, if the ring has room, and raises its vector (R432). -/
def writeEvent (s : State) (fn : Nat) : State :=
  if deqRoom s fn then
    match takeEvent fn s.host.events with
    | none => s
    | some (e, l) =>
      let d := ((regGet s fn rDEQSEQ).toNat + 1) % 2 ^ 32
      let r := eventRow e d
      let s1 := raiseVector (regSet (hostWrite s (ringSlot s fn rDEQBASE rDEQCFG d) r.toNat 64) fn rDEQSEQ (BitVec.ofNat 64 d))
        fn (regGet s fn rDEQCFG)
      { s1 with host := { s1.host with events := l, written := s1.host.written ++ [(fn, d, r)] } }
  else s

/-- DEVICE_EVENT (operand: fn). -/
def execDeviceEvent (s : State) : Out := .next (writeEvent s s.ev.fn)

/-- Falls due for every event of a function that waits. -/
def pushEvents (s : State) (fn : Nat) : State :=
  { s with agenda := s.agenda ++ (s.host.events.filter fun e => decide (e.fn = fn)).map fun _ => .event .deviceEvent { fn := fn } }

/-- DEQBASE (operands: fn, v): the ring moves; the events after DEQACK are written again, in order. -/
def execDeqbase (s : State) : Out :=
  let fn := s.ev.fn
  regWrite s fun s =>
  let s1 := regSet s fn rDEQBASE (s.ev.v &&& 0xFFFF_FFFF_FFFF_F000#64)
  (s1.host.written.foldl (fun s e =>
    if e.1 = fn ∧ seqAbove (regGet s fn rDEQACK).toNat e.2.1 then
      hostWrite s (ringSlot s fn rDEQBASE rDEQCFG e.2.1) e.2.2.toNat 64 else s) s1)

/-- A write of DEQACK: the host has read the events up to it. -/
def ackEvents (s : State) (fn : Nat) (v : Word) : State :=
  let s1 := regSet s fn rDEQACK (v &&& 0xFFFF_FFFF#64)
  let kept : List (Nat × Nat × Row) := s1.host.written.filter fun e => !decide (e.1 = fn) || seqAbove (fld v 0 32) e.2.1
  pushEvents { s1 with host := { s1.host with written := kept } } fn

/-! ### Submission queues (R433, R434) -/

def heSeq (e : Row) : Nat := rowElem e 32 0
def heOp (e : Row) : Nat := (rowByte e 4).toNat
def heLq (e : Row) : Nat := (rowByte e 5).toNat
def heNote (e : Row) : Bool := (rowByte e 6).getLsbD 0
def heObj (e : Row) : Nat := rowElem e 64 1
def heHaddr (e : Row) : Nat := rowElem e 64 2
def heRows (e : Row) : Nat := rowElem e 32 6
def heDone (e : Row) : Nat := rowElem e 64 4

/-- Answers an entry that asks for an event. -/
def answer (s : State) (fn : Nat) (e : Row) (status : Nat) : State :=
  if heNote e then postEvent s { fn := fn, hseq := heSeq e, status := status, type := 1, eseq := 0 } else s

/-- The events a function's entries fall due as; an entry of no known operation is answered by any of them. -/
def opEvent : Nat → Instr
  | 1 => .hostSubmitLaunch
  | 2 => .hostCopyToDevice
  | 3 => .hostCopyToHost
  | 4 => .hostSuspend
  | _ => .hostEcho

/-- The entry that the device expects next, where it is announced and fetched. -/
def expected (s : State) (fn : Nat) : Option Row :=
  let ack := (regGet s fn rHSQACK).toNat
  if s.host.fetching.contains fn && s.host.linkUp && regEn s fn rHSQCFG && seqAbove ack (regGet s fn rHSQDB).toNat && decide (s.power = .run) && frontEndsOpen s then
    some (hostRow s (ringSlot s fn rHSQBASE rHSQCFG ((ack + 1) % 2 ^ 32)))
  else none

/-- The next entry of a function falls due. -/
def pushNext (s : State) (fn : Nat) : State :=
  match expected s fn with
  | none => s
  | some e => { s with agenda := s.agenda ++ [.event (opEvent (heOp e)) { fn := fn }] }

/-- An event of the function waits because its ring is full. -/
def eventsWait (s : State) (fn : Nat) : Bool := !deqRoom s fn && s.host.events.any fun e => decide (e.fn = fn)

/-- The entry has been taken: HSQACK advances. -/
def advanceAck (s : State) (fn : Nat) : State :=
  regSet s fn rHSQACK (BitVec.ofNat 64 (((regGet s fn rHSQACK).toNat + 1) % 2 ^ 32))

/-- What taking an entry comes to: it waits, it is held at a page of the second stage that is absent (R339), or it is taken. -/
inductive Taken where
  | waits
  | held (f : XFail) (obj off : Nat)
  | took (s : State)

/-- Takes the expected entry of a function when it is one of operation `op`, through `act`, which works on the state in which
HSQACK has advanced. A stale entry is discarded, an unknown one is a bad command, and after an error of the Clove every one
fails. -/
def takeEntry (s : State) (fn op : Nat) (act : State → Row → Taken) : State :=
  match expected s fn with
  | none => s
  | some e =>
    let ack := (regGet s fn rHSQACK).toNat
    if heNote e && eventsWait s fn then s
    else if heSeq e ≠ (ack + 1) % 2 ^ 32 then
      (let s1 : State := { s with host := { s.host with fetching := s.host.fetching.filter (· ≠ fn) } }
       if seqAbove ack (heSeq e) then s1 else answer s1 fn e 3)
    else if s.host.cloveError then pushNext (answer (advanceAck s fn) fn e 7) fn
    else if heOp e = 0 ∨ 5 < heOp e then pushNext (answer (advanceAck s fn) fn e 2) fn
    else if heOp e ≠ op then s
    else match act (advanceAck s fn) e with
    | .waits => s
    | .held f obj off =>
      (match openFault s (fnTenant s fn) f .load obj off with
       | (s1, some _) => s1
       | (s1, none) => pushNext (answer (advanceAck s1 fn) fn e 2) fn)
    | .took s1 => pushNext s1 fn

/-- HOST_SUBMIT_LAUNCH (operand: fn): the front end copies the record; the entry waits while its queue is full, or its object's
entry, list or frame is behind an absent page (R339). -/
def execHostSubmitLaunch (s : State) : Out :=
  let fn := s.ev.fn
  let tenant := fnTenant s fn
  .next (takeEntry s fn 1 fun s e =>
    let obj := refObj (heObj e)
    let off := refOff (heObj e)
    if 64 ≤ heLq e ∨ fnState s fn = 0 ∨ off % 64 ≠ 0 then .took (answer s fn e 2)
    else match [off, off + 448].findSome? (extentMiss s tenant obj) with
    | some f => .held f obj off
    | none =>
    if !extentFits s tenant (heObj e) 0 512 then .took (answer s fn e 2)
    else if 32 ≤ queueLoad s (heLq e) then .waits
    else match extentRows s tenant obj off 8 with
    | none => .took (answer s fn e 2)
    | some rows =>
      .took (answer (submit s { fn := fn, clove := false, queue := heLq e, obj := obj, off := off, image := imageOf rows }) fn e 0))

/-! ### Copies (R433, under R148 and R153) -/

/-- The event a copy goes on with. -/
def pushCopy (s : State) (h : HostCopy) : State :=
  { s with agenda := s.agenda ++
      [.event (if h.toHost then .hostCopyToHost else .hostCopyToDevice) { fn := h.fn, idx := h.hseq, flag := true }] }

def setCopy (s : State) (h : HostCopy) : State :=
  { s with host := { s.host with copies := s.host.copies.map fun x => if x.fn = h.fn ∧ x.hseq = h.hseq then h else x } }

/-- The live move that has given a frame of a tenant away, for a byte of device memory: from the pull on, operations for the frame
go to the target (R413, R416). -/
def givenAway (s : State) (tenant : Nat) (key : Option Nat) : Option Move :=
  match key with
  | none => none
  | some k =>
    s.host.moves.find? fun v => !v.target && decide (fnTenant s v.fn = tenant) &&
      v.pulls.any fun p => p.2.2 && (List.range 4).any fun i => decide (physKey s (p.2.1 / 16384 * 16384 + 4096 * i) / 4096 = k / 4096)

/-- Sends a row, or an increment, of a Yarrow engine to the target of a move, under the tenant's identifier there. -/
def forwardRow (s : State) (h : HostCopy) (v : Move) (op obj off x waiter widx : Nat) : State × Nat :=
  let st := stationFor s v.peerDev 0
  let m : FabMsg :=
    { id := s.fabric.nextMsg, src := 9, dst := stationStop st, unit := st, cid := v.newCid, cls := if op = 0x5A then 0 else if op = 0x5B then 3 else 2,
      form := 7, peer := v.peerDev, obj := obj, gen := 0, off := off, size := if op = 0x5C then 8 else 64, op := op,
      data := bodyOf op 64 x, cmp := 0, core := 2 ^ 16 + h.fn, slot := if h.toHost then 1 else 0, pc := 0, waiter := waiter, widx := widx,
      phase := 0, retries := 0, refused := 0, reply := .raw 0, resends := 0, cause := 0, inbound := false, due := 0, expires := none,
      step := 0, from_ := 0, members := [] }
  (sendMsg s { m with forwarded := true }, m.id)

/-- A copy ends: DONE rises, with ERR where a row failed, and an event answers. -/
def endCopy (s : State) (h : HostCopy) (err : Bool) : State :=
  let s1 : State := { s with host := { s.host with
    copies := s.host.copies.filter fun x => !(decide (x.fn = h.fn) && decide (x.hseq = h.hseq)) } }
  let tenant := fnTenant s h.fn
  let s2 := if h.doneObj = 0 then s1
    else match givenAway s1 tenant (extentKey s1 tenant (refObj h.doneObj.toNat) (refOff h.doneObj.toNat)) with
    | some v => (forwardRow s1 h v 0x5C (refObj h.doneObj.toNat) (refOff h.doneObj.toNat) (1 + (if err then 2 ^ 63 else 0)) 0 0).1
    | none => doneIncrement s1 tenant h.doneObj 1 err
  if h.note then postEvent s2 { fn := h.fn, hseq := h.hseq, status := 0, type := 1, eseq := 0 } else s2

/-- The row is moved; the copy goes on with the next, or ends. -/
def copyMoved (s : State) (h : HostCopy) : State :=
  let h1 := { h with next := h.next + 1, req := none, heldBy := none }
  if h.rows ≤ h1.next then endCopy s h1 false else pushCopy (setCopy s h1) h1

/-- A request of a Yarrow copy engine to a peer. -/
def copyMsg (s : State) (h : HostCopy) (tenant : Nat) (a : Acc) (x : Nat) : FabMsg :=
  { id := s.fabric.nextMsg, src := 9, dst := (msgTarget s a).1, unit := (msgTarget s a).2, cid := cidOf s tenant, cls := if h.toHost then 0 else 3, form := 7, peer := a.peer,
    obj := a.robj, gen := 0, off := a.roff, size := 64, op := if h.toHost then 0x5A else 0x5B, data := payloadOf 64 x, cmp := 0,
    core := 2 ^ 16 + h.fn, slot := if h.toHost then 1 else 0, pc := 0, waiter := 4, widx := h.hseq, phase := 0, retries := 0,
    refused := 0, reply := .raw 0, resends := 0, cause := 0, inbound := false, due := 0, expires := none, step := 0, from_ := 0,
    members := [], acc := some a }

/-- Moves the next row of a copy, or takes its answer from the fabric; a failing row ends it. The engines stand on the Yarrow dies,
whose messages reach every partition (R396); while the host link fails, no row moves. -/
def copyHostRow (s : State) (h : HostCopy) : State :=
  let tenant := fnTenant s h.fn
  let haddr := h.haddr + 64 * h.next
  let off := refOff h.obj.toNat + 64 * h.next
  let obj := refObj h.obj.toNat
  let sent : Option FabMsg := s.fabric.msgs.find? fun m => decide (h.req = some m.id)
  match sent with
  | some m =>
    if m.phase ≤ 1 then s
    else
      let s1 := dropMsg s m.id
      if m.phase = 3 then endCopy s1 h true
      else copyMoved (if h.toHost then hostWrite s1 haddr m.reply.row.toNat 64 else s1) h
  | none =>
    let k := if h.toHost then kCopyR else kCopyW
    if !s.host.linkUp then s
    else match portAccess s (agentDie s tenant) tenant 4 obj none off k true with
    | (s1, .error f) =>
      if f.cause = 0x06 then
        (match openFault s1 tenant f k.form obj off with
         | (s2, some tag) => setCopy s2 { h with heldBy := some tag }
         | (s2, none) => endCopy s2 h true)
      else endCopy (translationRecord s1 tenant obj off f) h true
    | (s1, .ok a) =>
      let x := if h.toHost then 0 else (hostRow s1 haddr).toNat
      if a.tgt = 10 then endCopy s1 h true
      else if let some v := givenAway s1 tenant (if a.tgt = 0 then some a.key else none) then
        -- the frame has been pulled: the row goes on to the target of the move (R413, R416)
        (let (s2, id) := forwardRow s1 h v (if h.toHost then 0x5A else 0x5B) obj off x 4 h.hseq
         setCopy s2 { h with req := some id, heldBy := none })
      else if a.remote then
        (let m := copyMsg s1 h tenant a x
         setCopy (sendMsg s1 m) { h with req := some m.id, heldBy := none })
      else if h.toHost then
        (if isPoisoned s1 a.key then endCopy s1 h true else copyMoved (hostWrite s1 haddr (readUnit s1 a.key 64) 64) h)
      else copyMoved (doneReachedRow (writeUnit s1 a.key 64 x) a.key 64) h

/-- An entry that asks for a copy: a Yarrow engine accepts it, or it is a bad command; behind an absent page of the second stage
it is held (R339). -/
def acceptCopy (toHost : Bool) (s : State) (fn : Nat) (e : Row) : Taken :=
  let n := heRows e
  let entry := lookupObj s (fnTenant s fn) (refObj (heObj e))
  if heHaddr e % 64 ≠ 0 ∨ n = 0 ∨ 2 ^ 24 < n ∨ fnState s fn = 0 ∨ refOff (heObj e) % 64 ≠ 0 ∨ heDone e % 8 ≠ 0 ∨
      (match entry with
       | .ok o => decide (o.size < refOff (heObj e) + 64 * n)
       | .error f => decide (f.cause ≠ 0x06)) = true then .took (answer s fn e 2)
  else match entry with
  | .error f => .held f (refObj (heObj e)) (refOff (heObj e))
  | .ok _ =>
    let h : HostCopy :=
      { fn := fn, toHost := toHost, obj := BitVec.ofNat 64 (heObj e), haddr := heHaddr e, rows := n, next := 0,
        doneObj := BitVec.ofNat 64 (heDone e), note := heNote e, hseq := heSeq e, req := none, heldBy := none }
    .took (pushCopy { s with host := { s.host with copies := s.host.copies ++ [h] } } h)

/-- The next entry of a copy operation, or with `flag` the next row of copy `idx` (operands: fn, flag, idx). -/
def hostCopy (toHost : Bool) (s : State) : Out :=
  let fn := s.ev.fn
  if s.ev.flag then
    match s.host.copies.find? fun x => decide (x.fn = fn) && decide (x.hseq = s.ev.idx) && decide (x.toHost = toHost) with
    | none => .next s
    | some h => .next (if h.heldBy.isSome then s else copyHostRow s h)
  else .next (takeEntry s fn (if toHost then 3 else 2) fun s e => acceptCopy toHost s fn e)

/-- HOST_COPY_TO_DEVICE. -/
def execHostCopyToDevice (s : State) : Out := hostCopy false s
/-- HOST_COPY_TO_HOST. -/
def execHostCopyToHost (s : State) : Out := hostCopy true s

/-- HOST_SUSPEND (operand: fn): the physical function's trigger; a second trigger has no effect (R435, R437). -/
def execHostSuspend (s : State) : Out :=
  let fn := s.ev.fn
  .next (takeEntry s fn 4 fun s e =>
    if fn ≠ 0 then .took (answer s fn e 2)
    else
      .took (beginSuspend { s with host := { s.host with suspendNote := if heNote e then some (heSeq e) else none } } none
        tenantDeadline))

/-- HOST_ECHO (operand: fn). -/
def execHostEcho (s : State) : Out :=
  let fn := s.ev.fn
  .next (takeEntry s fn 5 fun s e => .took (answer s fn e 0))

/-- When fetching starts again, the entries that a ring announced by a doorbell holds below the expected one have been taken
before: each is discarded, and answered with status 3 where it asks for an event (R434; log 101). -/
def answerStale (s : State) (fn v : Nat) : State :=
  let ack := (regGet s fn rHSQACK).toNat
  let size := ringSlots (regGet s fn rHSQCFG)
  if regEn s fn rHSQCFG && decide (s.power = .run) && s.host.linkUp then
    (List.range (size - min size (seqAhead ack v))).foldl (fun s i =>
      let n := (v + 2 ^ 32 + 1 + i - size) % 2 ^ 32
      let e := hostRow s (ringSlot s fn rHSQBASE rHSQCFG n)
      if heSeq e = n then answer s fn e 3 else s) s
  else s

/-- HSQDB (operands: fn, v): the newest posted entry is announced; one that is not above HSQACK is stale. -/
def execHsqdb (s : State) : Out :=
  let fn := s.ev.fn
  let v := fld s.ev.v 0 32
  regWrite s fun s =>
  if seqAbove (regGet s fn rHSQACK).toNat v then
    let s1 := regSet (if s.host.fetching.contains fn then s else answerStale s fn v) fn rHSQDB (BitVec.ofNat 64 v)
    (pushNext { s1 with host := { s1.host with fetching := s1.host.fetching.filter (· ≠ fn) ++ [fn] } } fn)
  else if regEn s fn rHSQCFG && decide (s.power = .run) then
    let e := hostRow s (ringSlot s fn rHSQBASE rHSQCFG v)
    (if seqAbove (regGet s fn rHSQACK).toNat (heSeq e) then s else answer s fn e 3)
  else s

/-- Fetching stops until the next doorbell. -/
def stopFetch (s : State) (fn : Nat) : State :=
  { s with host := { s.host with fetching := s.host.fetching.filter (· ≠ fn) } }

/-- HSQBASE (operands: fn, v). -/
def execHsqbase (s : State) : Out :=
  regWrite s fun s => stopFetch (regSet s s.ev.fn rHSQBASE (s.ev.v &&& 0xFFFF_FFFF_FFFF_F000#64)) s.ev.fn

/-- HSQCFG (operands: fn, v). -/
def execHsqcfg (s : State) : Out :=
  regWrite s fun s => stopFetch (regSet s s.ev.fn rHSQCFG (s.ev.v &&& 0x8000_000F#64)) s.ev.fn

/-! ### Error and fault queues (R345, R419) -/

/-- A configuration write of a ring: EN rising restarts TAIL and clears LOST. -/
def ringConfig (s : State) (fn cfg tail lost : Nat) (v : Word) : State :=
  let old := regEn s fn cfg
  let s1 := regSet s fn cfg (v &&& 0x801F_000F#64)
  if !old && v.getLsbD 31 then regSet (regSet s1 fn tail 0) fn lost 0 else s1

/-- EQCFG (operands: fn, v). -/
def execEqcfg (s : State) : Out := regWrite s fun s => ringConfig s s.ev.fn rEQCFG rEQTAIL rEQLOST s.ev.v

/-! ### Answers to page faults (R346, R413) -/

/-- A saved context that a fault holds ends (R240, R346): its record, its increment. -/
def endSaved (s : State) (x : SavedCtx) (f : FaultInfo) : State :=
  match launchById s x.launch with
  | none => s
  | some l =>
    let r := put 4 0 1 + put f.cause 1 1 + put (engCode f.eng) 2 1 + put f.pc 4 4 + put f.addr 8 8 + put s.cycle.toNat 32 8 +
      put x.rank 44 4 + put l.doneObj.toNat 48 8 + put 0xFFFF_FFFF 56 4
    let s1 : State := { s with sched := { s.sched with saved := s.sched.saved.filter fun y => !decide (y = x) } }
    countRetired (crewIncrement (tenantError s1 l.tenant [r]) l.id true) l.id x.rank

/-- A crew one of whose streams a fault held, now that the stream may go on: it executes its instruction again, or meets the
cause. -/
def streamFreed (s : State) (k cause : Nat) (c : Crew) (f : FaultInfo) : State :=
  if cause = 0 then putCrew s (k / 2) (k % 2) c
  else if cause = 0x06 then endUnhandled s (k / 2) (k % 2) c f
  else raise s (k / 2) (k % 2) c f

/-- A stream that a fault holds goes on: of C and A in handler mode the handler's, then the stream that the trap left. -/
def freeStream (s : State) (k tag cause : Nat) (e : Eng) : State :=
  match asGet s.crews k with
  | none => s
  | some c =>
    match statusOf c e, (strOf c e).status with
    | .held t u, _ =>
      if !active c e || decide (t ≠ tag) then s else streamFreed s k cause (setStatus c e .running) (faultInfo c e cause u)
    | _, .held t u =>
      if !active c e || decide (t ≠ tag) then s
      else streamFreed s k cause (setStr c e { strOf c e with status := .running })
        { faultInfo c e cause u with pc := (strOf c e).pc }
    | _, _ => s

/-- An engine operation that a fault holds moves on, or fails with the cause. -/
def freeOp (s : State) (p : PageFault) (k i cause : Nat) : State :=
  match asGet s.crews k with
  | none => s
  | some c =>
    match c.ops[i]? with
    | none => s
    | some o =>
      if o.heldBy ≠ some p.tag then s
      else
        let core := k / 2
        let slot := k % 2
        let o1 := { o with heldBy := none }
        let again (j : Instr) : State :=
          let s1 := putOp s core slot i o1
          { s1 with agenda := s1.agenda ++ [.event j { core := core, slot := slot, idx := i, flag := true }] }
        if cause = 0 then
          again (if rowsDone o then .completionIncrement else if o.kind = 1 then .loadDataReturn else .copyRow)
        else if rowsDone o then opSignal s core slot i o1 cause
        else if o.kind = 1 ∨ p.obj = capObj o.src then opFail s core slot i o1 cause o.src (opSrc s core c o)
        else opFail s core slot i o1 cause o.dst (opDst s core c o)

/-- Requests to bank units that an answered fault has left at their destination are performed now, or fail (R153, R346). -/
def performWaiting (s : State) (tag cause : Nat) : State :=
  (s.fabric.msgs.filter fun m => !m.inbound && m.onPackage && decide (m.phase = 0) && decide (m.due = tag + 1)).foldl
    (fun s m => if cause = 0 then performHere (updMsg s { m with due := 0 }) { m with due := 0 } else failMsg s m cause) s

/-- Increments that wait for the page of a fault which is answered with a cause are lost, each with its record (R325). -/
def loseWaiting (s : State) (p : PageFault) (cause : Nat) : State :=
  let here (x : Nat × Word × Nat × Bool × Option Nat) : Bool :=
    decide (x.1 = p.tenant) && (match extentMiss s x.1 (fld x.2.1 40 24) (fld x.2.1 0 40) with
      | some f => decide (f.stage = p.stage) && decide (f.addr / p.size = p.addr / p.size)
      | none => false)
  if cause = 0 then s
  else (s.sched.late.filter here).foldl (fun s x => lostIncrement s x.1 x.2.1 x.2.2.1 x.2.2.2.1)
    { s with sched := { s.sched with late := s.sched.late.filter fun x => !here x } }

/-- A fault is answered: everything it holds goes on (cause 0), or meets the cause. -/
def answerFault (s0 : State) (p : PageFault) (cause : Nat) : State :=
  let s := loseWaiting s0 p cause
  let s1 : State := { s with xlat := { s.xlat with faults := s.xlat.faults.filter fun x => !decide (x.tag = p.tag) } }
  let s2 := (s1.crews.map (·.1)).foldl (fun s k => allEngs.foldl (fun s e => freeStream s k p.tag cause e) s) s1
  let s3 := s2.crews.foldl (fun s x => (List.range x.2.ops.length).foldl (fun s i => freeOp s p x.1 i cause) s) s2
  let s4 := s3.sched.saved.foldl (fun s x =>
    match x.side.held.find? fun y => decide (y.1 = p.tag) with
    | some y => if cause = 0x06 then endSaved s x y.2 else s
    | none => s) s3
  let next (x : SavedCtx) : Option Nat :=
    (x.side.held.find? fun y => decide (y.1 ≠ p.tag) && s4.xlat.faults.any fun q => decide (q.tag = y.1)).map (·.1)
  let saved := s4.sched.saved.map fun x => if x.waits = some p.tag then { x with waits := next x } else x
  let failed (o : SideOp) : SideOp :=
    if cause ≠ 0 ∧ o.heldBy = some p.tag then { o with failed := some (cause, p.obj * 2 ^ 40 + p.off) } else o
  let s5 : State := { s4 with sched := { s4.sched with saved := saved.map fun x => { x with side := { x.side with ops := x.side.ops.map failed } } } }
  let s6 := (s5.fabric.msgs.filter fun m => m.inbound && decide (m.phase = 0) && decide (m.widx = p.tag)).foldl (fun s m =>
    let m1 := { m with widx := 0 }
    if cause = 0 then performInbound s m1 else updMsg s { m1 with phase := 3, cause := 0x11 }) (performWaiting s5 p.tag cause)
  pushNext ((s6.host.copies.filter fun h => decide (h.heldBy = some p.tag)).foldl (fun s h =>
    let h1 := { h with heldBy := none }
    if cause = 0 then pushCopy (setCopy s h1) h1 else endCopy s h1 true) s6) (fnOf s p.tenant)

/-- Writes the records of faults that waited for a slot, oldest first. -/
def writeFaults (s : State) (fn : Nat) : State :=
  s.xlat.faults.foldl (fun s p =>
    if (decide (p.pager = fn) && !p.written && !p.pull && regEn s fn rFQCFG && fqRoom s fn) = true then
      let s1 := fqWrite s fn p
      { s1 with xlat := { s1.xlat with faults := s1.xlat.faults.map fun x => if x.tag = p.tag then { x with written := true } else x } }
    else s) s

/-- FQHEAD (operands: fn, v): slots are free again, and records that waited are written. -/
def execFqhead (s : State) : Out :=
  regWrite s fun s => writeFaults (regSet s s.ev.fn rFQHEAD (s.ev.v &&& 0xFFFF_FFFF#64)) s.ev.fn

/-- FQCFG (operands: fn, v): as EQCFG; records that still wait meet the queue as it now is. -/
def execFqcfg (s : State) : Out :=
  let fn := s.ev.fn
  regWrite s fun s =>
  let s1 := ringConfig s fn rFQCFG rFQTAIL rFQLOST s.ev.v
  if regEn s1 fn rFQCFG then writeFaults s1 fn
  else
    ((s1.xlat.faults.filter fun p => decide (p.pager = fn) && !p.written && !p.pull).foldl (fun s p =>
      answerFault (regSet s fn rFQLOST (BitVec.ofNat 64 (min ((regGet s fn rFQLOST).toNat + 1) 0xFFFF_FFFF))) p 0x06) s1)

end Sys2Proof.Machine
end

