-- ==== Sys2Proof/Machine/Registers.lean ====
section
/-!
DEFINITION. Machine/Registers.lean: writes of the function register block (R430) and the staging of command ports (R431).
-/
namespace Sys2Proof.Machine

/-! ### Command ports (R431) -/

def portOf (s : State) (id : Nat) : Port :=
  (s.host.ports.find? fun p => decide (p.id = id)).getD
    { id := id, staged := 0, latched := 0, run := false, lost := false, code := 0, tag := 0, begun := false }

/-- Stores a port; ports stand in ascending number. -/
def putPort (s : State) (p : Port) : State :=
  let l := s.host.ports.filter (fun x => decide (x.id < p.id)) ++ p :: s.host.ports.filter fun x => decide (p.id < x.id)
  { s with host := { s.host with ports := l } }

/-- OP of a command row. -/
def cmdOp (r : Row) : Nat := (rowByte r 0).toNat
/-- Index of an update-port command. -/
def cmdIndex (r : Row) : Nat := fld r 16 24
/-- Function number of a tenant-port command. -/
def cmdFn (r : Row) : Nat := fld r 16 5

/-- The event as which a port's operation executes; none for an operation that the port's table does not have. -/
def portEvent (id op : Nat) : Option (Instr × EvArgs) :=
  if id < 32 then
    (match op with
     | 1 => some (.setObject, { fn := id })
     | 2 => some (.invalObject, { fn := id })
     | 3 => some (.setHostEntry, { fn := id })
     | 4 => some (.invalHostEntry, { fn := id })
     | 5 => some (.resolve, { fn := id })
     | _ => none)
  else if id = 32 then
    (match op with
     | 1 => some (.activate, {})
     | 2 => some (.reset, {})
     | 3 => some (.teardown, {})
     | 4 => some (.freeze, {})
     | 5 => some (.admitMove, {})
     | 6 => some (.release, {})
     | 7 => some (.thaw, {})
     | _ => none)
  else if id < 37 then
    (match op with
     | 1 => some (.assign, { idx := id - 33 })
     | 2 => some (.free, { idx := id - 33 })
     | 3 => some (.pullmark, { idx := id - 33 })
     | 4 => some (.query, { idx := id - 33 })
     | _ => none)
  else if id = 37 then
    (match op with
     | 1 => some (.galloc, {})
     | 2 => some (.grelease, {})
     | _ => none)
  else some (.attestationRequest, { fn := id - 40 })

/-- The port that a byte of a function's register block belongs to, and the byte of its row. -/
def portAt (fn off : Nat) : Option (Nat × Nat) :=
  if 0x400 ≤ off ∧ off < 0x440 then some (fn, off - 0x400)
  else if 0x700 ≤ off ∧ off < 0x740 then some (40 + fn, off - 0x700)
  else if fn ≠ 0 then none
  else if 0x480 ≤ off ∧ off < 0x4C0 then some (32, off - 0x480)
  else if 0x500 ≤ off ∧ off < 0x600 then some (33 + (off - 0x500) / 0x40, (off - 0x500) % 0x40)
  else if 0x600 ≤ off ∧ off < 0x640 then some (37, off - 0x600)
  else none

/-- A write of 8 bytes of a command row: bytes 8 to 63 are staged; bytes 0 to 7 start the command. -/
def portWrite (s : State) (id b : Nat) (v : Word) : State :=
  let p := portOf s id
  if b ≠ 0 then putPort s { p with staged := setFld p.staged (8 * b) 64 v.toNat }
  else if p.run then putPort s { p with lost := true }
  else
    let row := setFld p.staged 0 64 v.toNat
    let p1 := { p with staged := 0, latched := row, run := true, lost := false, tag := fld row 48 16, begun := false }
    match portEvent id (cmdOp row) with
    | some (i, a) =>
      let s1 := putPort s p1
      { s1 with agenda := s1.agenda ++ [.event i a] }
    | none => putPort s { p1 with run := false, code := 2 }

/-- A command goes on over several steps. -/
def portBegin (s : State) (id : Nat) : State := putPort s { portOf s id with begun := true }

/-- A command completes with a code. -/
def portDone (s : State) (id code : Nat) : State := putPort s { portOf s id with run := false, code := code }

/-- A command completes with code 0 and returns bytes 32 to 63. -/
def portReturn (s : State) (id data : Nat) : State :=
  let p := portOf s id
  putPort s { p with run := false, code := 0, latched := BitVec.ofNat 512 (p.latched.toNat % 2 ^ 256 + data % 2 ^ 256 * 2 ^ 256) }

/-- Executes the latched command of a port, when it is running and is of operation `op`. -/
def onPort (s : State) (id op : Nat) (act : Row → State) : Out :=
  let p := portOf s id
  .next (if p.run && decide (cmdOp p.latched = op) && regsAnswer s then act p.latched else s)

/-! ### Plain registers -/

/-- The writable bits of a register that has no behaviour of its own; none for every other offset. -/
def plainMask (fn off : Nat) : Option Word :=
  if off = rFABPOL then some 0xF_FF00
  else if off = rEQBASE ∨ off = rFQBASE then some 0xFFFF_FFFF_FFFF_F000
  else if off = rEQHEAD then some 0xFFFF_FFFF
  else if off = rDEQCFG then some 0x801F_000F
  else if fn ≠ 0 then none
  else if inRegs off 0xA00 64 then some 0xFF_FF00_FF01
  else if inRegs off 0xE00 4 then some 0xFFFF_FFFF_FFFF_FFFF
  else if inRegs off 0x2000 512 then some 0x1FF
  else if off = rBOOTADDR ∨ off = rBOOTLEN then some 0xFFFF_FFFF_FFFF_FFFF
  else none

/-- REGISTER_WRITE (operands: fn, off, v): under the access codes of R3. In the bootstrap state only the boot registers
answer (R426). -/
def execRegisterWrite (s : State) : Out :=
  let fn := s.ev.fn
  let off := s.ev.off
  let v := s.ev.v
  let boot := decide (fn = 0) && (decide (off = rBOOTADDR) || decide (off = rBOOTLEN))
  if off % 8 ≠ 0 ∨ 32 ≤ fn ∨ !(regsAnswer s || (decide (s.power = .bootstrap) && boot)) then .next s
  else match portAt fn off with
  | some (id, b) => .next (portWrite s id b v)
  | none =>
    if off = rDEQACK then .next (ackEvents s fn v)
    else match plainMask fn off with
    | none => .next s
    | some m =>
      let s1 := regSet s fn off (v &&& m)
      .next (if off = rDEQCFG then pushEvents s1 fn else s1)

/-! ### Registers of the physical function with an effect -/

/-- STATO (operand: v): a value below 16 is taken as 16 (R378). -/
def execStatoWrite (s : State) : Out :=
  regWrite s fun s => regSet s 0 rSTATO (BitVec.ofNat 64 (max (fld s.ev.v 0 16) 16))

/-- PWRCAP (operand: v): no cap, or one from 600 to 2,800 W; other values are ignored (R439). -/
def execPwrcapWrite (s : State) : Out :=
  regWrite s fun s =>
    let w := fld s.ev.v 0 16
    if w = 0 ∨ (600 ≤ w ∧ w ≤ 2800) then regSet s 0 rPWRCAP (BitVec.ofNat 64 w) else s

/-- LQCFG (operands: queue, v): a write of EN = 1 keeps EN while a RETCFG is not valid (R312, R435). -/
def execLqcfgWrite (s : State) : Out :=
  regWrite s fun s =>
    let q := s.ev.queue
    let v := s.ev.v &&& 0xF0_FF0F#64
    let old := regGet s 0 (rLQCFG q)
    if 64 ≤ q then s
    else if v.getLsbD 0 && decide (s.host.retValid ≠ 15) then regSet s 0 (rLQCFG q) (setBit v 0 (old.getLsbD 0))
    else regSet s 0 (rLQCFG q) v

/-- RETCFG (operands: idx = quarter, v): its validity is judged now (R435). -/
def execRetcfgWrite (s : State) : Out :=
  regWrite s fun s =>
    let q := s.ev.idx
    if 4 ≤ q then s else judgeRet (regSet s 0 (rRETCFG q) (s.ev.v &&& 0x80FF_FFFF_FFFF_C000#64)) [q]

/-- SPCORE (operands: core, v). A tenant that is now excluded keeps the slot that its crew occupies; only later placements
meet the new value (R401). -/
def execSpcoreWrite (s : State) : Out :=
  regWrite s fun s => if 256 ≤ s.ev.core then s else regSet s 0 (rSPCORE s.ev.core) (s.ev.v &&& 0x3_FFFF#64)

/-- Zeroes the Commons bytes of one slice group: those that its slices hold (R279, R403). -/
def zeroGroup (s : State) (die g : Nat) : State :=
  zeroWhere s fun k => decide (commonsKey die 0 ≤ k) && decide (k < commonsKey die (2 ^ 25)) &&
    decide (commonsSlice s die (k - commonsKey die 0) / 16 = g)

/-- The lines of a slice group that a tenant outside a register value has pinned are written back and invalidated (R403). -/
def dropGroupPins (s : State) (die g : Nat) (v : Word) : State :=
  let out (x : Pin) : Bool :=
    let h := homeSlice s (128 * x.line / 2 ^ 36) x.line
    decide (h.1 = die) && decide (h.2 / 16 = g) && decide (x.tenant ≠ fld v 0 8)
  { s with xlat := { s.xlat with pins := s.xlat.pins.filter fun x => !out x } }

/-- A slice group takes a new value; if that stops admitting a tenant, that tenant's lines go and the group's Commons region is
zeroed first (R403). -/
def setSlice (s : State) (die g : Nat) (v : Word) : State :=
  let old := regGet s 0 (rSPSLICE die g)
  let narrows := !v.getLsbD 8 && (old.getLsbD 8 || decide (fld old 0 8 ≠ fld v 0 8))
  regSet (if narrows then zeroGroup (dropGroupPins s die g v) die g else s) 0 (rSPSLICE die g) (v &&& 0x1FF#64)

/-- SPSLICE (operands: die, idx = group, v). -/
def execSpsliceWrite (s : State) : Out :=
  regWrite s fun s => if 8 ≤ s.ev.die ∨ 8 ≤ s.ev.idx then s else setSlice s s.ev.die s.ev.idx s.ev.v

/-- A change of a die's Commons share, only while no crew is resident on the die (operands: die, kind = share 0, 1 or 2);
the Commons is left zero (R279). -/
def execCommonsShareChange (s : State) : Out :=
  let d := s.ev.die
  if 8 ≤ d ∨ 3 ≤ s.ev.kind ∨ s.crews.any (fun p => decide (dieOf (p.1 / 2) = d)) = true then .next s
  else
    let s1 := zeroCommons s d
    .next { s1 with host := { s1.host with commons := spSet s1.host.commons d (BitVec.ofNat 2 s.ev.kind) } }

/-- Writable bits of a translation register of R327. -/
def xlatMask (off : Nat) : Word :=
  if off = rOTBASE then 0xFFFF_FFFF_FFFF_FFE0
  else if off = rFSROOT ∨ off = rSSROOT then 0x8000_00FF_FFFF_0000
  else if off = rRMBASE then 0x0000_00FF_FFFF_FFC0
  else if off = rHTBASE then 0xFFFF_00FF_FFFF_FFE0
  else if off = rBDBASE then 0xFFF0_00FF_FFFF_FFF0
  else 0

/-- TRANSLATION_REGISTER_WRITE (operands: fn = the function whose block is written, off, v): every combined entry of the
tenant is gone with it. SSROOT of function f is written at 0x1B00 + 8f of the physical function, and nowhere else. -/
def execTranslationRegisterWrite (s : State) : Out :=
  regWrite s fun s =>
    let off := s.ev.off
    let second := decide (s.ev.fn = 0) && inRegs off 0x1B00 32
    let f := if second then (off - 0x1B00) / 8 else s.ev.fn
    if 32 ≤ f ∨ (!second && !([rOTBASE, rFSROOT, rRMBASE, rHTBASE, rBDBASE].contains off)) then s
    else
      let s1 := if second then regSet s 0 off (s.ev.v &&& xlatMask rSSROOT) else regSet s f off (s.ev.v &&& xlatMask off)
      shootTenant s1 (fnTenant s f) true true

/-- TENCFG (operands: fn = the function configured, v): DEMTRAP and TSCOPE always; TENANT and PART only of a free function,
PART only with a mask of R252, and never for the physical function (R398). -/
def execTencfgWrite (s : State) : Out :=
  regWrite s fun s =>
    let f := s.ev.fn
    let v := s.ev.v
    let old := tencfg s f
    if 32 ≤ f then s
    else
      let w1 := setFld old 25 2 (fld v 25 2)
      let w2 := if fnState s f = 0 then setFld w1 8 8 (fld v 8 8) else w1
      let w3 := if decide (fnState s f = 0) && decide (f ≠ 0) && partMask (fld v 32 4) then setFld w2 32 4 (fld v 32 4) else w2
      regSet s 0 (rTENCFG f) w3

end Sys2Proof.Machine
end

