-- ==== Sys2Proof/Machine/Objects.lean ====
section
/-!
DEFINITION. Machine/Objects.lean: the update port: object-table and host-table entries, and answers to page faults (R329,
R330, R337, R346).
-/
namespace Sys2Proof.Machine

/-- The entry image of a command row. -/
def cmdImage (r : Row) : ObjEnt := ⟨rowElem r 64 4, rowElem r 64 5, rowElem r 64 6, rowElem r 64 7⟩

/-- Writes the four words of a table entry. -/
def writeEntry (s : State) (tenant a : Nat) (e : ObjEnt) : State :=
  let one (s : State) (p : Nat × Nat) : State :=
    match tenantPhys s tenant (a + 8 * p.1) with
    | .ok (k, _) => { s with mem := memWriteN s.mem k p.2 8 }
    | .error _ => s
  [(0, e.w0), (1, e.w1), (2, e.w2), (3, e.w3)].foldl one s

/-- A 16 KiB frame that a tenant names: present at the second stage where there is one, within its window, owned by it. -/
def frameGood (s : State) (tenant a : Nat) : Bool :=
  if ssEnabled s tenant then
    (match secondStage s tenant a with
     | .ok l =>
       let pa := l.addr + leafOffset l a
       decide (l.tgt = 0) && inWindow s tenant pa && frameOwned s tenant pa
     | .error _ => false)
  else inWindow s tenant a && frameOwned s tenant a

/-- The extents of a list, as pairs of frame address and frame count; none where an entry is malformed or unreadable. -/
def extentList (s : State) (tenant list : Nat) : Nat → Option (List (Nat × Nat))
  | 0 => some []
  | n + 1 =>
    match rdTable s tenant list, extentList s tenant (list + 8) n with
    | .ok e, some rest =>
      if bitsOf e 0 14 ≠ 0 ∨ bitsOf e 40 8 ≠ 0 ∨ bitsOf e 48 16 = 0 then none
      else some ((bitsOf e 14 26 * 16384, bitsOf e 48 16) :: rest)
    | _, _ => none

/-- The checks of R330 on an extent object. -/
def extentsGood (s : State) (tenant : Nat) (e : ObjEnt) : Bool :=
  match extentList s tenant e.xlist e.count with
  | none => false
  | some l => decide (e.size ≤ 16384 * (l.map (·.2)).sum) &&
      l.all fun x => (List.range x.2).all fun i => frameGood s tenant (x.1 + 16384 * i)

/-- What a port command waits for in the table and the extent list: a page of the second stage that is absent, or a frame still
to be pulled (R339, R413). -/
def listMiss (s : State) (tenant list : Nat) : Nat → Option XFail
  | 0 => none
  | n + 1 =>
    match rdTable s tenant list with
    | .error f => if f.cause = 0x06 then some f else none
    | .ok _ => listMiss s tenant (list + 8) n

/-- A port command that meets an absent page waits until it is there, and executes then; with the pager's queue off it is
refused, as a bad command is. -/
def portHold (s : State) (tenant fn : Nat) (f : XFail) : State :=
  if f.cause = 0x06 then
    match openFault s tenant f .load 0 0 with
    | (s1, some _) => s1
    | (s1, none) => portDone s1 fn 2
  else portDone s fn 2

/-- The entry that a SET leaves: GEN and TEXTUSE, which no command writes, stand as the table has them (R328, R329). -/
def keepRO (old new : ObjEnt) : ObjEnt :=
  { new with w1 := old.textuse * 2 ^ 48 + bitsOf new.w1 11 37 * 2 ^ 11 + old.gen }

/-- The only change that a SET may make to a valid entry: SIZE grows, RIGHTS change; GEN and TEXTUSE are fields like any other
(R329). -/
def setGrows (old img : ObjEnt) : Bool :=
  img.valid && decide (old.size ≤ img.size) && decide (img.w0 / 2 ^ 58 = old.w0 / 2 ^ 58) && decide (img.w1 = old.w1) &&
    decide (img.w2 = old.w2) && decide (img.w3 = old.w3)

/-- The code with which a SET is refused, 0 where it is not. `host` chooses the layout of R337. -/
def setCode (s : State) (tenant : Nat) (host : Bool) (old img : ObjEnt) : Nat :=
  let new := keepRO old img
  let good := if host then new.hostWellFormed else new.wellFormed
  if !good || (old.valid && !setGrows old img) then 2
  else if !host && new.paged && decide (2 ^ 48 < new.vbase * 16384 + new.size) then 2
  else if !host && !new.paged && !extentsGood s tenant new then 3
  else if old.textuse ≠ 0 ∧ hasRights new.rights rightW = true then 1
  else 0

/-- Every combined entry derived from an entry of a table goes, and the pins of the lines that it reached (R329, R347). -/
def dropDerived (s : State) (tenant space obj : Nat) : State :=
  shootDown s (fun e => decide (e.tenant = tenant) && decide (e.space = space) && decide (e.obj = obj))
    fun x => decide (x.tenant = tenant) && decide (x.obj = obj) && decide (space = 4)

/-- The marks of the second-stage entries that hold an object's extents fall (R330). -/
def releaseHeld (s : State) (tenant : Nat) (p : Nat → Bool) : State :=
  { s with xlat := { s.xlat with heldSS := s.xlat.heldSS.filter fun h => !(decide (h.1 = tenant) && p h.2.1) } }

/-- The second-stage entry of every frame of an extent object is held from a SET on (R330). -/
def markHeld (s : State) (tenant obj : Nat) (e : ObjEnt) : State :=
  let s1 := releaseHeld s tenant fun o => decide (o = obj)
  if ssEnabled s tenant && !e.paged then
    let l := (extentList s tenant e.xlist e.count).getD []
    let frames := (l.map fun x => (List.range x.2).map fun i => (tenant, obj, x.1 + 16384 * i)).flatten
    { s1 with xlat := { s1.xlat with heldSS := s1.xlat.heldSS ++ frames } }
  else s1

/-- SET of an object or a host window: a well-indexed entry takes the image; GEN and TEXTUSE stand. -/
def setEntry (host : Bool) (s : State) (fn : Nat) (r : Row) : State :=
  let tenant := fnTenant s fn
  let i := cmdIndex r
  let a := if host then hostEntAddr s tenant i else objEntAddr s tenant i
  if fnState s fn = 0 ∨ (if host then htcnt s tenant else otcnt s tenant) ≤ i then portDone s fn 2
  else match rdEntry s tenant a with
  | .error f => portHold s tenant fn f
  | .ok old =>
    let img := cmdImage r
    match (if host ∨ img.paged = true ∨ img.wellFormed = false then none else listMiss s tenant img.xlist img.count) with
    | some f => portHold s tenant fn f
    | none =>
      let c := setCode s tenant host old img
      if c ≠ 0 then portDone s fn c
      else
        let new := keepRO old img
        let s1 := dropDerived (writeEntry s tenant a new) tenant (if host then 6 else 4) i
        portDone (if host then s1 else markHeld s1 tenant i new) fn 0

/-- An object is named by an accepted, uncompleted launch, or by an installed handler. -/
def objectBusy (s : State) (tenant obj : Nat) : Bool :=
  (s.sched.launches.any fun l =>
    decide (l.tenant = tenant) && !l.completed &&
      (decide (l.text = obj) || decide (refObj l.doneObj.toNat = obj) || l.deps.any (fun d => decide (refObj d.1.toNat = obj)) ||
        decide (refObj (saveWord l).toNat = obj) || (decide (refObj l.rem.toNat = obj) && decide (obj ≠ 0)) || l.tabs.contains obj)) ||
  s.xlat.handlers.any fun h => decide (h.tenant = tenant) && (decide (h.text = obj) || (decide (h.data = obj) && decide (obj ≠ 0)))

/-- INVAL of an object or a host window: V falls and GEN advances. -/
def invalEntry (host : Bool) (s : State) (fn : Nat) (r : Row) : State :=
  let tenant := fnTenant s fn
  let i := cmdIndex r
  let a := if host then hostEntAddr s tenant i else objEntAddr s tenant i
  if fnState s fn = 0 ∨ (if host then htcnt s tenant else otcnt s tenant) ≤ i then portDone s fn 2
  else match rdEntry s tenant a with
  | .error f => portHold s tenant fn f
  | .ok old =>
    if !old.valid then portDone s fn 2
    else if !host && objectBusy s tenant i then portDone s fn 1
    else
      let new : ObjEnt :=
        { old with w0 := old.w0 % 2 ^ 63, w1 := old.w1 / 2 ^ 11 * 2 ^ 11 + (old.gen + 1) % 2 ^ 11 }
      let s1 := dropDerived (writeEntry s tenant a new) tenant (if host then 6 else 4) i
      portDone (if host then s1 else releaseHeld s1 tenant fun o => decide (o = i)) fn 0

/-- SET_OBJECT (operand: fn). -/
def execSetObject (s : State) : Out := onPort s s.ev.fn 1 fun r => setEntry false s s.ev.fn r
/-- INVAL_OBJECT (operand: fn). -/
def execInvalObject (s : State) : Out := onPort s s.ev.fn 2 fun r => invalEntry false s s.ev.fn r
/-- SET_HOST_ENTRY (operand: fn). -/
def execSetHostEntry (s : State) : Out := onPort s s.ev.fn 3 fun r => setEntry true s s.ev.fn r
/-- INVAL_HOST_ENTRY (operand: fn). -/
def execInvalHostEntry (s : State) : Out := onPort s s.ev.fn 4 fun r => invalEntry true s s.ev.fn r

/-- RESOLVE (operand: fn): retry or fail for the fault that holds the tag, which this function's pager serves. -/
def execResolve (s : State) : Out :=
  let fn := s.ev.fn
  onPort s fn 5 fun r =>
    let how := (rowByte r 32).toNat
    match s.xlat.faults.find? fun p => decide (p.tag = fld r 48 16) && decide (p.pager = fn) && p.written && !p.pull with
    | none => portDone s fn 2
    | some p => if 1 < how then portDone s fn 2 else portDone (answerFault s p (if how = 1 then 0x06 else 0)) fn 0

end Sys2Proof.Machine
end

