-- ==== Sys2Proof/Machine/Tenants.lean ====
section
/-!
DEFINITION. Machine/Tenants.lean: the tenant port: activation, reset, teardown (R400, R408 to R410), frames and the scrubber
(R404 to R406), groups (R383 to R385), and live moves (R411 to R415).
-/
namespace Sys2Proof.Machine

/-- Sets STATE of a function (R398). -/
def setFnState (s : State) (f st : Nat) : State := regSet s 0 (rTENCFG f) (setFld (tencfg s f) 30 2 st)

/-! ### Frames (R404 to R406) -/

/-- The four blocks of a 16 KiB frame, as stack and block number; none where one lies outside every window. -/
def frameBlocks (s : State) (a : Nat) : Option (List (Nat × Nat)) :=
  let l := (List.range 4).filterMap fun i => blockOf s (a + 4096 * i)
  if l.length = 4 then some l else none

/-- The frames of a scrubber command, each with its blocks; none where the command is refused with status 2. -/
def cmdFrames (s : State) (q addr n : Nat) : Option (List (Nat × List (Nat × Nat))) :=
  let (b, size) := windowOf s q
  if addr % 16384 ≠ 0 ∨ n = 0 ∨ addr < b ∨ b + size < addr + 16384 * n then none
  else
    let l := (List.range n).filterMap fun i => (frameBlocks s (addr + 16384 * i)).map fun x => (addr + 16384 * i, x)
    if l.length = n then some l else none

def blkState (s : State) (p : Nat × Nat) : Nat := fld (frameRec s p.1 p.2) 0 2
def blkOwner (s : State) (p : Nat × Nat) : Nat := fld (frameRec s p.1 p.2) 8 8
/-- A block in a state, with its owner and its mark. -/
def setBlk (s : State) (p : Nat × Nat) (owner pend st : Nat) : State :=
  setFrameRec s p.1 p.2 (BitVec.ofNat 32 (fld (frameRec s p.1 p.2) 16 16 * 2 ^ 16 + owner * 256 + pend * 4 + st))

/-- Whether a device frame lies in the extent list of a valid object of its owner, or a second-stage entry that maps it is held
(R330, R405). -/
def frameInExtent (s : State) (tenant a : Nat) : Bool :=
  let dev (x : Nat) : Option Nat := (tenantHbm s tenant x).map (· / 16384)
  (s.xlat.heldSS.any fun h => decide (h.1 = tenant) && decide (dev h.2.2 = some (a / 16384))) ||
  hasFn s tenant && (List.range (otcnt s tenant)).any fun i =>
    match objOf? s tenant i with
    | none => false
    | some e => !e.paged &&
      (match extentList s tenant e.xlist e.count with
       | none => false
       | some l => l.any fun x => (List.range x.2).any fun j => decide (dev (x.1 + 16384 * j) = some (a / 16384)))

/-- A key of device memory lies in a block. -/
def inBlock (p : Nat × Nat) (k : Nat) : Bool := decide (hbmKey p.1 (4096 * p.2) ≤ k) && decide (k < hbmKey p.1 (4096 * p.2) + 4096)

/-- Frees a block: its translations go, the updates that its cores still rest are performed, and its scrub falls due. -/
def freeBlock (s : State) (p : Nat × Nat) : State :=
  let has (a : Nat) : Bool := match frameBlocks s (a / 16384 * 16384) with | some l => l.contains p | none => false
  let s1 := shootDown s (fun e => decide (e.tgt = 0) && has e.frame) fun x =>
    inBlock p (128 * x.line) || (match tenantHbm s x.tenant x.gpa with | some a => has a | none => false)
  let s2 := setBlk (flushWhere s1 fun r => inBlock p r.key) p 0 0 2
  { s2 with agenda := s2.agenda ++ [.event .blockScrub { kind := p.1, unit := p.2 }] }

/-- BLOCK_SCRUB (operands: kind = stack, unit = block): a freed block starts its scrub once no held reduction touches it;
then it is zeroed everywhere, and is clean (R406). -/
def execBlockScrub (s : State) : Out :=
  let p := (s.ev.kind, s.ev.unit)
  match blkState s p with
  | 2 =>
    let s1 := keyedSettle s
    if s1.keyed.any fun k => inBlock p k.key then .next s1
    else
      let s2 := setBlk s1 p 0 0 3
      .next { s2 with agenda := s2.agenda ++ [.event .blockScrub { kind := p.1, unit := p.2 }] }
  | 3 =>
    let s1 := zeroKeys s (hbmKey p.1 (4096 * p.2)) 4096
    let stamp := fld (frameRec s p.1 p.2) 16 16
    let s2 := setFrameRec s1 p.1 p.2 (BitVec.ofNat 32 ((stamp + 1) % 2 ^ 16 * 2 ^ 16))
    .next { s2 with xlat := { s2.xlat with pins := s2.xlat.pins.filter fun x => !inBlock p (128 * x.line) } }
  | _ => .next s

/-- Address, count and owner of a scrubber command. -/
def scAddr (r : Row) : Nat := rowElem r 64 4
def scCount (r : Row) : Nat := rowElem r 32 10
def scOwner (r : Row) : Nat := (rowByte r 44).toNat

/-- A command of a scrubber port, on the blocks of its frames. -/
def scrubCmd (s : State) (op : Nat) (act : Nat → Row → List (Nat × List (Nat × Nat)) → State) : Out :=
  let id := 33 + s.ev.idx
  if 4 ≤ s.ev.idx then .next s
  else onPort s id op fun r =>
    match cmdFrames s s.ev.idx (scAddr r) (scCount r) with
    | none => portDone s id 2
    | some l => act id r l

/-- ASSIGN (operand: idx = quarter). -/
def execAssign (s : State) : Out :=
  scrubCmd s 1 fun id r l =>
    let bs := (l.map (·.2)).flatten
    if bs.any fun b => decide (blkState s b ≠ 0) then portDone s id 3
    else portDone (bs.foldl (fun s b => setBlk s b (scOwner r) 0 1) s) id 0

/-- FREE (operand: idx = quarter). -/
def execFree (s : State) : Out :=
  scrubCmd s 2 fun id _ l =>
    let bs := (l.map (·.2)).flatten
    if bs.any fun b => decide (blkState s b ≠ 1) || s.host.withdrawn.any fun w => decide (w.1 = b.1) && decide (w.2.1 = b.2) then portDone s id 3
    else if l.any fun x => x.2.any fun b => frameInExtent s (blkOwner s b) x.1 then portDone s id 1
    else portDone (bs.foldl freeBlock s) id 0

/-- PULLMARK (operand: idx = quarter). -/
def execPullmark (s : State) : Out :=
  scrubCmd s 3 fun id _ l =>
    let bs := (l.map (·.2)).flatten
    if bs.any fun b => decide (blkState s b ≠ 1) then portDone s id 2
    else portDone (bs.foldl (fun s b => setBlk s b (blkOwner s b) 1 1) s) id 0

/-- QUERY (operand: idx = quarter): the four records of the first frame, in the order of its blocks. -/
def execQuery (s : State) : Out :=
  scrubCmd s 4 fun id _ l =>
    let bs := (l.head?.map (·.2)).getD []
    portReturn s id (mapNth (fun i b => (frameRec s b.1 b.2).toNat * 2 ^ (32 * i)) 0 bs).sum

/-- Every block that a tenant owns, but for withdrawn ones, which are never freed (R423). -/
def ownedBlocks (s : State) (tenant : Nat) : List (Nat × Nat) :=
  (s.xlat.frames.filter fun x => decide (fld x.2 0 2 = 1) && decide (fld x.2 8 8 = tenant)).map (fun x => (x.1 / 2 ^ 24, x.1 % 2 ^ 24)) |>.filter
    fun b => !(s.host.withdrawn.any fun w => decide (w.1 = b.1) && decide (w.2.1 = b.2))

/-! ### Groups (R383, R385, R438) -/

/-- MEMBER_RETURN_TIMEOUT (operand: idx = device): a resting member that has not returned is withdrawn from every group. -/
def execMemberReturnTimeout (s : State) : Out :=
  let dev := s.ev.idx
  .next (endExchange ((s.fabric.groups.filter fun g => g.live && g.resting.contains dev && g.members.contains dev).foldl
    (fun s g => withdrawMember s g dev) s))

/-- GALLOC: the lowest free number is bound; the identifier is returned. -/
def execGalloc (s : State) : Out :=
  onPort s 37 1 fun r =>
    match Config.groupImage r with
    | none => portDone s 37 2
    | some (tenant, kind, members, dones) =>
      if members = [] ∨ 64 < members.length ∨ dones.length ≠ members.length ∨ 2 ≤ kind then portDone s 37 2
      else match (List.range 4096).find? fun n => !(s.fabric.groups.any fun g => decide (g.num = n) && g.live) with
      | none => portDone s 37 1
      | some n =>
        let gen := ((s.fabric.groups.find? fun g => decide (g.num = n)).map (·.gen)).getD 0
        let g : Group :=
          { num := n, gen := gen, tenant := tenant, kind := kind, members := members, dones := dones, live := true, steps := 0,
            performed := [], resting := [], kept := [], withdrawn := false, gone := [] }
        let l := s.fabric.groups.filter (fun x => decide (x.num < n)) ++ g :: s.fabric.groups.filter fun x => decide (n < x.num)
        portReturn { s with fabric := { s.fabric with groups := l } } 37 (groupId g)

/-- GRELEASE: the number is free and its generation advances, once no station of any member has a packet of the identifier
outstanding; what the stations of other devices report is a free value (log 72). -/
def execGrelease (s : State) : Out :=
  onPort s 37 2 fun r =>
    match s.fabric.groups.find? fun g => decide (g.num = cmdIndex r) && g.live with
    | none => portDone s 37 2
    | some g =>
      if (s.fabric.msgs.any fun m => m.peer.testBit 62 && decide (bitsOf m.peer 4 12 = g.num)) || !g.kept.isEmpty then portDone s 37 1
      else if (g.members.any fun d => decide (d ≠ Config.deviceNumber)) && Config.memberOutstanding s.freeCtr then
        portDone { s with freeCtr := s.freeCtr + 1 } 37 1
      else portDone (setGroup s { g with live := false, gen := (g.gen + 1) % 16 }) 37 0

/-! ### Reset and teardown (R386, R408, R409) -/

/-- A launch is discarded: no increment, its text is no longer named by it. -/
def discardLaunch (s : State) (l : Launch) : State :=
  let s1 := if l.completed then s else addTextUse (dropExchanges s l.id) l.tenant l.text false
  { s1 with sched := { s1.sched with
      launches := s1.sched.launches.filter (fun x => decide (x.id ≠ l.id))
      queued := s1.sched.queued.filter (fun p => decide (p.2 ≠ l.id))
      saved := s1.sched.saved.filter (fun x => decide (x.launch ≠ l.id))
      pipes := s1.sched.pipes.filter fun p => decide (p.1 ≠ l.id) } }

/-- Discards a tenant's records, crews, contexts and launches (R408 steps 1 and 2). A reduction of a discarded crew that still
rests in its core has reached no unit and goes with it; one that is held for its key is still applied, in key order (R58). -/
def discardWork (s : State) (tenant : Nat) : State :=
  let qs := (List.range 64).filter fun q => decide (fld (regGet s 0 (rLQCFG q)) 8 8 = tenant)
  let s1 := qs.foldl (fun s q => regSet s 0 (rLQCFG q) (setBit (regGet s 0 (rLQCFG q)) 0 false)) s
  let s2 : State := { s1 with sched := { s1.sched with
    arrivals := s1.sched.arrivals.filter (fun x => !qs.contains x.queue)
    ready := s1.sched.ready.filter (fun q => !qs.contains q)
    late := s1.sched.late.filter fun x => decide (x.1 ≠ tenant)
    textLate := s1.sched.textLate.filter fun x => decide (x.1 ≠ tenant) } }
  let mine := s2.crews.filter fun p => decide (p.2.tenant = tenant)
  let drop (s : State) (p : Nat × Crew) : State :=
    freeSlot (drainErrs s (p.1 / 2) (p.1 % 2)) (p.1 / 2) (p.1 % 2)
  let ofTenant (launch : Nat) : Bool := s2.sched.launches.any fun l => decide (l.id = launch) && decide (l.tenant = tenant)
  let s3 := mine.foldl drop { s2 with resting := s2.resting.filter fun r => !(r.owners.all fun o => ofTenant o.1) }
  let s4 := (s3.sched.launches.filter fun l => decide (l.tenant = tenant)).foldl discardLaunch s3
  let tags := (s4.xlat.faults.filter fun p => decide (p.tenant = tenant)).map (·.tag)
  let s5 : State := { s4 with xlat := { s4.xlat with faults := s4.xlat.faults.filter fun p => decide (p.tenant ≠ tenant) } }
  let s6 := (s5.host.copies.filter fun h => tags.any fun t => decide (h.heldBy = some t)).foldl (fun s h => endCopy s h true) s5
  keyedSettle s6

/-- The function's identifier is marked draining: what has not yet been forwarded is dropped and counted (R386). -/
def startDrain (s : State) (f : Nat) : State :=
  let cid := cidOf s (fnTenant s f)
  let gone (m : FabMsg) : Bool :=
    decide (m.cid = cid) && (if m.inbound then decide (m.phase = 0) else (decide (m.phase = 0) && m.expires.isNone) || decide (m.phase ≠ 0))
  let s1 := s.fabric.links.foldl (fun s k => dropWaiting s cid k) s
  { s1 with
    fabric := { s1.fabric with draining := s1.fabric.draining.filter (· ≠ cid) ++ [cid]
                               msgs := s1.fabric.msgs.filter (fun m => !gone m)
                               dropped := s1.fabric.dropped + (s1.fabric.msgs.filter gone).length }
    agenda := s1.agenda ++ [.event .cidDrainComplete { fn := f }] }

/-- Steps 1 to 4 of R408 for a function. -/
def beginReset (s : State) (f : Nat) : State :=
  let tenant := fnTenant s f
  let s1 := discardWork (setFnState s f 2) tenant
  let s2 := (s1.fabric.groups.filter fun g => g.live && decide (g.tenant = tenant) && !g.withdrawn).foldl
    (fun s g => withdrawMember s g Config.deviceNumber) s1
  startDrain s2 f

/-- Every stop and station reports zero outstanding for an identifier. -/
def drained (s : State) (cid : Nat) : Bool :=
  !(s.fabric.msgs.any fun m => decide (m.cid = cid)) &&
    !(s.fabric.links.any fun k => (k.pending.map (·.1) ++ k.unacked).any (fun p => decide (p.cid = cid)) ||
      k.flight.any fun p => decide (rowBytes p.header 2 2 = cid))

/-- Every valid object-table entry of a tenant falls and its generation advances (R409). -/
def invalidateAll (s : State) (tenant : Nat) : State :=
  (List.range (otcnt s tenant)).foldl (fun s i =>
    match rdEntry s tenant (objEntAddr s tenant i) with
    | .ok e =>
      if e.valid then
        writeEntry s tenant (objEntAddr s tenant i)
          { e with w0 := e.w0 % 2 ^ 63, w1 := e.w1 / 2 ^ 11 * 2 ^ 11 + (e.gen + 1) % 2 ^ 11 }
      else s
    | .error _ => s) s

/-- Slice groups and crew slots that admit only a tenant become open, the groups' Commons zeroed (R409 step 3). -/
def openSoft (s : State) (tenant : Nat) : State :=
  let group (s : State) (i : Nat) : State :=
    let r := regGet s 0 (rSPSLICE (i / 8) (i % 8))
    if !r.getLsbD 8 && decide (fld r 0 8 = tenant) then
      regSet (zeroGroup s (i / 8) (i % 8)) 0 (rSPSLICE (i / 8) (i % 8)) (setBit r 8 true) else s
  let core (s : State) (c : Nat) : State :=
    let one (r : Word) (sl : Nat) : Word := if !r.getLsbD (16 + sl) && decide (fld r (8 * sl) 8 = tenant) then setBit r (16 + sl) true else r
    regSet s 0 (rSPCORE c) (one (one (regGet s 0 (rSPCORE c)) 0) 1)
  (List.range 256).foldl core ((List.range 64).foldl group s)

/-- The generation of a function's identifier advances, and the tenant's combined entries go. -/
def advanceGen (s : State) (f : Nat) : State :=
  let tenant := fnTenant s f
  let cid := cidOf s tenant
  let s1 := regSet s 0 (rTENCFG f) (setFld (tencfg s f) 16 8 (fnGen s f + 1))
  let s2 : State := { s1 with fabric := { s1.fabric with draining := s1.fabric.draining.filter (· ≠ cid) } }
  shootDown s2 (fun e => decide (e.tenant = tenant)) fun x => decide (x.tenant = tenant)

/-- The steps of R409 after R408's step 6. -/
def finishTeardown (s : State) (f : Nat) : State :=
  let tenant := fnTenant s f
  let s1 := releaseHeld (invalidateAll s tenant) tenant fun _ => true
  let s2 := (ownedBlocks s1 tenant).foldl freeBlock s1
  let s3 := openSoft s2 tenant
  let s4 := [rOTBASE, rFSROOT, rRMBASE, rHTBASE, rBDBASE].foldl (fun s r => regSet s f r 0) (regSet s3 0 (rSSROOTf f) 0)
  let s5 : State := { s4 with
    xlat := { s4.xlat with handlers := s4.xlat.handlers.filter fun h => decide (h.tenant ≠ tenant) }
    host := { s4.host with moves := s4.host.moves.filter (fun v => decide (v.fn ≠ f))
                           withdrawn := s4.host.withdrawn.map fun w => if w.2.2 = tenant then (w.1, w.2.1, 0) else w } }
  setFnState s5 f 0

/-- The tenant-port command that executes for a function; 0 for none. -/
def portOpFor (s : State) (f : Nat) : Nat :=
  let p := portOf s 32
  if p.run && p.begun && decide (cmdFn p.latched = f) then cmdOp p.latched else 0

/-- CID_DRAIN_COMPLETE (operand: fn): no stop or station has anything left of the identifier; the generation advances and
the command that drained it goes on to its end: reset, teardown or release. -/
def execCidDrainComplete (s : State) : Out :=
  let f := s.ev.fn
  let tenant := fnTenant s f
  if fnState s f ≠ 2 ∨ drained s (cidOf s tenant) = false then .next s
  else
    let op := portOpFor s f
    let s1 := advanceGen s f
    if op = 3 then .next (portDone (finishTeardown s1 f) 32 0)
    else if op = 6 then
      let s2 := (ownedBlocks s1 tenant).foldl freeBlock s1
      let s3 : State := { s2 with host := { s2.host with moves := s2.host.moves.filter fun v => decide (v.fn ≠ f) } }
      .next (portDone (setFnState s3 f 0) 32 0)
    else
      let s2 : State := { s1 with host := { s1.host with moves := s1.host.moves.filter fun v => decide (v.fn ≠ f) } }
      let s3 := setFnState (eqPost s2 f [errRow s2 3 0 0 none]) f 1
      .next (if op = 0 then s3 else portDone s3 32 (if op = 2 then 0 else 2))

/-- A tenant-port command on its function: its start, and how it goes on once it has begun. -/
def tenantCmd (s : State) (op : Nat) (start again : Row → Nat → State) : Out :=
  onPort s 32 op fun r => if (portOf s 32).begun then again r (cmdFn r) else start r (cmdFn r)

/-- Whether a mask is a hard partition as the package now stands (R393). -/
def isPartition (s : State) (m : Nat) : Bool := partMask m && (List.range 4).all fun q => !m.testBit q || decide (pmaskOf s q = m)

/-- The tenant number of a function is held by another whose STATE is not free. -/
def tenantTaken (s : State) (f : Nat) : Bool :=
  (List.range 32).any fun g => decide (g ≠ f) && decide (fnState s g ≠ 0) && decide (fnTenant s g = fnTenant s f)

/-- ACTIVATE may make a free function active. -/
def mayActivate (s : State) (f : Nat) : Bool :=
  decide (fnState s f = 0) && !tenantTaken s f && (decide (f = 0) || isPartition s (fnPart s f))

/-- ACTIVATE. -/
def execActivate (s : State) : Out :=
  tenantCmd s 1 (fun _ f => if mayActivate s f then portDone (setFnState s f 1) 32 0 else portDone s 32 2) fun _ _ => s

/-- RESET and TEARDOWN start alike, from active or frozen; CID_DRAIN_COMPLETE ends them. -/
def resetCmd (s : State) (op : Nat) : Out :=
  tenantCmd s op (fun _ f => if fnState s f = 1 ∨ fnState s f = 3 then beginReset (portBegin s 32) f else portDone s 32 2)
    fun _ _ => s

/-- RESET. -/
def execReset (s : State) : Out := resetCmd s 2
/-- TEARDOWN. -/
def execTeardown (s : State) : Out := resetCmd s 3

/-- FUNCTION_LEVEL_RESET (operand: fn): RESET of a virtual function, or of every active function, after which the physical
function's own submission queue restarts (R429). -/
def execFunctionLevelReset (s : State) : Out :=
  let f := s.ev.fn
  if !regsAnswer s ∨ 32 ≤ f then .next s
  else if f = 0 then
    .next (((List.range 32).filter fun g => decide (fnState s g = 1)).foldl beginReset (stopFetch s 0))
  else if fnState s f = 1 ∨ fnState s f = 3 then .next (beginReset (stopFetch s f) f)
  else .next (stopFetch s f)

/-! ### Live moves (R411 to R415) -/

def moveOf (s : State) (f : Nat) (target : Bool) : Option Move :=
  s.host.moves.find? fun v => decide (v.fn = f) && decide (v.target = target)
def setMove (s : State) (v : Move) : State :=
  { s with host := { s.host with moves := s.host.moves.map fun x => if x.fn = v.fn ∧ x.target = v.target then v else x } }
def addMove (s : State) (v : Move) : State :=
  { s with host := { s.host with moves := s.host.moves.filter (fun x => !(decide (x.fn = v.fn) && decide (x.target = v.target))) ++ [v] } }
def allPulled (v : Move) : Bool := v.pulls.all fun p => p.2.2

/-- No open exchange of a tenant's launches. -/
def exchangesClosed (s : State) (tenant : Nat) : Bool :=
  !(s.fabric.exchanges.any fun x => x.opened && decide (x.failed = 0) &&
    (match launchById s x.launch with | some l => decide (l.tenant = tenant) | none => false))

/-- The contexts of a tenant that belong to one migration-level unit are restored together (R315, R355, R412 step 4). -/
def regroup (s : State) (tenant : Nat) : State :=
  let join (x : SavedCtx) : SavedCtx :=
    match launchById s x.launch with
    | some l => if l.tenant = tenant ∧ 1 < levelUnit l l.migl then { x with group := some (migUnit l x.rank) } else x
    | none => x
  { s with sched := { s.sched with saved := s.sched.saved.map join } }

/-- Saves as KIND 6 every crew of a tenant that is ready for it. -/
def freezeCrews (s : State) (tenant : Nat) : State :=
  let s1 := (s.crews.filter fun p => decide (p.2.tenant = tenant)).foldl (fun s p =>
    match asGet s.crews p.1 with
    | some c =>
      if mayStop s (p.1 / 2) (p.1 % 2) c && saveReady s (p.1 / 2) (p.1 % 2) c then
        saveCrew s (p.1 / 2) (p.1 % 2) (kindNow s 6) 0 none else s
    | none => s) s
  regroup s1 tenant

/-- FREEZE goes on: once every exchange has closed the crews are saved, and it completes when none is left. -/
def freezeOn (s : State) (tenant : Nat) : State :=
  let s1 := if exchangesClosed s tenant then freezeCrews s tenant else s
  if s1.crews.any fun p => decide (p.2.tenant = tenant) then s1 else portDone s1 32 0

/-- FREEZE: the function is frozen at once for placement, and the stub for its old identifier stands from now on. -/
def execFreeze (s : State) : Out :=
  tenantCmd s 4
    (fun r f =>
      let arg := Config.freezeArgument r
      if fnState s f ≠ 1 then portDone s 32 2
      else if (moveOf s f true).any fun v => !allPulled v then portDone s 32 1
      else
        freezeOn (addMove (setFnState (portBegin s 32) f 3)
          { fn := f, peerDev := arg.1, peerFn := arg.2, target := false, pulls := [], transferred := false, resumed := false,
            stubs := [cidOf s (fnTenant s f)], newCid := 0 }) (fnTenant s f))
    fun _ f => freezeOn s (fnTenant s f)

/-- The pairs of a pull list (R411). -/
def pullList (s : State) (obj : Nat) : List (Nat × Nat × Bool) :=
  match objOf? s 0 obj with
  | none => []
  | some e => (Config.pullPairs ((extentRows s 0 obj 0 (e.size / 64)).getD [])).map fun p => (p.1, p.2, false)

/-- ADMIT: the function becomes active and waits for the contexts. -/
def execAdmitMove (s : State) : Out :=
  tenantCmd s 5
    (fun r f =>
      let arg := Config.admitArgument r
      if mayActivate s f then
        let s1 := setFnState (portBegin s 32) f 1
        addMove s1
          { fn := f, peerDev := arg.1, peerFn := arg.2.1, target := true, pulls := pullList s arg.2.2, transferred := false,
            resumed := false, stubs := [], newCid := cidOf s1 (fnTenant s f) }
      else portDone s 32 2)
    fun _ _ => s

/-- The address in the target's frames of an address of device memory, as the pull list pairs frames. -/
def targetAddr (pulls : List (Nat × Nat)) (a : Nat) : Option Nat :=
  (pulls.find? fun p => decide (p.2 / 16384 = a / 16384)).map fun p => p.1 / 16384 * 16384 + a % 16384

/-- The same for a key of device memory. -/
def targetOfKey (s : State) (pulls : List (Nat × Nat)) (key : Nat) : Option Nat :=
  pulls.findSome? fun p => ((List.range 4).find? fun i =>
    decide (physKey s (p.2 / 16384 * 16384 + 4096 * i) / 4096 = key / 4096)).map fun i => p.1 / 16384 * 16384 + 4096 * i + key % 4096

/-- The rows of a saved context's record, at the target's addresses, and which of them are marked. -/
def recordSent (s : State) (pulls : List (Nat × Nat)) (x : SavedCtx) : List (Nat × Row × Bool) :=
  match launchById s x.launch with
  | none => []
  | some l =>
    (List.range (recRowCount l)).filterMap fun i =>
      match extentKey s l.tenant (fld (saveWord l) 40 24) (recOffset l x.rank i) with
      | none => none
      | some k => (targetOfKey s pulls k).map fun a => (a, BitVec.ofNat 512 (readUnit s k 64), isPoisoned s k)

/-- What the source sends of a frozen tenant (R412 step 3): its launches with their copied tables, queue records, contexts with
their records, handlers and translation registers, and the reductions that wait for their keys (R58, R416). -/
def moveImage (s : State) (f : Nat) (pulls : List (Nat × Nat)) (newCid : Nat) : MoveImage :=
  let tenant := fnTenant s f
  let ls := s.sched.launches.filter fun l => decide (l.tenant = tenant)
  let num (id : Nat) : Option Nat := ls.findIdx? fun l => decide (l.id = id)
  let saved := s.sched.saved.filter fun x => (num x.launch).isSome
  let rows := (saved.map (recordSent s pulls)).flatten
  { launches := mapNth (fun i l => { l with id := i }) 0 ls
    queued := s.sched.queued.filterMap fun p => (num p.2).map fun i => (p.1, i)
    saved := saved.filterMap fun x => (num x.launch).map fun i => { x with launch := i }
    handlers := s.xlat.handlers.filter fun h => decide (h.tenant = tenant)
    regs := [rOTBASE, rFSROOT, rRMBASE, rHTBASE, rBDBASE].map fun r => (r, regGet s f r)
    rows := rows.map fun r => (r.1, r.2.1)
    marks := (rows.filter fun r => r.2.2).map (·.1)
    pulls := pulls, newCid := newCid
    keyed := s.keyed.filterMap fun k =>
      match num k.launch, targetOfKey s pulls k.key with
      | some i, some a => some { k with launch := i, key := a }
      | _, _ => none
    keyedDone := s.keyedDone.filterMap fun k => (num k.launch).map fun i => { k with launch := i } }

/-- What arrives at the target: launches, contexts, held reductions, handlers, registers and context records (R412 steps 3 and 4,
R58). -/
def receiveMove (s : State) (f : Nat) (v : Move) (x : MoveImage) : State :=
  let tenant := fnTenant s f
  let base := s.sched.nextLaunch
  let ls : List Launch := x.launches.map fun l => { l with id := base + l.id, fn := f, tenant := tenant }
  let cs : List SavedCtx := mapNth (fun i c => { c with launch := base + c.launch, order := s.sched.nextOrder + i }) 0 x.saved
  let s0 := x.rows.foldl (fun s r => writeUnit s (physKey s r.1) 64 r.2.toNat) s
  let s1 := x.marks.foldl (fun s a => poisonKey s (physKey s a)) s0
  let s2 := x.regs.foldl (fun s r => if [rOTBASE, rFSROOT, rRMBASE, rHTBASE, rBDBASE].contains r.1 then regSet s f r.1 (r.2 &&& xlatMask r.1) else s) s1
  let s3 : State := { s2 with
    sched := { s2.sched with
      launches := s2.sched.launches ++ ls, nextLaunch := x.launches.foldl (fun n l => max n (base + l.id + 1)) base
      queued := s2.sched.queued ++ x.queued.map (fun p => (p.1, base + p.2))
      saved := s2.sched.saved ++ cs, nextOrder := s2.sched.nextOrder + x.saved.length }
    xlat := { s2.xlat with handlers := s2.xlat.handlers ++ x.handlers.map fun h => { h with tenant := tenant } }
    keyed := s2.keyed ++ x.keyed.map (fun k => { k with launch := base + k.launch, key := physKey s k.key })
    keyedDone := s2.keyedDone ++ x.keyedDone.map fun k => { k with launch := base + k.launch } }
  let s4 := setMove (regroup (shootTenant s3 tenant true true) tenant) { v with transferred := true, resumed := true, image := some x }
  if portOpFor s4 f = 5 then portDone s4 32 0 else s4

/-- LIVE_MOVE_TRANSFER (operands: fn, image, flag): at the target, what the source sends; at the source, with an image that bears
the target's pull list and identifier it sends its contexts and tables, and with `flag` it has the word that the target restores the
crews: they have left. -/
def execLiveMoveTransfer (s : State) : Out :=
  let f := s.ev.fn
  match moveOf s f true, moveOf s f false with
  | some v, _ =>
    (match s.ev.image with
     | some x => .next (if v.transferred then s else receiveMove s f v x)
     | none => .next s)
  | none, some v =>
    if s.ev.flag then
      (if v.transferred && !v.resumed then
         let tenant := fnTenant s f
         let gone := s.sched.launches.filter fun l => decide (l.tenant = tenant)
         let left (launch : Nat) : Bool := !(gone.any fun l => decide (l.id = launch))
         let s1 : State := { s with keyed := s.keyed.filter (fun k => left k.launch), keyedDone := s.keyedDone.filter fun k => left k.launch }
         .next (setMove (gone.foldl discardLaunch s1) { v with resumed := true })
       else .next s)
    else
      (match s.ev.image with
       | some x =>
         if v.transferred || s.crews.any (fun p => decide (p.2.tenant = fnTenant s f)) then .next s
         else .next (setMove s { v with transferred := true, pulls := x.pulls.map (fun p => (p.1, p.2, false)), newCid := x.newCid
                                        image := some (moveImage s f x.pulls x.newCid) })
       | none => .next s)
  | none, none => .next s

/-- Faults that a frame still to be pulled holds. -/
def pullFaults (s : State) (frame : Nat) : List PageFault :=
  s.xlat.faults.filter fun p => p.pull && decide (p.addr / 16384 = frame / 16384)

/-- A late increment waits for a frame, or for a walk that meets none. -/
def lateAt (s : State) (frame : Nat) (x : Nat × Word × Nat × Bool × Option Nat) : Bool :=
  match lookupObj s x.1 (refObj x.2.1.toNat) with
  | .error _ => true
  | .ok e =>
    match extentAt s x.1 e.xlist (refOff x.2.1.toNat) e.count with
    | .error _ => true
    | .ok a => decide ((tenantHbm s x.1 a).map (· / 16384) = some (frame / 16384))

/-- Whether something waits for a frame: it is then pulled before its turn in the pull list (R413). -/
def frameWanted (s : State) (frame : Nat) : Bool := !(pullFaults s frame).isEmpty || s.sched.late.any (lateAt s frame)

/-- Increments that wait for a frame whose source has gone are lost, each with its record (R325, R410). -/
def loseLate (s : State) (frame : Nat) : State :=
  let at_ := lateAt s frame
  let lost := s.sched.late.filter at_
  lost.foldl (fun s x => lostIncrement s x.1 x.2.1 x.2.2.1 x.2.2.2.1)
    { s with sched := { s.sched with late := s.sched.late.filter fun x => !at_ x } }

/-- The bytes of a pulled frame land, marked rows poisoned (R421); rows of a record that came with the contexts stand, since the
target may have changed them (DEDUCED, log 115). -/
def landFrame (s : State) (v : Move) (frame : Nat) (rows : List Row) (marks : List Nat) : State :=
  let brought (k : Nat) : Bool := match v.image with
    | some x => x.rows.any fun r => decide (r.1 / 64 = frame / 64 + k)
    | none => false
  ((List.range 256).filter fun k => !brought k).foldl (fun s k =>
    landUnit s (physKey s (frame + 64 * k)) 64 (rows.getD k 0).toNat (marks.contains k)) s

/-- PULL_FRAME (operands: fn, idx = number in the pull list, rows = the frame's bytes, marks = its marked rows, flag = the source
answered void): at the target, where something waits for the frame or the list comes to it, the bytes land once, PEND falls and what
waited goes on; at the source what has been accepted for the frame is performed, its bytes are sent, once, and the frame has been
given away (R413). -/
def execPullFrame (s : State) : Out :=
  let f := s.ev.fn
  let i := s.ev.idx
  match moveOf s f true, moveOf s f false with
  | some v, _ =>
    (match v.pulls[i]? with
     | none => .next s
     | some (frame, from_, got) =>
       if got then .next s
       else if !frameWanted s frame && (v.pulls.take i).any (fun p => !p.2.2) then .next s
       else if s.ev.flag then .next ((pullFaults s frame).foldl (fun s p => answerFault s p 0x11) (loseLate s frame))
       else
         let s1 := landFrame s v frame s.ev.rows s.ev.marks
         let bs := (frameBlocks s1 frame).getD []
         let s2 := bs.foldl (fun s b => setFrameRec s b.1 b.2 (setBit (frameRec s b.1 b.2) 2 false)) s1
         let s3 := setMove s2 { v with pulls := setNth v.pulls i (frame, from_, true) }
         .next (keyedSettle (retryLate ((pullFaults s3 frame).foldl (fun s p => answerFault s p 0) s3))))
  | none, some v =>
    (match v.pulls[i]? with
     | none => .next s
     | some (frame, from_, got) =>
       let bs := (frameBlocks s from_).getD []
       let s1 := flushWhere s fun r => bs.any fun b => inBlock b r.key
       let key (k : Nat) : Nat := physKey s1 (from_ + 64 * k)
       let sent := (frame, (List.range 256).map fun k => BitVec.ofNat 512 (readUnit s1 (key k) 64),
         (List.range 256).filter fun k => isPoisoned s1 (key k))
       .next (if v.transferred && !got then
         setMove s1 { v with pulls := setNth v.pulls i (frame, from_, true), sent := v.sent ++ [sent] }
         else s))
  | none, none => .next s

/-- STUB_CLEAR (operand: fn): the stub entry of the old identifier is cleared (R414). -/
def execStubClear (s : State) : Out :=
  match moveOf s s.ev.fn false with
  | none => .next s
  | some v => .next (setMove s { v with stubs := [] })

/-- RELEASE: busy while a frame has not been pulled or a stub entry stands; then the identifier drains, the frames are freed
and the function is free. -/
def execRelease (s : State) : Out :=
  tenantCmd s 6
    (fun _ f =>
      if fnState s f ≠ 3 then portDone s 32 2
      else if (moveOf s f false).any fun v => v.transferred && allPulled v && v.stubs.isEmpty then
        startDrain (discardWork (setFnState (portBegin s 32) f 2) (fnTenant s f)) f
      else portDone s 32 1)
    fun _ _ => s

/-- Contexts of a tenant that a freeze saved. -/
def frozenLeft (s : State) (tenant : Nat) : Bool :=
  s.sched.saved.any fun x => (decide (x.kind = 6) || decide (x.kind = 5)) && (match launchById s x.launch with | some l => decide (l.tenant = tenant) | none => false)

/-- THAW: the function is active again and its crews are restored here; refused once the target has begun to. -/
def execThaw (s : State) : Out :=
  let on (s : State) (f : Nat) : State := if frozenLeft s (fnTenant s f) then s else portDone s 32 0
  tenantCmd s 7
    (fun _ f =>
      if decide (fnState s f ≠ 3) || (moveOf s f false).any fun v => v.resumed then portDone s 32 2
      else
        let s1 := setFnState (portBegin s 32) f 1
        on { s1 with host := { s1.host with moves := s1.host.moves.filter fun v => decide (v.fn ≠ f) } } f)
    fun _ f => on s f

end Sys2Proof.Machine
end

