-- ==== Sys2Proof/Machine/Errors.lean ====
section
/-!
DEFINITION. Machine/Errors.lean: hardware errors, self-tests, repairs and retirements (R421 to R425, R427).
-/
namespace Sys2Proof.Machine

/-- The tenant that a frame record names for a byte of HBM, if any. -/
def hbmOwner (s : State) (key : Nat) : Option Nat :=
  let r := frameRec s (key / 2 ^ 36) (key % 2 ^ 36 / 4096)
  if fld r 0 2 = 1 then some (fld r 8 8) else none

/-- The tenant that last held a scratchpad row. -/
def rowOwner (s : State) (key : Nat) : Option Nat :=
  let x := key - spadKey 0 0 0 0
  let core := x / 2 ^ 21
  let g := x / 2 ^ 20 % 2
  let row := x % 2 ^ 20 / 64
  (s.tags.find? fun r => regionMeets core g row 1 r).map (·.tenant)

/-- A record for the owner of poisoned data, or for the physical function where nobody owns it. -/
def poisonRecord (s : State) (owner : Option Nat) (kind loc die : Nat) : State :=
  match owner with
  | some t => tenantError s t [errorRecord s kind loc die]
  | none => eqPost s 0 [errorRecord s kind loc die]

/-- Poisons every 64-byte unit of `n` from a key. -/
def poisonUnits (s : State) (key n : Nat) : State := (List.range n).foldl (fun s i => poisonKey s (key + 64 * i)) s

/-- HARDWARE_ERROR (operands: kind = unit kind of R421; flag = it was corrected; off = key of the byte for kinds 1 to 3; idx =
0 or one more than the kind of crew storage, with core, slot and unit; die; tenant = the line tag's): a corrected error
changes nothing; an uncorrectable one has the result of its kind. -/
def execHardwareError (s : State) : Out :=
  let a := s.ev
  if a.flag ∨ regsAnswer s = false then .next s
  else match a.kind with
  | 1 => .next (poisonRecord (poisonUnits s (a.off / 64 * 64) 1) (hbmOwner s a.off) 1 a.off a.die)
  | 2 =>
    let key := a.off / 128 * 128
    let owner := if key < 2 ^ 64 then hbmOwner s key else some a.tenant
    .next (poisonRecord (poisonUnits s key 2) owner 2 a.off a.die)
  | 3 =>
    (match a.idx with
     | 0 => .next (poisonRecord (poisonUnits s (a.off / 64 * 64) 1) (rowOwner s a.off) 3 a.off a.die)
     | k + 1 =>
       .next (match crewAt s a.core a.slot with
         | none => s
         | some c => poisonRecord (poisonUnit s a.core a.slot k a.unit) (some c.tenant) 3 (crewUnit a.core a.slot k a.unit) a.die))
  | 4 =>
    (match crewAt s a.core a.slot with
     | none => .next s
     | some c => .next (endCrew s a.core a.slot c (faultInfo c (engOfCode a.unit) 0x18 0) 0))
  | 5 => .next { s with xlat := { s.xlat with tlb := delNth s.xlat.tlb a.idx } }
  | 7 => .next { s with host := { s.host with cloveError := true } }
  | _ => .next s

/-- LINK_DOWN (operands: unit = link, die). -/
def execLinkDown (s : State) : Out := .next (if regsAnswer s then downLink s s.ev.unit s.ev.die else s)

/-- The blocks of a list that are not withdrawn yet. -/
def newBlocks (s : State) (bs : List (Nat × Nat)) : List (Nat × Nat) :=
  bs.filter fun b => !(s.host.withdrawn.any fun w => decide (w.1 = b.1) && decide (w.2.1 = b.2))

/-- The blocks of an HBM row that has no spare are withdrawn (R423). -/
def withdrawBlocks (s : State) (bs : List (Nat × Nat)) : State :=
  let one (s : State) (b : Nat × Nat) : State :=
    let owner := if blkState s b = 1 then blkOwner s b else 0
    let s1 := setBlk s b 0 (fld (frameRec s b.1 b.2) 2 1) 1
    { s1 with host := { s1.host with withdrawn := s1.host.withdrawn ++ [(b.1, b.2, owner)] } }
  let s1 := (newBlocks s bs).foldl one s
  let cap (s : State) (st : Nat) : State :=
    let n := 4096 * (s.host.withdrawn.filter fun w => decide (w.1 = st)).length
    regSet s 0 (rPRESSTACK st) (BitVec.ofNat 64 (64 - (n + 2 ^ 30 - 1) / 2 ^ 30))
  (List.range 12).foldl cap s1

/-- The tenants that own blocks of a list, each once; tenant 0 for a block that nobody owns. -/
def blockOwners (s : State) (bs : List (Nat × Nat)) : List Nat :=
  ((newBlocks s bs).map fun b => if blkState s b = 1 then blkOwner s b else 0).eraseDups

/-- A core is harvested: its crews are saved as KIND 2, at once or as soon as they can be, and it takes no other. -/
def harvestCore (s : State) (core : Nat) : State :=
  let off := rPRESCORE (dieOf core)
  let s1 := if core < 256 then regSet s 0 off (setBit (regGet s 0 off) (core % 32) false) else s
  let s2 : State := { s1 with host := { s1.host with harvested := s1.host.harvested.filter (· ≠ core) ++ [core] } }
  let save (s : State) (slot : Nat) : State :=
    match crewAt s core slot with
    | none => s
    | some c => if saveReady s core slot c then saveCrew s core slot (kindNow s 2) 0 none else putCrew s core slot (raisePreq 0 0 c)
  save (save s2 0) 1

/-- The first action that a unit with a lasting fault allows (R423): one that has a spare is remapped, and nothing shows it; a
slice waits for its quarter's quiesce. -/
def applyRepair (s : State) (r : Repair) : State :=
  match r.kind with
  | 1 => if r.spent then withdrawBlocks s r.blocks else s
  | 2 =>
    if r.spent then
      { s with host := { s.host with retiring := s.host.retiring.filter (fun p => !decide (p = (r.die, r.unit))) ++ [(r.die, r.unit)] } }
    else s
  | 3 => if r.spent then harvestCore s r.core else s
  | 6 => downLink s r.unit r.die
  | 7 => regSet s 0 rPRESPORT (setBit (regGet s 0 rPRESPORT) (8 + r.unit % 32) false)
  | _ => s

/-- The records of a repair, once it has been made: a type 11 record for each owner of withdrawn blocks, and for a core that is
harvested. -/
def repairRecords (s t : State) (r : Repair) : State :=
  if !r.spent then t
  else if r.kind = 1 then (blockOwners s r.blocks).foldl (fun t o => tenantError t o [retiredRecord t 1 r.off r.die]) t
  else if r.kind = 3 then eqPost t 0 [retiredRecord t 3 r.core (dieOf r.core)]
  else t

/-- SELF_TEST_VERDICT (operands: kind; flag = lasting; idx = 1 when the error had been corrected; v bit 0 = spares exhausted;
off = location; slots = the row's blocks as stack and block, for HBM; die; unit = slice, link or copy engine; core): a lasting
fault joins the repair list, and its unit is repaired or retired. -/
def execSelfTestVerdict (s : State) : Out :=
  let a := s.ev
  let r : Repair := { kind := a.kind, off := a.off, die := a.die, unit := a.unit, core := a.core, spent := a.v.getLsbD 0, blocks := a.slots }
  if regsAnswer s = false then .next s
  else if !a.flag then .next (if a.idx = 1 then s else eqPost s 0 [errorRecord s a.kind a.off a.die])
  else if [1, 2, 3, 6, 7].contains a.kind = false then .next s
  else
    let s1 : State := { s with host := { s.host with repairs := s.host.repairs ++ [r] } }
    .next (repairRecords s1 (applyRepair s1 r) r)

/-- SLICE_RETIREMENT (operands: die, unit = slice): a slice that waits for it is retired while its quarter is quiesced. -/
def execSliceRetirement (s : State) : Out :=
  let p := (s.ev.die, s.ev.unit)
  let q := s.ev.die / 2
  if s.host.retiring.contains p && s.sched.quiesce.getLsbD q && (crewsIn s q).isEmpty then
    .next (retireDue s p)
  else .next s

/-- PATROL_SCRUB: a correctable error found is written back corrected, unless the unit has been written since; no value
changes, and an error that cannot be corrected is a HARDWARE_ERROR (R425). -/
def execPatrolScrub (s : State) : Out := .next s

end Sys2Proof.Machine
end

