-- ==== Sys2Proof/Machine/Power.lean ====
section
/-!
DEFINITION. Machine/Power.lean: power states, suspend and resume, bring-up, the boot ROM, attestation (R426, R428, R435 to
R440), and what a register read returns (R430, R431).
-/
namespace Sys2Proof.Machine

/-- Everything that power held is lost; host memory is not the device's, and neither are the repair list and the state of the host
link; what is fused stays. -/
def lostState (s : State) (p : Power) : State :=
  { State.reset with mem := s.mem.filter (fun x => decide (hostKey 0 ≤ x.1)), freeCtr := s.freeCtr, power := p
                     host := { State.reset.host with repairs := s.host.repairs, minVersion := s.host.minVersion, linkUp := s.host.linkUp } }

/-- COLD_START (operand: flag = HOSTSEL): power comes up, HOSTSEL is sampled, and the ROM waits for an image. Every register
and frame record stands at its reset value (R404, R426, R440). -/
def execColdStart (s : State) : Out :=
  let s1 := lostState s .bootstrap
  .next { s1 with host := { s1.host with hostsel := s.ev.flag } }

/-- The bytes of the image that BOOTADDR and BOOTLEN name. -/
def bootImage (s : State) : List Byte :=
  let a := (regGet s 0 rBOOTADDR).toNat
  (List.range (regGet s 0 rBOOTLEN).toNat).map fun i => memGet s.mem (hostKey (a + i))

/-- The first check of R426 that an image fails, as BOOTSTAT codes it; 0 where it is accepted. -/
def bootCode (s : State) (img : List Byte) : Nat :=
  let h := Config.bootHeader img
  if h.magic ≠ 0x4E594431 ∨ h.length ≠ (regGet s 0 rBOOTLEN).toNat then 1
  else if Config.fusedKey h.keyIndex ≠ some (BitVec.ofNat 384 (leNat (sha384 h.publicKey))) then 2
  else if h.version.toNat < s.host.minVersion.toNat then 3
  else if !Config.bootSigned img h.publicKey (sha384 (Config.bootBody img)) then 4
  else 0

/-- The repair list is applied, and the present-unit registers are set; a slice retires at a cold start (R423, R440). -/
def applyRepairs (s : State) : State :=
  let s1 := s.host.repairs.foldl applyRepair s
  s1.host.retiring.foldl (fun s p => retireSlice s p.1 p.2) s1

/-- BOOT_IMAGE_LOAD (operand: flag = the host link failed): the image is accepted, measured and started, and the repair list is
applied before anything else; or BOOTSTAT says why not (R426, R440). -/
def execBootImageLoad (s : State) : Out :=
  if s.power ≠ .bootstrap ∨ regGet s 0 rBOOTLEN = 0 then .next s
  else
    let img := bootImage s
    let code := if s.ev.flag then 5 else bootCode s img
    let s1 := regSet s 0 rBOOTSTAT (BitVec.ofNat 64 code)
    if code ≠ 0 then .next s1
    else
      .next (applyRepairs { s1 with power := .run
                                    host := { s1.host with measurement := BitVec.ofNat 384 (leNat (sha384 (Config.bootBody img))) } })

/-- PWRWARN: the board's warning starts a suspend; a second trigger has no effect (R435, R437). -/
def execPwrwarn (s : State) : Out := .next (if s.power = .run then beginSuspend s none tenantDeadline else s)

/-- All fabric and carry traffic has completed or become void. -/
def fabricQuiet (s : State) : Bool :=
  !(s.fabric.msgs.any fun m => decide (m.phase ≤ 1)) &&
    !(s.fabric.links.any fun k => !k.pending.isEmpty || !k.unacked.isEmpty || !k.flight.isEmpty)

/-- The events that a suspend posts: the answer to an OP 4 entry, and one on every live event queue. -/
def suspendEvents (s : State) : State :=
  let s1 := match s.host.suspendNote with
    | some h => postEvent { s with host := { s.host with suspendNote := none } } { fn := 0, hseq := h, status := 0, type := 1, eseq := 0 }
    | none => s
  let live := (List.range 32).filter fun f => regEn s1 f rDEQCFG
  let s2 := live.foldl (fun s f => postEvent s { fn := f, hseq := 0, status := 0, type := Config.suspendEventType % 256, eseq := 0 }) s1
  live.foldl (fun s f => iter (fun s => writeEvent s f) s.host.events.length s) s2

/-- Storage of crew slots that belongs to no saved crew is not saved: it reads zero, tagged with no tenant. Translation
caches and pins lose their contents with the dies' power. -/
def dropSlots (s : State) : State :=
  let s1 := zeroWhere s fun k => decide (spadKey 0 0 0 0 ≤ k) && decide (k < hostKey 0)
  { s1 with tags := [], left := ⟨[], [], [], []⟩, monitors := [], xlat := { s1.xlat with tlb := [], pins := [] } }

/-- What is kept through retention is written into the retention area of a quarter whose RETCFG is valid; the bytes are free values
(R435 step 3; log 51). -/
def writeRetention (s : State) (q : Nat) : State :=
  if s.host.retValid.getLsbD q then
    let r := regGet s 0 (rRETCFG q)
    (List.range (16384 * fld r 40 16)).foldl (fun s i =>
      match Config.retentionByte s.freeCtr q i with
      | some b => { s with mem := memSet s.mem (physKey s (fld r 14 26 * 16384 + i)) b }
      | none => s) s
  else s

/-- SUSPEND_SEQUENCE: every crew has been saved and the traffic has ended: the state is kept, events are posted and power
falls to retention (R435). -/
def execSuspendSequence (s : State) : Out :=
  match s.power with
  | .suspending _ _ =>
    if s.crews.isEmpty && fabricQuiet s then
      let s1 := suspendEvents ((List.range 4).foldl writeRetention (dropSlots (flushWhere s fun _ => true)))
      .next { s1 with power := .retention, freeCtr := s1.freeCtr + 1 }
    else .next s
  | _ => .next s

/-- RESUME_REQUEST: device state stands as it was saved; this device's step tables go to every member of its groups, whose own bring
kept and unfinished operations on their way (`memberNotice`); after that exchange the saved crews are restored, and then the front
ends start (R436, R438). -/
def execResumeRequest (s : State) : Out :=
  if s.power ≠ .retention then .next s
  else
    let s1 := endExchange (s.fabric.groups.foldl sendTables { s with power := .run, host := { s.host with exchange := true } })
    .next (s1.host.fetching.foldl pushNext s1)

/-- POWER_LOST: during retention all state is lost; the next start is a cold start (R437). -/
def execPowerLost (s : State) : Out := .next (if s.power = .retention then lostState s .off else s)

/-- CRITICAL_TEMPERATURE: the die stops at once, without saving; the device needs a cold start (R439). -/
def execCriticalTemperature (s : State) : Out :=
  match s.power with
  | .off => .next s
  | _ => .next (lostState s .thermal)

/-! ### Attestation (R428) -/

/-- Bytes 0 to 111 of a report that function `fn` has asked for about function `f`. -/
def reportBody (s : State) (fn f : Nat) (nonce : BitVec 256) : List Byte :=
  leBytes 1 2 ++ leBytes fn 1 ++ [s.host.minVersion] ++ measurementBytes s ++ shapeHash s (fnPart s f) ++
    leBytes (tencfg s f).toNat 8 ++ leBytes nonce.toNat 32 ++ leBytes 0 4

/-- ATTESTATION_REQUEST (operand: fn): the signed report stands in the function's report window. A virtual function's is
about itself, the physical function's about the function it names. -/
def execAttestationRequest (s : State) : Out :=
  let fn := s.ev.fn
  let id := 40 + fn
  let p := portOf s id
  if !p.run || !regsAnswer s || decide (32 ≤ fn) then .next s
  else
    let (f, nonce) := Config.attestationArgument p.latched
    let body := reportBody s fn (if fn = 0 then f % 32 else fn) nonce
    let report := BitVec.ofNat 1664 (leNat (body ++ signatureOf body))
    .next (portDone { s with host := { s.host with reports := asSet s.host.reports fn report } } id 0)

/-! ### Register reads -/

/-- The status word of a port. -/
def portStatus (p : Port) : Word :=
  BitVec.ofNat 64 (p.tag % 2 ^ 16 * 2 ^ 48 + (if p.lost then 512 else 0) + (if p.run then 256 else 0) + p.code % 256)

/-- The port whose status word stands at an offset. -/
def statusAt (fn off : Nat) : Option Nat :=
  if off = 0x440 then some fn
  else if off = 0x740 then some (40 + fn)
  else if fn ≠ 0 then none
  else if off = 0x4C0 then some 32
  else if off = 0x640 then some 37
  else if inRegs off 0xF00 4 then some (33 + (off - 0xF00) / 8)
  else none

/-- Whether a range of R430 belongs to the physical function alone. -/
def pfOnly (off : Nat) : Bool :=
  decide (off < 0x100) || (decide (0x800 ≤ off) && decide (off < 0x4000))

/-- What an 8-byte read of a function's register block returns. -/
def registerRead (s : State) (fn off : Nat) : Word :=
  if off % 8 ≠ 0 ∨ (fn ≠ 0 ∧ pfOnly off = true) then 0
  else if s.power = .bootstrap then
    (if fn = 0 ∧ (off = rBOOTADDR ∨ off = rBOOTLEN ∨ off = rBOOTSTAT) then regGet s 0 off else 0)
  else if !regsAnswer s then 0
  else match statusAt fn off, portAt fn off with
  | some id, _ => portStatus (portOf s id)
  | none, some (id, b) => BitVec.ofNat 64 (fld (portOf s id).latched (8 * b) 64)
  | none, none =>
    if off = rSSROOT then regGet s 0 (rSSROOTf fn)
    else if off = rHSQDB ∨ inRegs off 0x3000 8 = true then 0
    else if 0x4000 ≤ off ∧ off < 0x5000 then
      BitVec.ofNat 64 (leNat ((List.range 8).map fun i => Config.idcertByte (off - 0x4000 + i)))
    else if 0x5000 ≤ off ∧ off < 0x50D0 then BitVec.ofNat 64 (fld ((asGet s.host.reports fn).getD 0) (8 * (off - 0x5000)) 64)
    else regGet s fn off

end Sys2Proof.Machine
end

