-- ==== Sys2Proof/Machine/Clock.lean ====
section
/-!
DEFINITION. Machine/Clock.lean: the passage of time and what falls due with it; which events act in a power state; what the
world outside does.
-/
namespace Sys2Proof.Machine

/-! ### The clock (R111, R319) -/

/-- Commands of the update ports that wait for a page, tried again as time passes (R339). -/
def portsDue (s : State) : List Activity :=
  s.host.ports.filterMap fun p =>
    if p.run && decide (p.id < 32) then (portEvent p.id (cmdOp p.latched)).map fun e => Activity.event e.1 e.2 else none

/-- Increments and changes of TEXTUSE that wait for a page, tried again as time passes. -/
def lateDue (s : State) : List Activity :=
  if s.sched.late.isEmpty && s.sched.textLate.isEmpty then [] else [.event .completionIncrement { kind := 1 }]

/-- `n` cycles pass. At a period boundary the committed shadows become the calendars, before anything else happens, and the
scheduler reads the pipelines' rings, once for each period that has ended. -/
def tick (n : Nat) (s : State) : State :=
  let s1 := creditWaits n (passTime n s)
  let s2 : State := { s1 with agenda := s1.agenda ++ exchangesDue s1 ++ fabricDue s1 ++ portsDue s1 ++ lateDue s1 }
  let periods := s2.cycle.toNat / 1024 - s.cycle.toNat / 1024
  if periods = 0 then s2
  else
    let s3 := pipePeriods periods s2
    { s3 with agenda := (s3.sched.calPending.filter fun d => switchDue s3 d.1).map
                  (fun d => Activity.event .calendarSwitch { die := d.1 }) ++ s3.agenda }

/-! ### Power states and the world outside -/

/-- Whether an event acts in a power state: before firmware runs only the boot registers and the ROM do (R426); in retention the
Clove block waits for the resume, and what else arrives is the sender's to send again (R435, R437); without power nothing does but a
cold start (R439). -/
def acts (p : Power) (i : Instr) : Bool :=
  match p with
  | .run => true
  | .suspending _ _ => true
  | .bootstrap => decide (i = .coldStart) || decide (i = .bootImageLoad) || decide (i = .registerWrite) || decide (i = .criticalTemperature)
  | .retention => decide (i = .coldStart) || decide (i = .resumeRequest) || decide (i = .powerLost) || decide (i = .criticalTemperature)
  | .off => decide (i = .coldStart)
  | .thermal => decide (i = .coldStart)

/-- The host link works again: copies, events, fault records and entries that waited for it go on (log 102). -/
def linkBack (s : State) : State :=
  let s1 := (s.host.copies.filter fun h => h.heldBy.isNone && h.req.isNone).foldl pushCopy s
  let s2 := (List.range 32).foldl writeFaults ((List.range 32).foldl pushEvents s1)
  s2.host.fetching.foldl pushNext s2

/-- What the world outside does: the host link fails or works again (R419); the running firmware asks for a higher fused minimum
version, which never falls (R426). -/
def outside (o : Outside) (s : State) : State :=
  match o with
  | .hostLink up =>
    let s1 : State := { s with host := { s.host with linkUp := up } }
    if up && !s.host.linkUp && regsAnswer s then linkBack s1 else s1
  | .minimum v =>
    if regsAnswer s ∧ s.host.minVersion.toNat < v.toNat then { s with host := { s.host with minVersion := v } } else s

end Sys2Proof.Machine
end

