-- ==== Sys2Proof/Machine/Scalar.lean ====
section
/-!
DEFINITION. Machine/Scalar.lean: the shared scalar block, the compare class and the C block's own scalar instructions
(R104 to R118).
-/
namespace Sys2Proof.Machine

/-! ### Arithmetic, logic and shifts (R104) -/

def execAdd (t n : BitVec 1) (g : BitVec 4) (d a b : BitVec 5) (s : State) : Out := alu2 t n g d a b (· + ·) s
def execSub (t n : BitVec 1) (g : BitVec 4) (d a b : BitVec 5) (s : State) : Out := alu2 t n g d a b (· - ·) s
def execMul (t n : BitVec 1) (g : BitVec 4) (d a b : BitVec 5) (s : State) : Out := alu2 t n g d a b (· * ·) s
def execAnd (t n : BitVec 1) (g : BitVec 4) (d a b : BitVec 5) (s : State) : Out := alu2 t n g d a b (· &&& ·) s
def execOr (t n : BitVec 1) (g : BitVec 4) (d a b : BitVec 5) (s : State) : Out := alu2 t n g d a b (· ||| ·) s
def execXor (t n : BitVec 1) (g : BitVec 4) (d a b : BitVec 5) (s : State) : Out := alu2 t n g d a b (· ^^^ ·) s
def execAndn (t n : BitVec 1) (g : BitVec 4) (d a b : BitVec 5) (s : State) : Out :=
  alu2 t n g d a b (fun x y => x &&& ~~~y) s
def execShl (t n : BitVec 1) (g : BitVec 4) (d a b : BitVec 5) (s : State) : Out :=
  alu2 t n g d a b (fun x y => x <<< shiftCount y) s
def execShr (t n : BitVec 1) (g : BitVec 4) (d a b : BitVec 5) (s : State) : Out :=
  alu2 t n g d a b (fun x y => x >>> shiftCount y) s
def execSra (t n : BitVec 1) (g : BitVec 4) (d a b : BitVec 5) (s : State) : Out :=
  alu2 t n g d a b (fun x y => x.sshiftRight (shiftCount y)) s
def execRot (t n : BitVec 1) (g : BitVec 4) (d a b : BitVec 5) (s : State) : Out :=
  alu2 t n g d a b (fun x y => x.rotateRight (shiftCount y)) s
def execMin (t n : BitVec 1) (g : BitVec 4) (d a b : BitVec 5) (s : State) : Out :=
  alu2 t n g d a b (fun x y => if BitVec.slt y x then y else x) s
def execMax (t n : BitVec 1) (g : BitVec 4) (d a b : BitVec 5) (s : State) : Out :=
  alu2 t n g d a b (fun x y => if BitVec.slt x y then y else x) s
def execMinz (t n : BitVec 1) (g : BitVec 4) (d a b : BitVec 5) (s : State) : Out :=
  alu2 t n g d a b (fun x y => if BitVec.ult y x then y else x) s
def execMaxz (t n : BitVec 1) (g : BitVec 4) (d a b : BitVec 5) (s : State) : Out :=
  alu2 t n g d a b (fun x y => if BitVec.ult x y then y else x) s
def execClz (t n : BitVec 1) (g : BitVec 4) (d a : BitVec 5) (s : State) : Out :=
  alu1 t n g d a (fun x => BitVec.ofNat 64 (leadingZeros x.toNat)) s
def execPopc (t n : BitVec 1) (g : BitVec 4) (d a : BitVec 5) (s : State) : Out :=
  alu1 t n g d a (fun x => BitVec.ofNat 64 (popCount x.toNat 64)) s

/-- SEL (R104): sa when pN is true, else sb. -/
def execSel (t n : BitVec 1) (g p : BitVec 4) (d a b : BitVec 5) (s : State) : Out :=
  guarded s (engOf t) n g fun c =>
    let e := engOf t
    writeDone s c e d (if pRead c e p then sRead c e a else sRead c e b)

/-- The operands of MULH by sub-op (R105). -/
def mulhValue (sub : BitVec 2) (a b : Word) : Word :=
  let x : Int := if sub = 1 then a.toNat else a.toInt
  let y : Int := if sub = 0 then b.toInt else b.toNat
  BitVec.ofInt 64 (x * y / 2 ^ 64)

def execMulh (t n : BitVec 1) (g : BitVec 4) (d a b : BitVec 5) (sub : BitVec 2) (s : State) : Out :=
  alu2 t n g d a b (mulhValue sub) s

/-- Quotient and remainder of R106: division truncated toward zero, the divisor-zero values apart. -/
def divValue (sub : BitVec 2) (a b : Word) : Word :=
  if b = 0 then BitVec.allOnes 64
  else if sub = 0 then BitVec.ofInt 64 (a.toInt.tdiv b.toInt) else BitVec.ofNat 64 (a.toNat / b.toNat)

def remValue (sub : BitVec 2) (a b : Word) : Word :=
  if b = 0 then a
  else if sub = 0 then BitVec.ofInt 64 (a.toInt.tmod b.toInt) else BitVec.ofNat 64 (a.toNat % b.toNat)

/-- DIV and REM set IDZ for a zero divisor (R41, R42). -/
def divide (t n : BitVec 1) (g : BitVec 4) (d a b : BitVec 5) (f : Word → Word → Word) (s : State) : Out :=
  guarded s (engOf t) n g fun c =>
    let e := engOf t
    let y := sRead c e b
    writeDone s (setFlags c (flIf (decide (y = 0)) flIDZ)) e d (f (sRead c e a) y)

def execDiv (t n : BitVec 1) (g : BitVec 4) (d a b : BitVec 5) (sub : BitVec 2) (s : State) : Out :=
  divide t n g d a b (divValue sub) s
def execRem (t n : BitVec 1) (g : BitVec 4) (d a b : BitVec 5) (sub : BitVec 2) (s : State) : Out :=
  divide t n g d a b (remValue sub) s

/-! ### Immediates (R107) -/

def execAddi (t n : BitVec 1) (g : BitVec 4) (d a : BitVec 5) (i : BitVec 7) (s : State) : Out :=
  alu1 t n g d a (· + imm7 i) s
def execAndi (t n : BitVec 1) (g : BitVec 4) (d a : BitVec 5) (i : BitVec 7) (s : State) : Out :=
  alu1 t n g d a (· &&& imm7 i) s
def execOri (t n : BitVec 1) (g : BitVec 4) (d a : BitVec 5) (i : BitVec 7) (s : State) : Out :=
  alu1 t n g d a (· ||| imm7 i) s
def execXori (t n : BitVec 1) (g : BitVec 4) (d a : BitVec 5) (i : BitVec 7) (s : State) : Out :=
  alu1 t n g d a (· ^^^ imm7 i) s
def execShli (t n : BitVec 1) (g : BitVec 4) (d a : BitVec 5) (i : BitVec 6) (s : State) : Out :=
  alu1 t n g d a (· <<< i.toNat) s
def execShri (t n : BitVec 1) (g : BitVec 4) (d a : BitVec 5) (i : BitVec 6) (s : State) : Out :=
  alu1 t n g d a (· >>> i.toNat) s
def execLi (t n : BitVec 1) (g : BitVec 4) (d : BitVec 5) (i : BitVec 12) (s : State) : Out :=
  alu1 t n g d 0 (fun _ => i.signExtend 64) s
def execLiu (t n : BitVec 1) (g : BitVec 4) (d : BitVec 5) (i : BitVec 12) (s : State) : Out :=
  alu1 t n g d d (fun x => x <<< 12 ||| i.zeroExtend 64) s

/-! ### Compares and predicate logic (R108, R109) -/

/-- CMP and CMPI: both predicates are written, even under a false guard, pe after pd. -/
def compare (t n : BitVec 1) (g : BitVec 4) (cc : BitVec 3) (d p : BitVec 4) (a : BitVec 5) (rhs : Crew → Word)
    (s : State) : Out :=
  onCrew s (engOf t) fun c =>
    let e := engOf t
    let gv := guard c e n g
    let r := condHolds cc (sRead c e a) (rhs c)
    done s (pWrite (pWrite c e d (r && gv)) e p (!r && gv)) e 4

def execCmp (t n : BitVec 1) (g : BitVec 4) (c : BitVec 3) (d e : BitVec 4) (a b : BitVec 5) (s : State) : Out :=
  compare t n g c d e a (fun w => sRead w (engOf t) b) s
def execCmpi (t n : BitVec 1) (g : BitVec 4) (c : BitVec 3) (d e : BitVec 4) (a i : BitVec 5) (s : State) : Out :=
  compare t n g c d e a (fun _ => i.signExtend 64) s

def execPlogic (t n : BitVec 1) (g d a b f : BitVec 4) (s : State) : Out :=
  guarded s (engOf t) n g fun c =>
    let e := engOf t
    let k := 2 * (pRead c e a).toNat + (pRead c e b).toNat
    done s (pWrite c e d (f.getLsbD k)) e 4

/-! ### Queues, counters and identity (R110 to R113) -/

/-- A failure-marked entry is raised at the pop, naming the LDQ (R134). -/
def raiseMarked (s : State) (c : Crew) (e : Eng) (cause pc addr : Nat) : Out :=
  .next (raise s s.cur.core s.cur.slot c { faultInfo c e cause addr with pc := pc })

/-- QPOP. -/
def execQpop (t n : BitVec 1) (g : BitVec 4) (d : BitVec 5) (q : BitVec 4) (s : State) : Out :=
  guarded s (engOf t) n g fun c =>
    let e := engOf t
    if !peerActive c e q.toNat then raiseHere s c e 0x0B q.toNat
    else match qPop c q.toNat with
    | .empty => wait s c e 1
    | .failed cause pc addr => raiseMarked s c e cause pc addr
    | .data x c1 => writeDone s c1 e d (x.truncate 64)

/-- Appends a 64-bit entry, waiting while the queue is full. -/
def sendTo (s : State) (c : Crew) (e : Eng) (q : Nat) (x : Word) : Out :=
  if !peerActive c e q then raiseHere s c e 0x0B q
  else if qRoom c q then done s (qPush c q (x.zeroExtend 512)) e 4
  else wait s c e 2

/-- QSEND. -/
def execQsend (t n : BitVec 1) (g q : BitVec 4) (a : BitVec 5) (s : State) : Out :=
  guarded s (engOf t) n g fun c => sendTo s c (engOf t) q.toNat (sRead c (engOf t) a)

/-- FMTQ (R114): pushes a format word to q9. -/
def execFmtq (n : BitVec 1) (g : BitVec 4) (a : BitVec 5) (s : State) : Out :=
  guarded s .c n g fun c => sendTo s c .c 9 (sRead c .c a)

/-- RDCYC; illegal in a shape-independent launch (R360). -/
def execRdcyc (t n : BitVec 1) (g : BitVec 4) (d : BitVec 5) (s : State) : Out :=
  guarded s (engOf t) n g fun c =>
    if isShapeInd c then raiseHere s c (engOf t) 0x01 0 else writeDone s c (engOf t) d s.cycle

/-- The four values of RDID (R112). -/
def rdidValue (s : State) (c : Crew) (sub : BitVec 2) : Word :=
  match sub.toNat with
  | 0 => BitVec.ofNat 64 s.cur.core
  | 1 => BitVec.ofNat 64 c.rank
  | 2 => BitVec.ofNat 64 (cidOf s c.tenant)
  | _ => BitVec.ofNat 64 (s.cur.slot % 2 + (if isSaffron s.cur.core then 2 else 0))

/-- RDID; .core and .slot are illegal in a shape-independent launch (R360). -/
def execRdid (t n : BitVec 1) (g : BitVec 4) (d : BitVec 5) (sub : BitVec 2) (s : State) : Out :=
  guarded s (engOf t) n g fun c =>
    if isShapeInd c ∧ (sub = 0 ∨ sub = 3) then raiseHere s c (engOf t) 0x01 0
    else writeDone s c (engOf t) d (rdidValue s c sub)

/-- Whose counters WAITD reads (R113). -/
def waitdEng (t : BitVec 1) (e : BitVec 2) : Eng :=
  match e.toNat with
  | 0 => engOf t
  | 1 => .v
  | 2 => .m
  | _ => .s

/-- A faulted operation of counter `k` that has been counted down, in issue order (R150). -/
def coveredFault (c : Crew) (k : Nat) : Option EngOp :=
  c.ops.find? fun o => o.fell && decide (fld o.desc 16 3 = k) && decide (o.fault ≠ 0)

/-- WAITD: waits until the counter holds a value not above the count; on A it joins its covered operations and raises
the fault of one (R150). -/
def execWaitd (t n : BitVec 1) (g : BitVec 4) (e : BitVec 2) (c : BitVec 3) (k : BitVec 10) (s : State) : Out :=
  guarded s (engOf t) n g fun w =>
    if dRead w (waitdEng t e) c.toNat ≤ k.toNat then
      (if waitdEng t e = .a then
        match coveredFault w c.toNat with
        | some o =>
          let w1 := { w with ops := w.ops.filter fun x => !decide (x = o) }
          .next (raise s s.cur.core s.cur.slot w1 (opFault o .a o.pc))
        | none => done s { w with ops := w.ops.filter fun x => !(x.fell && decide (fld x.desc 16 3 = c.toNat)) } (engOf t) 4
      else done s w (engOf t) 4)
    else wait s w (engOf t) 8

/-! ### The control engine's own (R116 to R118) -/

/-- SLIP. -/
def execSlip (n : BitVec 1) (g : BitVec 4) (i : BitVec 12) (s : State) : Out :=
  guarded s .c n g fun c => done s { c with slipw := slipBytes i.toNat } .c 4

/-- BRL. -/
def execBrl (n : BitVec 1) (g : BitVec 4) (o : BitVec 17) (s : State) : Out :=
  guarded s .c n g fun c =>
    if c.cd = 255 then raiseHere s c .c 0x01 0
    else
      let pc := pcOf c .c
      let c1 := sWrite { c with ors := if c.cd = 0 then pc else c.ors, cd := c.cd + 1 } .c 31 (BitVec.ofNat 64 (pc + 4))
      .next (putCrew s s.cur.core s.cur.slot (goto c1 .c 4 (branchTarget pc o)))

/-- A PC taken from a register: bits 1:0 ignored. -/
def pcOfReg (x : Word) : Nat := x.toNat / 4 * 4

/-- RET. -/
def execRet (n : BitVec 1) (g : BitVec 4) (s : State) : Out :=
  guarded s .c n g fun c =>
    if c.cd = 0 then raiseHere s c .c 0x01 0
    else .next (putCrew s s.cur.core s.cur.slot (goto { c with cd := c.cd - 1 } .c 4 (pcOfReg (sRead c .c 31))))

/-- JMPR. -/
def execJmpr (n : BitVec 1) (g : BitVec 4) (a : BitVec 5) (s : State) : Out :=
  guarded s .c n g fun c => .next (putCrew s s.cur.core s.cur.slot (goto c .c 4 (pcOfReg (sRead c .c a))))

/-! ### Capabilities in registers (R122, R123) -/

/-- A derivation of kd from ka and x = zext(sb): a null source raises 0x05, a failing bound 0x03, and kd keeps its value
on a fault. DESIGN CHOICE (log 89): TADDR, where no byte is accessed, is x for 0x03 and 0 for 0x05 (R238). -/
def derive (n : BitVec 1) (g : BitVec 4) (d a b : BitVec 5) (ok : Cap → Nat → Bool) (f : Cap → Nat → Cap) (s : State) :
    Out :=
  guarded s .a n g fun c =>
    let k := kRead c a
    let x := (sRead c .a b).toNat
    if capSpace k = 0 then raiseHere s c .a 0x05 0
    else if !ok k x then raiseHere s c .a 0x03 x
    else done s (kWrite c d (f k x)) .a 4

/-- Replaces the cursor, or the limit, of a capability. -/
def withCursor (k : Cap) (x : Nat) : Cap := mkCap (capSpace k) (capRights k) (capObj k) (capGen k) (capLimit k) x
def withLimit (k : Cap) (x : Nat) : Cap := mkCap (capSpace k) (capRights k) (capObj k) (capGen k) x (capCursor k)

def execKset (n : BitVec 1) (g : BitVec 4) (d a b : BitVec 5) (s : State) : Out :=
  derive n g d a b (fun k x => decide (capCursor k ≤ x) && decide (x ≤ capLimit k)) withCursor s
def execKoff (n : BitVec 1) (g : BitVec 4) (d a b : BitVec 5) (s : State) : Out :=
  derive n g d a b (fun k x => decide (capCursor k + x ≤ capLimit k)) (fun k x => withCursor k (capCursor k + x)) s
def execKlim (n : BitVec 1) (g : BitVec 4) (d a b : BitVec 5) (s : State) : Out :=
  derive n g d a b (fun k x => decide (capCursor k + x ≤ capLimit k)) (fun k x => withLimit k (capCursor k + x)) s
def execKrights (n : BitVec 1) (g : BitVec 4) (d a b : BitVec 5) (s : State) : Out :=
  derive n g d a b (fun _ _ => true)
    (fun k x => mkCap (capSpace k) (Nat.land (capRights k) (x % 256)) (capObj k) (capGen k) (capLimit k) (capCursor k)) s

def execKmov (n : BitVec 1) (g : BitVec 4) (d a : BitVec 5) (s : State) : Out :=
  guarded s .a n g fun c => done s (kWrite c d (kRead c a)) .a 4

/-- The result of KTEST (R123). REMAIN of a capability whose cursor lies above its limit is 0. -/
def ktestValue (k : Cap) (q : Word) : Word :=
  if capSpace k = 0 then 2
  else
    let missing := !hasRights (capRights k) (fld q 0 8)
    let out := decide (capLimit k < capCursor k + fld q 8 42)
    BitVec.ofNat 64 (min (capLimit k - capCursor k) 0xFF_FFFF * 2 ^ 40 + capObj k * 2 ^ 16 + capRights k * 2 ^ 8 +
      capSpace k * 2 ^ 5 + (if missing then 8 else 0) + (if out then 4 else 0) + (if missing || out then 0 else 1))

def execKtest (n : BitVec 1) (g : BitVec 4) (d a b : BitVec 5) (s : State) : Out :=
  guarded s .a n g fun c => writeDone s c .a d (ktestValue (kRead c a) (sRead c .a b))

end Sys2Proof.Machine
end

