-- ==== Sys2Proof/Machine/Dispatch.lean ====
section
/-!
DEFINITION. Machine/Dispatch.lean: one arm per instruction or event, each one call of its meaning.
-/
namespace Sys2Proof.Machine

def exec (i : Instr) (s : State) : Host.Outcome State Fault Refusal :=
  match i with
  | .add t n g d a b => Sys2Proof.Machine.execAdd t n g d a b s
  | .sub t n g d a b => Sys2Proof.Machine.execSub t n g d a b s
  | .mul t n g d a b => Sys2Proof.Machine.execMul t n g d a b s
  | .mulh t n g d a b sub => Sys2Proof.Machine.execMulh t n g d a b sub s
  | .div t n g d a b sub => Sys2Proof.Machine.execDiv t n g d a b sub s
  | .rem t n g d a b sub => Sys2Proof.Machine.execRem t n g d a b sub s
  | .and t n g d a b => Sys2Proof.Machine.execAnd t n g d a b s
  | .or t n g d a b => Sys2Proof.Machine.execOr t n g d a b s
  | .xor t n g d a b => Sys2Proof.Machine.execXor t n g d a b s
  | .andn t n g d a b => Sys2Proof.Machine.execAndn t n g d a b s
  | .shl t n g d a b => Sys2Proof.Machine.execShl t n g d a b s
  | .shr t n g d a b => Sys2Proof.Machine.execShr t n g d a b s
  | .sra t n g d a b => Sys2Proof.Machine.execSra t n g d a b s
  | .rot t n g d a b => Sys2Proof.Machine.execRot t n g d a b s
  | .min t n g d a b => Sys2Proof.Machine.execMin t n g d a b s
  | .max t n g d a b => Sys2Proof.Machine.execMax t n g d a b s
  | .minz t n g d a b => Sys2Proof.Machine.execMinz t n g d a b s
  | .maxz t n g d a b => Sys2Proof.Machine.execMaxz t n g d a b s
  | .clz t n g d a => Sys2Proof.Machine.execClz t n g d a s
  | .popc t n g d a => Sys2Proof.Machine.execPopc t n g d a s
  | .addi t n g d a imm => Sys2Proof.Machine.execAddi t n g d a imm s
  | .andi t n g d a imm => Sys2Proof.Machine.execAndi t n g d a imm s
  | .ori t n g d a imm => Sys2Proof.Machine.execOri t n g d a imm s
  | .xori t n g d a imm => Sys2Proof.Machine.execXori t n g d a imm s
  | .shli t n g d a imm => Sys2Proof.Machine.execShli t n g d a imm s
  | .shri t n g d a imm => Sys2Proof.Machine.execShri t n g d a imm s
  | .li t n g d imm => Sys2Proof.Machine.execLi t n g d imm s
  | .liu t n g d imm => Sys2Proof.Machine.execLiu t n g d imm s
  | .plogic t n g d a b f => Sys2Proof.Machine.execPlogic t n g d a b f s
  | .qpop t n g d q => Sys2Proof.Machine.execQpop t n g d q s
  | .qsend t n g q a => Sys2Proof.Machine.execQsend t n g q a s
  | .rdcyc t n g d => Sys2Proof.Machine.execRdcyc t n g d s
  | .rdid t n g d sub => Sys2Proof.Machine.execRdid t n g d sub s
  | .waitd t n g e c k => Sys2Proof.Machine.execWaitd t n g e c k s
  | .sel t n g p d a b => Sys2Proof.Machine.execSel t n g p d a b s
  | .cmp t n g c d e a b => Sys2Proof.Machine.execCmp t n g c d e a b s
  | .cmpi t n g c d e a imm => Sys2Proof.Machine.execCmpi t n g c d e a imm s
  | .fmtq n g a => Sys2Proof.Machine.execFmtq n g a s
  | .setnReg n g k a => Sys2Proof.Machine.execSetnReg n g k a s
  | .setnImm n g k imm => Sys2Proof.Machine.execSetnImm n g k imm s
  | .slip n g imm => Sys2Proof.Machine.execSlip n g imm s
  | .brl n g o => Sys2Proof.Machine.execBrl n g o s
  | .ret n g => Sys2Proof.Machine.execRet n g s
  | .jmpr n g a => Sys2Proof.Machine.execJmpr n g a s
  | .srd n g d r => Sys2Proof.Machine.execSrd n g d r s
  | .swr n g a r => Sys2Proof.Machine.execSwr n g a r s
  | .trap n g imm => Sys2Proof.Machine.execTrap n g imm s
  | .trapret n g => Sys2Proof.Machine.execTrapret n g s
  | .trapinstall n g a b => Sys2Proof.Machine.execTrapinstall n g a b s
  | .launch n g a b => Sys2Proof.Machine.execLaunch n g a b s
  | .pquiesce n g a => Sys2Proof.Machine.execPquiesce n g a s
  | .pstatus n g d a => Sys2Proof.Machine.execPstatus n g d a s
  | .pbound n g a b => Sys2Proof.Machine.execPbound n g a b s
  | .tlbshoot n g a b sub => Sys2Proof.Machine.execTlbshoot n g a b sub s
  | .dbg n g imm => Sys2Proof.Machine.execDbg n g imm s
  | .suspend n g a => Sys2Proof.Machine.execSuspend n g a s
  | .ldq n g q k b z => Sys2Proof.Machine.execLdq n g q k b z s
  | .ldv n g c k b => Sys2Proof.Machine.execLdv n g c k b s
  | .stq n g q k b => Sys2Proof.Machine.execStq n g q k b s
  | .waitsig n g d k b z => Sys2Proof.Machine.execWaitsig n g d k b z s
  | .fence n g k sub => Sys2Proof.Machine.execFence n g k sub s
  | .keep n g c k b => Sys2Proof.Machine.execKeep n g c k b s
  | .unkeep n g c k b => Sys2Proof.Machine.execUnkeep n g c k b s
  | .cwait n g d k b => Sys2Proof.Machine.execCwait n g d k b s
  | .kset n g d a b => Sys2Proof.Machine.execKset n g d a b s
  | .koff n g d a b => Sys2Proof.Machine.execKoff n g d a b s
  | .klim n g d a b => Sys2Proof.Machine.execKlim n g d a b s
  | .krights n g d a b => Sys2Proof.Machine.execKrights n g d a b s
  | .kmov n g d a => Sys2Proof.Machine.execKmov n g d a s
  | .kld n g d a b => Sys2Proof.Machine.execKld n g d a b s
  | .kst n g c a b => Sys2Proof.Machine.execKst n g c a b s
  | .ktest n g d a b => Sys2Proof.Machine.execKtest n g d a b s
  | .ldZ n g d k b z => Sys2Proof.Machine.execLdZ n g d k b z s
  | .ldS n g d k b z => Sys2Proof.Machine.execLdS n g d k b z s
  | .ldAcqZ n g d k b z => Sys2Proof.Machine.execLdAcqZ n g d k b z s
  | .ldAcqS n g d k b z => Sys2Proof.Machine.execLdAcqS n g d k b z s
  | .st n g c k b z => Sys2Proof.Machine.execSt n g c k b z s
  | .stRel n g c k b z => Sys2Proof.Machine.execStRel n g c k b z s
  | .stSig n g c k b z => Sys2Proof.Machine.execStSig n g c k b z s
  | .stRelSig n g c k b z => Sys2Proof.Machine.execStRelSig n g c k b z s
  | .atom n g d k o z sub => Sys2Proof.Machine.execAtom n g d k o z sub s
  | .red n g c k o z sub => Sys2Proof.Machine.execRed n g c k o z sub s
  | .rclaim n g d k b => Sys2Proof.Machine.execRclaim n g d k b s
  | .rcommit n g k b => Sys2Proof.Machine.execRcommit n g k b s
  | .rwaitf n g d k b => Sys2Proof.Machine.execRwaitf n g d k b s
  | .rwaite n g d k b => Sys2Proof.Machine.execRwaite n g d k b s
  | .rrelease n g k b => Sys2Proof.Machine.execRrelease n g k b s
  | .barinit n g k b => Sys2Proof.Machine.execBarinit n g k b s
  | .bararrive n g k b => Sys2Proof.Machine.execBararrive n g k b s
  | .barwait n g k b => Sys2Proof.Machine.execBarwait n g k b s
  | .copy n g d a c => Sys2Proof.Machine.execCopy n g d a c s
  | .copymc n g d a c => Sys2Proof.Machine.execCopymc n g d a c s
  | .gather n g d a c => Sys2Proof.Machine.execGather n g d a c s
  | .scatter n g d a c => Sys2Proof.Machine.execScatter n g d a c s
  | .nop n g => Sys2Proof.Machine.execNop n g s
  | .br n g o => Sys2Proof.Machine.execBr n g o s
  | .loop n g o => Sys2Proof.Machine.execLoop n g o s
  | .notify n g => Sys2Proof.Machine.execNotify n g s
  | .notifyCont n g => Sys2Proof.Machine.execNotifyCont n g s
  | .yield n g l => Sys2Proof.Machine.execYield n g l s
  | .phase n g p => Sys2Proof.Machine.execPhase n g p s
  | .cbar n g => Sys2Proof.Machine.execCbar n g s
  | .vadd w => Sys2Proof.Machine.execVadd w s
  | .vsub w => Sys2Proof.Machine.execVsub w s
  | .vmul w => Sys2Proof.Machine.execVmul w s
  | .vfma w => Sys2Proof.Machine.execVfma w s
  | .vfms w => Sys2Proof.Machine.execVfms w s
  | .vabs w => Sys2Proof.Machine.execVabs w s
  | .vmin w => Sys2Proof.Machine.execVmin w s
  | .vmax w => Sys2Proof.Machine.execVmax w s
  | .vrcp w => Sys2Proof.Machine.execVrcp w s
  | .vrsq w => Sys2Proof.Machine.execVrsq w s
  | .vsqrt w => Sys2Proof.Machine.execVsqrt w s
  | .vexp2 w => Sys2Proof.Machine.execVexp2 w s
  | .vlog2 w => Sys2Proof.Machine.execVlog2 w s
  | .viadd w => Sys2Proof.Machine.execViadd w s
  | .visub w => Sys2Proof.Machine.execVisub w s
  | .vimul w => Sys2Proof.Machine.execVimul w s
  | .vshl w => Sys2Proof.Machine.execVshl w s
  | .vshr w => Sys2Proof.Machine.execVshr w s
  | .vand w => Sys2Proof.Machine.execVand w s
  | .vor w => Sys2Proof.Machine.execVor w s
  | .vxor w => Sys2Proof.Machine.execVxor w s
  | .vimin w => Sys2Proof.Machine.execVimin w s
  | .vimax w => Sys2Proof.Machine.execVimax w s
  | .vcmpEq w => Sys2Proof.Machine.execVcmpEq w s
  | .vcmpNe w => Sys2Proof.Machine.execVcmpNe w s
  | .vcmpLt w => Sys2Proof.Machine.execVcmpLt w s
  | .vcmpLe w => Sys2Proof.Machine.execVcmpLe w s
  | .vcmpGt w => Sys2Proof.Machine.execVcmpGt w s
  | .vcmpGe w => Sys2Proof.Machine.execVcmpGe w s
  | .vcmpUo w => Sys2Proof.Machine.execVcmpUo w s
  | .vclass w => Sys2Proof.Machine.execVclass w s
  | .vsel w => Sys2Proof.Machine.execVsel w s
  | .vperm w => Sys2Proof.Machine.execVperm w s
  | .vrotm w => Sys2Proof.Machine.execVrotm w s
  | .vbcast w => Sys2Proof.Machine.execVbcast w s
  | .vzip w => Sys2Proof.Machine.execVzip w s
  | .vunzip w => Sys2Proof.Machine.execVunzip w s
  | .vmov w => Sys2Proof.Machine.execVmov w s
  | .vcvt src w => Sys2Proof.Machine.execVcvt src w s
  | .vpack w => Sys2Proof.Machine.execVpack w s
  | .vunpack w => Sys2Proof.Machine.execVunpack w s
  | .vrsum w => Sys2Proof.Machine.execVrsum w s
  | .vrmax w => Sys2Proof.Machine.execVrmax w s
  | .vrmin w => Sys2Proof.Machine.execVrmin w s
  | .mlogic w => Sys2Proof.Machine.execMlogic w s
  | .mpop w => Sys2Proof.Machine.execMpop w s
  | .mfirst w => Sys2Proof.Machine.execMfirst w s
  | .rmul w => Sys2Proof.Machine.execRmul w s
  | .radd w => Sys2Proof.Machine.execRadd w s
  | .rfma w => Sys2Proof.Machine.execRfma w s
  | .rnar w => Sys2Proof.Machine.execRnar w s
  | .rlrelu w => Sys2Proof.Machine.execRlrelu w s
  | .unmul w => Sys2Proof.Machine.execUnmul w s
  | .unadd w => Sys2Proof.Machine.execUnadd w s
  | .unfma w => Sys2Proof.Machine.execUnfma w s
  | .unnar w => Sys2Proof.Machine.execUnnar w s
  | .unlrelu w => Sys2Proof.Machine.execUnlrelu w s
  | .rmark w => Sys2Proof.Machine.execRmark w s
  | .rdrop w => Sys2Proof.Machine.execRdrop w s
  | .mstep w => Sys2Proof.Machine.execMstep w s
  | .mgather w => Sys2Proof.Machine.execMgather w s
  | .mzero w => Sys2Proof.Machine.execMzero w s
  | .mloadacc w => Sys2Proof.Machine.execMloadacc w s
  | .mdrain w => Sys2Proof.Machine.execMdrain w s
  | .mrdrain w => Sys2Proof.Machine.execMrdrain w s
  | .sload w => Sys2Proof.Machine.execSload w s
  | .sstore w => Sys2Proof.Machine.execSstore w s
  | .szero w => Sys2Proof.Machine.execSzero w s
  | .sread w => Sys2Proof.Machine.execSread w s
  | .scan w => Sys2Proof.Machine.execScan w s
  | .sagg w => Sys2Proof.Machine.execSagg w s
  | .snet w => Sys2Proof.Machine.execSnet w s
  | .csend w => Sys2Proof.Machine.execCsend w s
  | .crecv w => Sys2Proof.Machine.execCrecv w s
  | .sapply w => Sys2Proof.Machine.execSapply w s
  | .step w => Sys2Proof.Machine.execStep w s
  | .sopsetDiag w => Sys2Proof.Machine.execSopsetDiag w s
  | .sopsetBd2 w => Sys2Proof.Machine.execSopsetBd2 w s
  | .sopsetBd4 w => Sys2Proof.Machine.execSopsetBd4 w s
  | .sopsetBd8 w => Sys2Proof.Machine.execSopsetBd8 w s
  | .sopsetMaxplus w => Sys2Proof.Machine.execSopsetMaxplus w s
  | .sopsetGsum w => Sys2Proof.Machine.execSopsetGsum w s
  | .trapTaken => Sys2Proof.Machine.execTrapTaken s
  | .crewEndByFault => Sys2Proof.Machine.execCrewEndByFault s
  | .migrateTrap => Sys2Proof.Machine.execMigrateTrap s
  | .stallWatchdog => Sys2Proof.Machine.execStallWatchdog s
  | .yieldSave => Sys2Proof.Machine.execYieldSave s
  | .forcedSave => Sys2Proof.Machine.execForcedSave s
  | .contextRestore => Sys2Proof.Machine.execContextRestore s
  | .crewRetirement => Sys2Proof.Machine.execCrewRetirement s
  | .completionIncrement => Sys2Proof.Machine.execCompletionIncrement s
  | .copyRow => Sys2Proof.Machine.execCopyRow s
  | .engineOperationComplete => Sys2Proof.Machine.execEngineOperationComplete s
  | .loadDataReturn => Sys2Proof.Machine.execLoadDataReturn s
  | .spillBatch => Sys2Proof.Machine.execSpillBatch s
  | .refillBatch => Sys2Proof.Machine.execRefillBatch s
  | .translationWalk => Sys2Proof.Machine.execTranslationWalk s
  | .pageFaultSwap => Sys2Proof.Machine.execPageFaultSwap s
  | .keyedUpdateApply => Sys2Proof.Machine.execKeyedUpdateApply s
  | .bankUpdate => Sys2Proof.Machine.execBankUpdate s
  | .waitsigPoll => Sys2Proof.Machine.execWaitsigPoll s
  | .scanNetworkCarry => Sys2Proof.Machine.execScanNetworkCarry s
  | .carryPacketReceive => Sys2Proof.Machine.execCarryPacketReceive s
  | .carryAcknowledgement => Sys2Proof.Machine.execCarryAcknowledgement s
  | .carryCredit => Sys2Proof.Machine.execCarryCredit s
  | .carryResendRequest => Sys2Proof.Machine.execCarryResendRequest s
  | .carryTimeout => Sys2Proof.Machine.execCarryTimeout s
  | .csendPortTimeout => Sys2Proof.Machine.execCsendPortTimeout s
  | .ringMessageReceive => Sys2Proof.Machine.execRingMessageReceive s
  | .fabricRetry => Sys2Proof.Machine.execFabricRetry s
  | .remoteAcknowledgement => Sys2Proof.Machine.execRemoteAcknowledgement s
  | .voidReply => Sys2Proof.Machine.execVoidReply s
  | .launchRecordArrival => Sys2Proof.Machine.execLaunchRecordArrival s
  | .recordReady => Sys2Proof.Machine.execRecordReady s
  | .crewPlacement => Sys2Proof.Machine.execCrewPlacement s
  | .scrubHoldEnd => Sys2Proof.Machine.execScrubHoldEnd s
  | .calendarSwitch => Sys2Proof.Machine.execCalendarSwitch s
  | .pipelineAdd => Sys2Proof.Machine.execPipelineAdd s
  | .pipelinePark => Sys2Proof.Machine.execPipelinePark s
  | .progressBoundMissed => Sys2Proof.Machine.execProgressBoundMissed s
  | .launchDigest => Sys2Proof.Machine.execLaunchDigest s
  | .hostSubmitLaunch => Sys2Proof.Machine.execHostSubmitLaunch s
  | .hostCopyToDevice => Sys2Proof.Machine.execHostCopyToDevice s
  | .hostCopyToHost => Sys2Proof.Machine.execHostCopyToHost s
  | .hostSuspend => Sys2Proof.Machine.execHostSuspend s
  | .hostEcho => Sys2Proof.Machine.execHostEcho s
  | .deviceEvent => Sys2Proof.Machine.execDeviceEvent s
  | .hsqdb => Sys2Proof.Machine.execHsqdb s
  | .hsqbase => Sys2Proof.Machine.execHsqbase s
  | .hsqcfg => Sys2Proof.Machine.execHsqcfg s
  | .deqbase => Sys2Proof.Machine.execDeqbase s
  | .eqcfg => Sys2Proof.Machine.execEqcfg s
  | .fqcfg => Sys2Proof.Machine.execFqcfg s
  | .setObject => Sys2Proof.Machine.execSetObject s
  | .invalObject => Sys2Proof.Machine.execInvalObject s
  | .setHostEntry => Sys2Proof.Machine.execSetHostEntry s
  | .invalHostEntry => Sys2Proof.Machine.execInvalHostEntry s
  | .resolve => Sys2Proof.Machine.execResolve s
  | .activate => Sys2Proof.Machine.execActivate s
  | .reset => Sys2Proof.Machine.execReset s
  | .teardown => Sys2Proof.Machine.execTeardown s
  | .freeze => Sys2Proof.Machine.execFreeze s
  | .admitMove => Sys2Proof.Machine.execAdmitMove s
  | .release => Sys2Proof.Machine.execRelease s
  | .thaw => Sys2Proof.Machine.execThaw s
  | .liveMoveTransfer => Sys2Proof.Machine.execLiveMoveTransfer s
  | .pullFrame => Sys2Proof.Machine.execPullFrame s
  | .cidDrainComplete => Sys2Proof.Machine.execCidDrainComplete s
  | .assign => Sys2Proof.Machine.execAssign s
  | .free => Sys2Proof.Machine.execFree s
  | .pullmark => Sys2Proof.Machine.execPullmark s
  | .query => Sys2Proof.Machine.execQuery s
  | .blockScrub => Sys2Proof.Machine.execBlockScrub s
  | .galloc => Sys2Proof.Machine.execGalloc s
  | .grelease => Sys2Proof.Machine.execGrelease s
  | .attestationRequest => Sys2Proof.Machine.execAttestationRequest s
  | .calcommit => Sys2Proof.Machine.execCalcommit s
  | .spsliceWrite => Sys2Proof.Machine.execSpsliceWrite s
  | .spcoreWrite => Sys2Proof.Machine.execSpcoreWrite s
  | .translationRegisterWrite => Sys2Proof.Machine.execTranslationRegisterWrite s
  | .retcfgWrite => Sys2Proof.Machine.execRetcfgWrite s
  | .lqcfgWrite => Sys2Proof.Machine.execLqcfgWrite s
  | .statoWrite => Sys2Proof.Machine.execStatoWrite s
  | .dbgctlWrite => Sys2Proof.Machine.execDbgctlWrite s
  | .singleStepEnd => Sys2Proof.Machine.execSingleStepEnd s
  | .registerWrite => Sys2Proof.Machine.execRegisterWrite s
  | .coldStart => Sys2Proof.Machine.execColdStart s
  | .bootImageLoad => Sys2Proof.Machine.execBootImageLoad s
  | .functionLevelReset => Sys2Proof.Machine.execFunctionLevelReset s
  | .pwrwarn => Sys2Proof.Machine.execPwrwarn s
  | .suspendSequence => Sys2Proof.Machine.execSuspendSequence s
  | .resumeRequest => Sys2Proof.Machine.execResumeRequest s
  | .powerLost => Sys2Proof.Machine.execPowerLost s
  | .criticalTemperature => Sys2Proof.Machine.execCriticalTemperature s
  | .hardwareError => Sys2Proof.Machine.execHardwareError s
  | .selfTestVerdict => Sys2Proof.Machine.execSelfTestVerdict s
  | .linkDown => Sys2Proof.Machine.execLinkDown s
  | .sliceRetirement => Sys2Proof.Machine.execSliceRetirement s
  | .patrolScrub => Sys2Proof.Machine.execPatrolScrub s
  | .illegalInstruction => Sys2Proof.Machine.execIllegalInstruction s
  | .fetchCapabilityBounds => Sys2Proof.Machine.execFetchCapabilityBounds s
  | .fqhead => Sys2Proof.Machine.execFqhead s
  | .stubClear => Sys2Proof.Machine.execStubClear s
  | .tencfgWrite => Sys2Proof.Machine.execTencfgWrite s
  | .pwrcapWrite => Sys2Proof.Machine.execPwrcapWrite s
  | .memberReturnTimeout => Sys2Proof.Machine.execMemberReturnTimeout s
  | .commonsShareChange => Sys2Proof.Machine.execCommonsShareChange s

end Sys2Proof.Machine
end

