-- ==== Sys2Proof/Machine/Step.lean ====
section
/-!
DEFINITION. Machine/Step.lean: one step of the package.
-/
namespace Sys2Proof.Machine

/-- An engine serves a stream when it is that slot's turn. -/
def serve (core slot : Nat) (e : Eng) (part : Option Nat) (s : State) : Host.Outcome State Fault Refusal :=
  if hasTurn s core slot e then
    match prepare (takeTurn s core slot e part) core slot e with
    | .idle s1 => .next s1
    | .run s1 i => exec i s1
  else .next s

/-- One activity: a stream's next instruction, an event of the package, the passage of time, or what the world outside does. -/
def perform (a : Activity) (s : State) : Host.Outcome State Fault Refusal :=
  match a with
  | .stream core slot e => serve core slot e none s
  | .part core slot e n => serve core slot e (some n) s
  | .event i args => if i.isWord || !acts s.power i then .next s else exec i { s with ev := args }
  | .tick n => .next (tick n s)
  | .outside o => .next (outside o s)

/-- One step: the activity at the head of the agenda, or, when it is empty, one that nothing fixes. -/
def step (s : State) : Host.Outcome State Fault Refusal :=
  match s.agenda with
  | a :: rest => perform a { s with agenda := rest }
  | [] => perform (Config.nextActivity s.freeCtr) { s with freeCtr := s.freeCtr + 1 }

/-- The state with one instruction placed as the text of a crew of tenant 0 on slot 0 of core D0.0.0, whose stream of
the instruction's engine is served next. It stands for the launch of a program from outside (log entry on how a program
comes to run). -/
def State.withFetchWord (s : State) (_nbits w : Nat) : State := placeText s w

end Sys2Proof.Machine
end

