-- ==== Sys2Proof/Safety.lean ====
section
/-!
DEFINITION. Safety.lean: what a state keeps whatever happens, and the terms in which the statements speak: streams that
run, what retiring, waiting and faulting leave, frames, and the manual's own tables of results.
-/
namespace Sys2Proof.Safety
open Sys2Proof Sys2Proof.Machine

/-- The memory is in its canonical form. -/
def MemOk (s : State) : Prop := Memory.wf s.mem = true

/-! ### Streams that run -/

/-- The crew of the current stream is `c`, and its stream `e` is active. -/
def Runs (s : State) (e : Eng) (c : Crew) : Prop := crewAt s s.cur.core s.cur.slot = some c ∧ active c e = true

/-- The guard of a C, A or X word holds (R65): the predicate, or its inverse when the word says so. -/
abbrev Enabled (c : Crew) (e : Eng) (n : BitVec 1) (g : BitVec 4) : Prop := pRead c e g = decide (n = 0)

/-- The guard is false. -/
abbrev Disabled (c : Crew) (e : Eng) (n : BitVec 1) (g : BitVec 4) : Prop := pRead c e g = decide (n ≠ 0)

/-- A register file of a crew, in every stream that has one, reads as before (R77). -/
def SameScalars (c d : Crew) : Prop := ∀ e r, sRead d e r = sRead c e r
def SamePredicates (c d : Crew) : Prop := ∀ e r, pRead d e r = pRead c e r
def SameCaps (c d : Crew) : Prop := ∀ r, kRead d r = kRead c r
def SameMasks (c d : Crew) : Prop := ∀ r, mRead d r = mRead c r
def SameVectors (c d : Crew) : Prop := ∀ r, vRead d r = vRead c r
def SameCounts (c d : Crew) : Prop := ∀ e r, nRead d e r = nRead c e r

/-- The package with the record of the current crew replaced. -/
def withCrew (s : State) (c : Crew) : State := putCrew s s.cur.core s.cur.slot c

/-- The package after stream `e` of the current crew, now `c`, retires an instruction of `len` bytes. -/
def retired (s : State) (c : Crew) (e : Eng) (len : Nat) : State := withCrew s (retire c e len)

/-- The package after stream `e` goes on at another PC. -/
def jumped (s : State) (c : Crew) (e : Eng) (pc : Nat) : State := withCrew s (goto c e 4 pc)

/-- The package in which stream `e` waits in a class (R103, R267): nothing else differs. -/
def waiting (s : State) (c : Crew) (e : Eng) (cls : Nat) : State := withCrew s (setWait c e cls)

/-- The package after a precise fault of stream `e` at its own PC (R240). -/
def faultsAt (s : State) (c : Crew) (e : Eng) (cause addr : Nat) : State :=
  raise s s.cur.core s.cur.slot c
    { cause := cause, eng := e, pc := pcOf c e, addr := addr, info := 0, swc := 0, engop := false }

/-! ### Frames -/

/-- Nothing of the package but its crews differs: no byte of memory, no register block, no queue of the scheduler, no
table. -/
def OnlyCrews (s t : State) : Prop := t = { s with crews := t.crews } ∧ ∀ a, memGet t.mem a = memGet s.mem a

/-- Nothing but the current crew differs. -/
def OnlyThisCrew (s t : State) : Prop :=
  OnlyCrews s t ∧ ∀ core slot, 2 * core + slot ≠ 2 * s.cur.core + s.cur.slot → crewAt t core slot = crewAt s core slot

/-- Of stream `e` only the PC, the path walked and the wait class may differ; of the others nothing. -/
def OnlyPosition (c c' : Crew) (e : Eng) : Prop :=
  (∀ o, o ≠ e → strOf c' o = strOf c o) ∧
  strOf c' e = { strOf c e with pc := (strOf c' e).pc, path := (strOf c' e).path, wait := (strOf c' e).wait }

/-- Every register of the scalar engines is as before, but scalar register `d` of `e`. -/
def OnlyScalar (c c' : Crew) (e : Eng) (d : BitVec 5) : Prop :=
  (∀ o r, o = .c ∨ o = .a → (o ≠ e ∨ r ≠ d) → sRead c' o r = sRead c o r) ∧
  (∀ o p, o = .c ∨ o = .a → pRead c' o p = pRead c o p) ∧ ∀ k, kRead c' k = kRead c k

/-- Everything else a crew holds is as before: lane masks, vector registers, tiles, state, operators, queues, call
depth, windows, trap registers, remainder stack, forked operations, launch fields. -/
def OtherCrewState (c c' : Crew) : Prop :=
  c' = { c with strC := c'.strC, strA := c'.strA, strV := c'.strV, strM := c'.strM, strS := c'.strS, cs := c'.cs,
                as := c'.as, cp := c'.cp, ap := c'.ap, k := c'.k, fstat := c'.fstat, trap := c'.trap, ctl := c'.ctl } ∧
  c'.trap = { c.trap with hcs := c'.trap.hcs, has := c'.trap.has, hk := c'.trap.hk, hcp := c'.trap.hcp,
                          hap := c'.trap.hap, hpcC := c'.trap.hpcC, hpcA := c'.trap.hpcA, hwaitC := c'.trap.hwaitC,
                          hwaitA := c'.trap.hwaitA } ∧
  c'.ctl = { c.ctl with stall := c'.ctl.stall, stepping := c'.ctl.stepping }

/-! ### Scalar results, from the manual's tables -/

/-- `wrap(x, 64)`. -/
def wrap64 (x : Int) : Word := BitVec.ofInt 64 x

/-- What a scalar instruction does when its guard holds: the executing engine, the guard, the register it writes, the
value, and the FSTAT flags it sets. -/
structure ScalarForm where
  eng : Eng
  inv : BitVec 1
  grd : BitVec 4
  dst : BitVec 5
  val : Word
  flags : BitVec 6 := 0

/-- Number of the 64 bit positions of which something holds. -/
def countBits (p : Nat → Bool) : Nat := ((List.range 64).filter p).length

/-- `(a >> c) | wrap(a << (64 − c), 64)`. -/
def rotated (a : Word) (c : Nat) : Word := BitVec.ofNat 64 (a.toNat >>> c) ||| BitVec.ofNat 64 (a.toNat <<< (64 - c))

/-- The table of R104: what each form computes from `a`, `b` and the shift count b<5:0>. -/
inductive AluForm (c : Crew) : Instr → ScalarForm → Prop
  | add {t n g d a b} : AluForm c (.add t n g d a b)
      ⟨engOf t, n, g, d, wrap64 ((sRead c (engOf t) a).toInt + (sRead c (engOf t) b).toInt), 0⟩
  | sub {t n g d a b} : AluForm c (.sub t n g d a b)
      ⟨engOf t, n, g, d, wrap64 ((sRead c (engOf t) a).toInt - (sRead c (engOf t) b).toInt), 0⟩
  | mul {t n g d a b} : AluForm c (.mul t n g d a b)
      ⟨engOf t, n, g, d, wrap64 ((sRead c (engOf t) a).toInt * (sRead c (engOf t) b).toInt), 0⟩
  | and {t n g d a b} : AluForm c (.and t n g d a b)
      ⟨engOf t, n, g, d, (sRead c (engOf t) a) &&& (sRead c (engOf t) b), 0⟩
  | or {t n g d a b} : AluForm c (.or t n g d a b)
      ⟨engOf t, n, g, d, (sRead c (engOf t) a) ||| (sRead c (engOf t) b), 0⟩
  | xor {t n g d a b} : AluForm c (.xor t n g d a b)
      ⟨engOf t, n, g, d, (sRead c (engOf t) a) ^^^ (sRead c (engOf t) b), 0⟩
  | andn {t n g d a b} : AluForm c (.andn t n g d a b)
      ⟨engOf t, n, g, d, (sRead c (engOf t) a) &&& ~~~(sRead c (engOf t) b), 0⟩
  | shl {t n g d a b} : AluForm c (.shl t n g d a b)
      ⟨engOf t, n, g, d, wrap64 ((sRead c (engOf t) a).toNat * 2 ^ ((sRead c (engOf t) b).toNat % 64)), 0⟩
  | shr {t n g d a b} : AluForm c (.shr t n g d a b)
      ⟨engOf t, n, g, d, BitVec.ofNat 64 ((sRead c (engOf t) a).toNat / 2 ^ ((sRead c (engOf t) b).toNat % 64)), 0⟩
  | sra {t n g d a b} : AluForm c (.sra t n g d a b)
      ⟨engOf t, n, g, d, wrap64 ((sRead c (engOf t) a).toInt / 2 ^ ((sRead c (engOf t) b).toNat % 64)), 0⟩
  | rot {t n g d a b} : AluForm c (.rot t n g d a b)
      ⟨engOf t, n, g, d, rotated (sRead c (engOf t) a) ((sRead c (engOf t) b).toNat % 64), 0⟩
  | min {t n g d a b} : AluForm c (.min t n g d a b)
      ⟨engOf t, n, g, d, if (sRead c (engOf t) a).toInt ≤ (sRead c (engOf t) b).toInt then (sRead c (engOf t) a) else (sRead c (engOf t) b), 0⟩
  | max {t n g d a b} : AluForm c (.max t n g d a b)
      ⟨engOf t, n, g, d, if (sRead c (engOf t) b).toInt ≤ (sRead c (engOf t) a).toInt then (sRead c (engOf t) a) else (sRead c (engOf t) b), 0⟩
  | minz {t n g d a b} : AluForm c (.minz t n g d a b)
      ⟨engOf t, n, g, d, if (sRead c (engOf t) a).toNat ≤ (sRead c (engOf t) b).toNat then (sRead c (engOf t) a) else (sRead c (engOf t) b), 0⟩
  | maxz {t n g d a b} : AluForm c (.maxz t n g d a b)
      ⟨engOf t, n, g, d, if (sRead c (engOf t) b).toNat ≤ (sRead c (engOf t) a).toNat then (sRead c (engOf t) a) else (sRead c (engOf t) b), 0⟩
  | clz {t n g d a} : AluForm c (.clz t n g d a)
      ⟨engOf t, n, g, d, BitVec.ofNat 64 (countBits fun i => decide ((sRead c (engOf t) a).toNat < 2 ^ i)), 0⟩
  | popc {t n g d a} : AluForm c (.popc t n g d a)
      ⟨engOf t, n, g, d, BitVec.ofNat 64 (countBits fun i => (sRead c (engOf t) a).getLsbD i), 0⟩
  | sel {t n g p d a b} : AluForm c (.sel t n g p d a b)
      ⟨engOf t, n, g, d, if pRead c (engOf t) p then (sRead c (engOf t) a) else (sRead c (engOf t) b), 0⟩

/-- How sub-ops of MULH, DIV and REM read an operand: as a two's-complement or as an unsigned number. -/
def operand (signed : Bool) (x : Word) : Int := if signed then x.toInt else x.toNat

/-- Quotient and remainder of R106, and whether the divisor is zero. -/
def quotient (signed : Bool) (x y : Word) : Word :=
  if y = 0 then 0xFFFF_FFFF_FFFF_FFFF else wrap64 ((operand signed x).tdiv (operand signed y))
def remainder (signed : Bool) (x y : Word) : Word :=
  if y = 0 then x else wrap64 ((operand signed x).tmod (operand signed y))

/-- The tables of R105 and R106, for the sub-ops that decode: signed (0), unsigned (1), and for MULH signed by unsigned
(2). A zero divisor sets IDZ. -/
inductive WideForm (c : Crew) : Instr → ScalarForm → Prop
  | mulh {t n g d a b} {sub : BitVec 2} (h : sub ≠ 3) : WideForm c (.mulh t n g d a b sub)
      ⟨engOf t, n, g, d, wrap64 (operand (decide (sub ≠ 1)) (sRead c (engOf t) a) *
        operand (decide (sub = 0)) (sRead c (engOf t) b) / 2 ^ 64), 0⟩
  | div {t n g d a b} {sub : BitVec 2} (h : sub = 0 ∨ sub = 1) : WideForm c (.div t n g d a b sub)
      ⟨engOf t, n, g, d, quotient (decide (sub = 0)) (sRead c (engOf t) a) (sRead c (engOf t) b),
        if sRead c (engOf t) b = 0 then flIDZ else 0⟩
  | rem {t n g d a b} {sub : BitVec 2} (h : sub = 0 ∨ sub = 1) : WideForm c (.rem t n g d a b sub)
      ⟨engOf t, n, g, d, remainder (decide (sub = 0)) (sRead c (engOf t) a) (sRead c (engOf t) b),
        if sRead c (engOf t) b = 0 then flIDZ else 0⟩

/-- The immediate forms of R107. -/
inductive ImmediateForm (c : Crew) : Instr → ScalarForm → Prop
  | addi {t n g d a i} : ImmediateForm c (.addi t n g d a i)
      ⟨engOf t, n, g, d, wrap64 ((sRead c (engOf t) a).toInt + i.toInt), 0⟩
  | andi {t n g d a i} : ImmediateForm c (.andi t n g d a i)
      ⟨engOf t, n, g, d, sRead c (engOf t) a &&& wrap64 i.toInt, 0⟩
  | ori {t n g d a i} : ImmediateForm c (.ori t n g d a i)
      ⟨engOf t, n, g, d, sRead c (engOf t) a ||| wrap64 i.toInt, 0⟩
  | xori {t n g d a i} : ImmediateForm c (.xori t n g d a i)
      ⟨engOf t, n, g, d, sRead c (engOf t) a ^^^ wrap64 i.toInt, 0⟩
  | shli {t n g d a i} : ImmediateForm c (.shli t n g d a i)
      ⟨engOf t, n, g, d, wrap64 ((sRead c (engOf t) a).toNat * 2 ^ i.toNat), 0⟩
  | shri {t n g d a i} : ImmediateForm c (.shri t n g d a i)
      ⟨engOf t, n, g, d, BitVec.ofNat 64 ((sRead c (engOf t) a).toNat / 2 ^ i.toNat), 0⟩
  | li {t n g d i} : ImmediateForm c (.li t n g d i) ⟨engOf t, n, g, d, wrap64 i.toInt, 0⟩
  | liu {t n g d i} : ImmediateForm c (.liu t n g d i)
      ⟨engOf t, n, g, d, BitVec.ofNat 64 ((sRead c (engOf t) d).toNat * 2 ^ 12 + i.toNat), 0⟩

/-- The scalar instructions that write one register and at most the flag IDZ. -/
def WritesOne (c : Crew) (i : Instr) (f : ScalarForm) : Prop := AluForm c i f ∨ WideForm c i f ∨ ImmediateForm c i f


/-- An instruction of several parcels, the first at the lowest address. -/
def parcels (l : List Nat) : Nat := l.foldr (fun p rest => p + 2 ^ 32 * rest) 0

/-- The tag of an instruction (R60): 0 C, 1 A, 2 V, 3 M, 4 S, 5 the joint words; the words that C and A share say which of the
two they are for. 7 for an event, which is no word. -/
def tagOfWord : Instr → Nat
  | .add t .. | .sub t .. | .mul t .. | .mulh t .. | .div t .. | .rem t .. | .and t .. | .or t .. | .xor t ..
  | .andn t .. | .shl t .. | .shr t .. | .sra t .. | .rot t .. | .min t .. | .max t .. | .minz t .. | .maxz t ..
  | .clz t .. | .popc t .. | .addi t .. | .andi t .. | .ori t .. | .xori t .. | .shli t .. | .shri t .. | .li t ..
  | .liu t .. | .plogic t .. | .qpop t .. | .qsend t .. | .rdcyc t .. | .rdid t .. | .waitd t .. | .sel t ..
  | .cmp t .. | .cmpi t .. => t.toNat
  | .fmtq .. | .setnReg .. | .setnImm .. | .slip .. | .brl .. | .ret .. | .jmpr .. | .srd .. | .swr .. | .trap ..
  | .trapret .. | .trapinstall .. | .launch .. | .pquiesce .. | .pstatus .. | .pbound .. | .tlbshoot .. | .dbg ..
  | .suspend .. => 0
  | .ldq .. | .ldv .. | .stq .. | .waitsig .. | .fence .. | .keep .. | .unkeep .. | .cwait .. | .kset .. | .koff ..
  | .klim .. | .krights .. | .kmov .. | .kld .. | .kst .. | .ktest .. | .ldZ .. | .ldS .. | .ldAcqZ .. | .ldAcqS ..
  | .st .. | .stRel .. | .stSig .. | .stRelSig .. | .atom .. | .red .. | .rclaim .. | .rcommit .. | .rwaitf ..
  | .rwaite .. | .rrelease .. | .barinit .. | .bararrive .. | .barwait .. | .copy .. | .copymc .. | .gather ..
  | .scatter .. => 1
  | .vadd .. | .vsub .. | .vmul .. | .vfma .. | .vfms .. | .vabs .. | .vmin .. | .vmax .. | .vrcp .. | .vrsq ..
  | .vsqrt .. | .vexp2 .. | .vlog2 .. | .viadd .. | .visub .. | .vimul .. | .vshl .. | .vshr .. | .vand .. | .vor ..
  | .vxor .. | .vimin .. | .vimax .. | .vcmpEq .. | .vcmpNe .. | .vcmpLt .. | .vcmpLe .. | .vcmpGt .. | .vcmpGe ..
  | .vcmpUo .. | .vclass .. | .vsel .. | .vperm .. | .vrotm .. | .vbcast .. | .vzip .. | .vunzip .. | .vmov ..
  | .vcvt .. | .vpack .. | .vunpack .. | .vrsum .. | .vrmax .. | .vrmin .. | .mlogic .. | .mpop .. | .mfirst ..
  | .rmul .. | .radd .. | .rfma .. | .rnar .. | .rlrelu .. | .unmul .. | .unadd .. | .unfma .. | .unnar ..
  | .unlrelu .. | .rmark .. | .rdrop .. => 2
  | .mstep .. | .mgather .. | .mzero .. | .mloadacc .. | .mdrain .. | .mrdrain .. => 3
  | .sload .. | .sstore .. | .szero .. | .sread .. | .scan .. | .sagg .. | .snet .. | .csend .. | .crecv ..
  | .sapply .. | .step .. | .sopsetDiag .. | .sopsetBd2 .. | .sopsetBd4 .. | .sopsetBd8 .. | .sopsetMaxplus ..
  | .sopsetGsum .. => 4
  | .nop .. | .br .. | .loop .. | .notify .. | .notifyCont .. | .yield .. | .phase .. | .cbar .. => 5
  | _ => 7

/-! ### Streams that step -/

/-- Tags whose instructions a stream reads whole: its own, the joint words, and for V, M and S the words of C, among
which it meets the SETNs (R60, R263). -/
def reads (c : Crew) (e : Eng) (tag : Nat) : Bool :=
  decide (tag = tagOfEng e) || decide (tag = 5) || (decide (tag = 0) && decide (e ≠ .a) && !c.trap.inHandler)

/-- The activity at the head of the agenda is a turn of stream `e` on a slot: a whole one, or one of up to so many boundaries
of the instruction under way. -/
def Offers (a : Activity) (core slot : Nat) (e : Eng) (part : Option Nat) : Prop :=
  (a = .stream core slot e ∧ part = none) ∨ ∃ n, a = .part core slot e n ∧ part = some n

/-- Stream `e` of the crew `c` on a slot is served next, it is that slot's turn (R260), the stream may run, and it finds the
words `w` with this tag at its PC; `s1` is the package once they are fetched, with that stream current. -/
def Fetches (s : State) (core slot : Nat) (e : Eng) (c : Crew) (tag w : Nat) (s1 : State) : Prop :=
  ∃ a rest part, s.agenda = a :: rest ∧ Offers a core slot e part ∧ hasTurn { s with agenda := rest } core slot e = true ∧
    crewAt s core slot = some c ∧ canRun c e = true ∧
    fetch (takeTurn { s with agenda := rest } core slot e part) c (dieOf core) (textOf c) (pcOf c e) (reads c e) =
      (s1, .words tag w)

/-- The bytes by which the stream's PATH would grow (R259): those of C's calls and returns differ. -/
def growth (c : Crew) (e : Eng) (tag w : Nat) : Nat :=
  pathGrowth c e (lenOfTag tag) (if tag = 0 ∧ e = .c then decodeFields w else none)

/-- The package after a fault of stream `e` at its own PC, on the slot that is served. -/
def faultsOn (s : State) (core slot : Nat) (c : Crew) (e : Eng) (cause addr : Nat) : State :=
  raise s core slot c { cause := cause, eng := e, pc := pcOf c e, addr := addr, info := 0, swc := 0, engop := false }

/-! ### Power states -/

/-- Events that act in a power state: all of them with power on; before firmware the register file and the ROM; in retention the
resume and the loss of power; without power a cold start. -/
inductive ActsIn : Power → Instr → Prop
  | run {i} : ActsIn .run i
  | suspending {p w i} : ActsIn (.suspending p w) i
  | cold {p} : ActsIn p .coldStart
  | boot : ActsIn .bootstrap .bootImageLoad
  | registers : ActsIn .bootstrap .registerWrite
  | hot : ActsIn .bootstrap .criticalTemperature
  | resume : ActsIn .retention .resumeRequest
  | lost : ActsIn .retention .powerLost
  | kept : ActsIn .retention .criticalTemperature


/-! ### Compares, queues, counters, calls -/

/-- The conditions of R68 on sext and zext values. -/
def condition (cc : Nat) (a b : Word) : Bool :=
  match cc with
  | 0 => decide (a = b)
  | 1 => decide (a ≠ b)
  | 2 => decide (a.toInt < b.toInt)
  | 3 => decide (b.toInt ≤ a.toInt)
  | 4 => decide (a.toNat < b.toNat)
  | 5 => decide (b.toNat ≤ a.toNat)
  | 6 => decide (a &&& b ≠ 0)
  | _ => decide (a &&& b = 0)

/-- What a compare leaves of the predicates: pd := c and g, then pe := (not c) and g. -/
def compared (c : Crew) (e : Eng) (g r : Bool) (d p : BitVec 4) : Crew := pWrite (pWrite c e d (r && g)) e p (!r && g)

/-- The crew once the oldest entry of a queue is removed, or an entry of 64 bits is appended. -/
def popped (c : Crew) (q : Nat) (rest : List QEntry) : Crew := { c with queues := setNth c.queues q rest }
def pushed (c : Crew) (q : Nat) (x : Word) : Crew :=
  { c with queues := setNth c.queues q (queueOf c q ++ [⟨x.setWidth 512, 0, false, 0, 0⟩]) }

/-- The four values of R112. -/
def identity (s : State) (c : Crew) (sub : Nat) : Nat :=
  match sub with
  | 0 => s.cur.core
  | 1 => c.rank
  | 2 => c.tenant * 256 + fnGen s (fnOf s c.tenant)
  | _ => s.cur.slot % 2 + 2 * (if s.cur.core / 32 % 2 = 0 then 1 else 0)

/-- Whose counter WAITD reads (R113). -/
def waitsOn (t : BitVec 1) (e : BitVec 2) : Eng :=
  if e = 0 then engOf t else if e = 1 then .v else if e = 2 then .m else .s

/-- An operation of A's counter `k` that has been counted down (R150). -/
def covered (k : Nat) (o : EngOp) : Bool := o.fell && decide (fld o.desc 16 3 = k)

/-- `PC + 4 · sext(off17, 17)`, of 64 bits (R67). -/
def target (pc : Nat) (o : BitVec 17) : Nat := (((pc : Int) + 4 * o.toInt) % 2 ^ 64).toNat


/-- The guarded scalar instructions, with the engine that executes each and its guard (R65, R66): every one but the compares, the
joint words, SETN, the words that check a mode first, and LDV and the copies, which keep their place even when nulled (R136). -/
inductive Guarded : Instr → Eng → BitVec 1 → BitVec 4 → Prop
  | add {t n g d a b} : Guarded (.add t n g d a b) (engOf t) n g
  | sub {t n g d a b} : Guarded (.sub t n g d a b) (engOf t) n g
  | mul {t n g d a b} : Guarded (.mul t n g d a b) (engOf t) n g
  | mulh {t n g d a b sub} : Guarded (.mulh t n g d a b sub) (engOf t) n g
  | div {t n g d a b sub} : Guarded (.div t n g d a b sub) (engOf t) n g
  | rem {t n g d a b sub} : Guarded (.rem t n g d a b sub) (engOf t) n g
  | and {t n g d a b} : Guarded (.and t n g d a b) (engOf t) n g
  | or {t n g d a b} : Guarded (.or t n g d a b) (engOf t) n g
  | xor {t n g d a b} : Guarded (.xor t n g d a b) (engOf t) n g
  | andn {t n g d a b} : Guarded (.andn t n g d a b) (engOf t) n g
  | shl {t n g d a b} : Guarded (.shl t n g d a b) (engOf t) n g
  | shr {t n g d a b} : Guarded (.shr t n g d a b) (engOf t) n g
  | sra {t n g d a b} : Guarded (.sra t n g d a b) (engOf t) n g
  | rot {t n g d a b} : Guarded (.rot t n g d a b) (engOf t) n g
  | min {t n g d a b} : Guarded (.min t n g d a b) (engOf t) n g
  | max {t n g d a b} : Guarded (.max t n g d a b) (engOf t) n g
  | minz {t n g d a b} : Guarded (.minz t n g d a b) (engOf t) n g
  | maxz {t n g d a b} : Guarded (.maxz t n g d a b) (engOf t) n g
  | clz {t n g d a} : Guarded (.clz t n g d a) (engOf t) n g
  | popc {t n g d a} : Guarded (.popc t n g d a) (engOf t) n g
  | addi {t n g d a imm} : Guarded (.addi t n g d a imm) (engOf t) n g
  | andi {t n g d a imm} : Guarded (.andi t n g d a imm) (engOf t) n g
  | ori {t n g d a imm} : Guarded (.ori t n g d a imm) (engOf t) n g
  | xori {t n g d a imm} : Guarded (.xori t n g d a imm) (engOf t) n g
  | shli {t n g d a imm} : Guarded (.shli t n g d a imm) (engOf t) n g
  | shri {t n g d a imm} : Guarded (.shri t n g d a imm) (engOf t) n g
  | li {t n g d imm} : Guarded (.li t n g d imm) (engOf t) n g
  | liu {t n g d imm} : Guarded (.liu t n g d imm) (engOf t) n g
  | plogic {t n g d a b f} : Guarded (.plogic t n g d a b f) (engOf t) n g
  | qpop {t n g d q} : Guarded (.qpop t n g d q) (engOf t) n g
  | qsend {t n g q a} : Guarded (.qsend t n g q a) (engOf t) n g
  | rdcyc {t n g d} : Guarded (.rdcyc t n g d) (engOf t) n g
  | rdid {t n g d sub} : Guarded (.rdid t n g d sub) (engOf t) n g
  | waitd {t n g e c k} : Guarded (.waitd t n g e c k) (engOf t) n g
  | sel {t n g p d a b} : Guarded (.sel t n g p d a b) (engOf t) n g
  | fmtq {n g a} : Guarded (.fmtq n g a) .c n g
  | slip {n g imm} : Guarded (.slip n g imm) .c n g
  | brl {n g o} : Guarded (.brl n g o) .c n g
  | ret {n g} : Guarded (.ret n g) .c n g
  | jmpr {n g a} : Guarded (.jmpr n g a) .c n g
  | ldq {n g q k b z} : Guarded (.ldq n g q k b z) .a n g
  | stq {n g q k b} : Guarded (.stq n g q k b) .a n g
  | waitsig {n g d k b z} : Guarded (.waitsig n g d k b z) .a n g
  | fence {n g k sub} : Guarded (.fence n g k sub) .a n g
  | keep {n g c k b} : Guarded (.keep n g c k b) .a n g
  | unkeep {n g c k b} : Guarded (.unkeep n g c k b) .a n g
  | cwait {n g d k b} : Guarded (.cwait n g d k b) .a n g
  | kset {n g d a b} : Guarded (.kset n g d a b) .a n g
  | koff {n g d a b} : Guarded (.koff n g d a b) .a n g
  | klim {n g d a b} : Guarded (.klim n g d a b) .a n g
  | krights {n g d a b} : Guarded (.krights n g d a b) .a n g
  | kmov {n g d a} : Guarded (.kmov n g d a) .a n g
  | kld {n g d a b} : Guarded (.kld n g d a b) .a n g
  | kst {n g c a b} : Guarded (.kst n g c a b) .a n g
  | ktest {n g d a b} : Guarded (.ktest n g d a b) .a n g
  | ldZ {n g d k b z} : Guarded (.ldZ n g d k b z) .a n g
  | ldS {n g d k b z} : Guarded (.ldS n g d k b z) .a n g
  | ldAcqZ {n g d k b z} : Guarded (.ldAcqZ n g d k b z) .a n g
  | ldAcqS {n g d k b z} : Guarded (.ldAcqS n g d k b z) .a n g
  | st {n g c k b z} : Guarded (.st n g c k b z) .a n g
  | stRel {n g c k b z} : Guarded (.stRel n g c k b z) .a n g
  | stSig {n g c k b z} : Guarded (.stSig n g c k b z) .a n g
  | stRelSig {n g c k b z} : Guarded (.stRelSig n g c k b z) .a n g
  | atom {n g d k o z sub} : Guarded (.atom n g d k o z sub) .a n g
  | red {n g c k o z sub} : Guarded (.red n g c k o z sub) .a n g
  | rclaim {n g d k b} : Guarded (.rclaim n g d k b) .a n g
  | rcommit {n g k b} : Guarded (.rcommit n g k b) .a n g
  | rwaitf {n g d k b} : Guarded (.rwaitf n g d k b) .a n g
  | rwaite {n g d k b} : Guarded (.rwaite n g d k b) .a n g
  | rrelease {n g k b} : Guarded (.rrelease n g k b) .a n g
  | barinit {n g k b} : Guarded (.barinit n g k b) .a n g
  | bararrive {n g k b} : Guarded (.bararrive n g k b) .a n g
  | barwait {n g k b} : Guarded (.barwait n g k b) .a n g
  | trap {n g imm} : Guarded (.trap n g imm) .c n g
  | dbg {n g imm} : Guarded (.dbg n g imm) .c n g


/-! ### Joint words (R245 to R249, R258 to R263) -/

/-- C may decide a joint word: no handler runs, the call depth is zero, and the outcome FIFO of every active A, V, M and S
has room. -/
def Decides (c : Crew) : Prop :=
  c.trap.inHandler = false ∧ c.cd = 0 ∧ ∀ e, e ≠ .c → active c e = true → (strOf c e).fifo.length < 64

/-- The crew once C has appended {PC, taken} to the outcome FIFO of every active A, V, M and S and counted the outcome. -/
def delivered (c : Crew) (taken : Bool) : Crew :=
  countJoint (fifoPush c [.a, .v, .m, .s] (jointEntry (pcOf c .c) taken)) .c

/-- The oldest outcome of stream `e` is a joint entry that bears its PC: the entry, and what it leaves of the FIFO. -/
def Finds (c : Crew) (e : Eng) (taken : Bool) (rest : List Word) : Prop :=
  ∃ x, (strOf c e).fifo = x :: rest ∧ entryPc x = pcOf c e % 2 ^ 32 ∧ entryKind x = (if taken then 1 else 0)

/-- Stream `o` waits for an outcome of C that no FIFO entry gives it. -/
def Starved (c : Crew) (o : Eng) : Prop := o ≠ .c ∧ active c o = true ∧ (strOf c o).wait = 3 ∧ (strOf c o).fifo = []

/-- With stream `e`, C has stopped at an unassigned X word, and so has every other stream or one waits for C's outcome. -/
def AllStop (c : Crew) (e : Eng) : Prop :=
  (e = .c ∨ (strOf c .c).status = .joint 3 0) ∧
    ((∀ o, active c o = true → o ≠ e → (strOf c o).status = .joint 3 0) ∨ ∃ o, o ≠ e ∧ Starved c o)

/-- C would append to a full outcome FIFO at an X word (R262). -/
def Full (c : Crew) (e : Eng) (w : Nat) : Prop :=
  e = .c ∧ w / 2 ^ 29 % 8 = 5 ∧ c.trap.inHandler = false ∧ c.cd = 0 ∧ fifoFull c jointEngs = true

/-- The words that every stream takes from C's outcome (R85). -/
inductive JointWord : Instr → Prop
  | nop {n g} : JointWord (.nop n g)
  | br {n g o} : JointWord (.br n g o)
  | loop {n g o} : JointWord (.loop n g o)
  | cbar {n g} : JointWord (.cbar n g)
  | phase {n g p} : JointWord (.phase n g p)
  | yield {n g l} : JointWord (.yield n g l)
  | notify {n g} : JointWord (.notify n g)
  | notifyCont {n g} : JointWord (.notifyCont n g)

/-- The crew once stream `e` has popped its outcome and counted it. -/
def collected (c : Crew) (e : Eng) (rest : List Word) : Crew :=
  setStr c e { strOf c e with fifo := rest, joints := (strOf c e).joints + 1 }

/-- The outcome of a joint word whose decision by C is `taken`: C decides and delivers it, any other stream collects it. -/
def Outcome (c : Crew) (e : Eng) (decided taken : Bool) (c' : Crew) : Prop :=
  (e = .c ∧ Decides c ∧ taken = decided ∧ c' = delivered c taken) ∨
  (e ≠ .c ∧ c.trap.inHandler = false ∧ ∃ rest, Finds c e taken rest ∧ c' = collected c e rest)

/-- The crew whose stream `e` stops at a meeting point (wait class 0xB); its stall counter runs on (R268). -/
def arrived (c : Crew) (e : Eng) (st : StreamStatus) : Crew :=
  setWait (setStr c e { strOf c e with status := st }) e 0xB

/-- The package once stream `e` has stopped at a meeting point and, if it was the last, all have passed. -/
def meeting (s : State) (c : Crew) (e : Eng) (st : StreamStatus) : State :=
  meet (withCrew s (arrived c e st)) s.cur.core s.cur.slot

/-- Whether the words of a meeting stop the stream: the opcode's status. -/
inductive Meets : Instr → BitVec 1 → BitVec 4 → StreamStatus → Prop
  | cbar {n g} : Meets (.cbar n g) n g (.joint 0 0)
  | notify {n g} : Meets (.notify n g) n g .arrived
  | notifyCont {n g} : Meets (.notifyCont n g) n g (.joint 2 0)


/-! ### System registers, traps and system operations (R237 to R257) -/

/-- A flag as a number. -/
def flag (b : Bool) : Nat := if b then 1 else 0

/-- A handler register is open to a crew in handler mode and to one with system privilege (R238). -/
def HandlerOpen (c : Crew) : Prop := c.trap.inHandler = true ∨ c.flags.getLsbD 0 = true

/-- The system register map of R238: number, and value read, where the crew may name the register. -/
inductive SysValue (c : Crew) : BitVec 12 → Word → Prop
  | fstat : SysValue c 0x000 (c.fstat.setWidth 64)
  | rstat : SysValue c 0x001 (BitVec.ofNat 64 (c.rem.rspill * 2 ^ 32 + c.rem.rdepth))
  | preqNone (h : c.ctl.preq = false) : SysValue c 0x002 0
  | preq (h : c.ctl.preq = true) : SysValue c 0x002 (BitVec.ofNat 64 (1 + min c.ctl.deadline 0xFFFFFFFF * 2 ^ 32))
  | slipw : SysValue c 0x003 (BitVec.ofNat 64 c.slipw)
  | demote : SysValue c 0x004 (BitVec.ofNat 64 (flag c.demote))
  | mode : SysValue c 0x005 (BitVec.ofNat 64 (flag (c.flags.getLsbD 1) + 2 * flag (c.flags.getLsbD 2) +
      4 * flag (c.flags.getLsbD 0) + 8 * flag c.trap.inHandler + 16 * flag (c.flags.getLsbD 4)))
  | tcause (h : HandlerOpen c) : SysValue c 0x100 c.trap.tcause
  | tpc (h : HandlerOpen c) : SysValue c 0x101 c.trap.tpc
  | taddr (h : HandlerOpen c) : SysValue c 0x102 c.trap.taddr
  | tinfo (h : HandlerOpen c) : SysValue c 0x103 c.trap.tinfo
  | pbres (h : c.flags.getLsbD 0 = true) : SysValue c 0x180 c.ctl.pbres
  | dbgctl (h : c.flags.getLsbD 0 = true) : SysValue c 0x200 c.ctl.dbgctl
  | dbgstat (h : c.flags.getLsbD 0 = true) : SysValue c 0x201 c.ctl.dbgstat

/-- The crew may not name the register: the map does not list it, or it is closed to the crew. -/
def SysClosed (c : Crew) (r : BitVec 12) : Prop :=
  (¬∃ x, SysValue { c with flags := 1 } r x) ∨
  (0x100 ≤ r.toNat ∧ r.toNat ≤ 0x103 ∧ ¬HandlerOpen c) ∨ (0x180 ≤ r.toNat ∧ c.flags.getLsbD 0 = false)

/-- The TCAUSE value of a fault (R242). -/
def causeWord (f : FaultInfo) : Nat :=
  f.swc % 4096 * 2 ^ 18 + flag f.engop * 2 ^ 11 + (match f.eng with | .c => 0 | .a => 1 | .v => 2 | .m => 3 | .s => 4) * 2 ^ 8 +
    f.cause % 256

/-- No stream earlier in the order C, A, V, M, S has a pending fault (R240). -/
def NonePending (c : Crew) (e : Eng) : Prop :=
  ∀ o g, active c o = true → engCode o < engCode e → (strOf c o).status ≠ .faulted g

/-- The privileged words of R86, with their guards. -/
inductive Privileged : Instr → BitVec 1 → BitVec 4 → Prop
  | trapinstall {n g a b} : Privileged (.trapinstall n g a b) n g
  | launch {n g a b} : Privileged (.launch n g a b) n g
  | pquiesce {n g a} : Privileged (.pquiesce n g a) n g
  | pstatus {n g d a} : Privileged (.pstatus n g d a) n g
  | pbound {n g a b} : Privileged (.pbound n g a b) n g
  | tlbshoot {n g a b sub} : Privileged (.tlbshoot n g a b sub) n g
  | suspend {n g a} : Privileged (.suspend n g a) n g

/-- C of a privileged crew, its guard true. -/
def RunsPrivileged (s : State) (c : Crew) (n : BitVec 1) (g : BitVec 4) : Prop :=
  Runs s .c c ∧ c.flags.getLsbD 0 = true ∧ Enabled c .c n g

/-! ### Partitions (R251, R252) -/

/-- Launch queue `i` holds a record that a quarter may take: its mask names the quarter, and so does its tenant's partition. -/
def Placeable (s : State) (q i : Nat) : Prop :=
  (queueMask s i).testBit q = true ∧ ∃ p ∈ s.sched.queued, p.1 = i ∧
    ∃ l, launchById s p.2 = some l ∧ (l.tenant = 0 ∨ (fnPart s (fnOf s l.tenant)).testBit q = true)

/-- A crew is resident on a quarter. -/
def Occupied (s : State) (q : Nat) : Prop := ∃ p ∈ s.crews, p.1 / 2 / 64 = q

/-- A quarter that PBOUND's mask names, or whose partition shares one with it. -/
def Affected (s : State) (mask q : Nat) : Prop :=
  q < 4 ∧ (mask.testBit q = true ∨
    ∃ r, r < 4 ∧ mask.testBit r = true ∧ (fld (regGet s 0 (rMEMIL q)) 0 4).testBit r = true)

/-- The first affected quarter of which `bad` holds. -/
def FirstBad (s : State) (mask : Nat) (bad : Nat → Prop) (q : Nat) : Prop :=
  Affected s mask q ∧ bad q ∧ ∀ r, r < q → Affected s mask r → ¬bad r


/-! ### Capabilities (R119 to R123) -/

/-- `k'` grants nothing that `k` does not: the same object, no lower cursor, no higher limit, no further right (R121). -/
def Within (k k' : Cap) : Prop :=
  capSpace k' = capSpace k ∧ capObj k' = capObj k ∧ capGen k' = capGen k ∧ capCursor k ≤ capCursor k' ∧
    capLimit k' ≤ capLimit k ∧ ∀ i, (capRights k').testBit i = true → (capRights k).testBit i = true

/-- The instructions that derive one capability register from another: guard, destination, source. -/
inductive Derivation : Instr → BitVec 1 → BitVec 4 → BitVec 5 → BitVec 5 → Prop
  | kset {n g d a b} : Derivation (.kset n g d a b) n g d a
  | koff {n g d a b} : Derivation (.koff n g d a b) n g d a
  | klim {n g d a b} : Derivation (.klim n g d a b) n g d a
  | krights {n g d a b} : Derivation (.krights n g d a b) n g d a
  | kmov {n g d a} : Derivation (.kmov n g d a) n g d a

/-! ### Accesses of A (R127 to R132, R138 to R147) -/

/-- `addr` with its low log2(size) bits cleared. -/
def aligned (size addr : Nat) : Nat := addr / size * size

/-- A unit as a two's-complement number of `w` bits. -/
def signed (w x : Nat) : Int := if x < 2 ^ (w - 1) then (x : Int) else (x : Int) - 2 ^ w

/-- The access of one instruction of A: its guard, the capability, the rights and page bits it needs, the unit `off` of
`size` bytes, whether it reads and writes there, and where it acts at the scope its target reaches. -/
structure AccessForm where
  inv : BitVec 1
  grd : BitVec 4
  cap : Cap
  kind : AccKind
  size : Nat
  off : Nat
  rd : Bool
  wr : Bool
  orders : Acc → Bool

/-- An access to a strong page orders (R283); an acquire or release orders on every page that is not loose (R132). -/
def strong (a : Acc) : Bool := decide (a.ord = 0)
def acquires (a : Acc) : Bool := decide (a.ord ≠ 2)

/-- [ka + sb] and [ka], aligned to the size (R127). -/
def atOffset (c : Crew) (k b : BitVec 5) (size : Nat) : Nat :=
  aligned size (capCursor (kRead c k) + (sRead c .a b).toNat)
def atCursor (c : Crew) (k : BitVec 5) (size : Nat) : Nat := aligned size (capCursor (kRead c k))

/-- 4 or 8 bytes. -/
def wordSize (z : BitVec 1) : Nat := if z = 0 then 4 else 8

/-- The accesses of the A instructions. -/
inductive Accesses (c : Crew) : Instr → AccessForm → Prop
  | ldZ {n g d k b z} : Accesses c (.ldZ n g d k b z)
      ⟨n, g, kRead c k, kLoad, 2 ^ z.toNat, atOffset c k b (2 ^ z.toNat), true, false, strong⟩
  | ldS {n g d k b z} : Accesses c (.ldS n g d k b z)
      ⟨n, g, kRead c k, kLoad, 2 ^ z.toNat, atOffset c k b (2 ^ z.toNat), true, false, strong⟩
  | ldAcqZ {n g d k b z} : Accesses c (.ldAcqZ n g d k b z)
      ⟨n, g, kRead c k, kLoad, 2 ^ z.toNat, atOffset c k b (2 ^ z.toNat), true, false, acquires⟩
  | ldAcqS {n g d k b z} : Accesses c (.ldAcqS n g d k b z)
      ⟨n, g, kRead c k, kLoad, 2 ^ z.toNat, atOffset c k b (2 ^ z.toNat), true, false, acquires⟩
  | st {n g r k b z} : Accesses c (.st n g r k b z)
      ⟨n, g, kRead c k, kStore, 2 ^ z.toNat, atOffset c k b (2 ^ z.toNat), false, true, strong⟩
  | stRel {n g r k b z} : Accesses c (.stRel n g r k b z)
      ⟨n, g, kRead c k, kStore, 2 ^ z.toNat, atOffset c k b (2 ^ z.toNat), false, true, acquires⟩
  | stSig {n g r k b z} : Accesses c (.stSig n g r k b z)
      ⟨n, g, kRead c k, kStoreSig, 2 ^ z.toNat, atOffset c k b (2 ^ z.toNat), false, true, strong⟩
  | stRelSig {n g r k b z} : Accesses c (.stRelSig n g r k b z)
      ⟨n, g, kRead c k, kStoreSig, 2 ^ z.toNat, atOffset c k b (2 ^ z.toNat), false, true, acquires⟩
  | kld {n g d k b} : Accesses c (.kld n g d k b) ⟨n, g, kRead c k, kKld, 16, atOffset c k b 16, true, false, strong⟩
  | kst {n g r k b} : Accesses c (.kst n g r k b) ⟨n, g, kRead c k, kKst, 16, atOffset c k b 16, false, true, strong⟩
  | ldqRow {n g q k b z} (h : q ≠ 2) : Accesses c (.ldq n g q k b z)
      ⟨n, g, kRead c k, kLdq, 64, atOffset c k b 64, true, false, strong⟩
  | ldqUnit {n g k b z} : Accesses c (.ldq n g 2 k b z)
      ⟨n, g, kRead c k, kLdq, 2 ^ z.toNat, atOffset c k b (2 ^ z.toNat), true, false, strong⟩
  | stq {n g q k b} : Accesses c (.stq n g q k b) ⟨n, g, kRead c k, kStq, 64, atOffset c k b 64, false, true, strong⟩
  | atom {n g d k o z sub} : Accesses c (.atom n g d k o z sub)
      ⟨n, g, kRead c k, kAtom (decide (sub = 1)), wordSize z, atCursor c k (wordSize z), true, true, strong⟩
  | red {n g r k o z sub} : Accesses c (.red n g r k o z sub)
      ⟨n, g, kRead c k, kRed (decide (sub = 1)), wordSize z, atCursor c k (wordSize z), false, true, strong⟩
  | waitsig {n g d k b z} : Accesses c (.waitsig n g d k b z)
      ⟨n, g, kRead c k, kWait, wordSize z, atOffset c k b (wordSize z), true, false, strong⟩
  | cwait {n g d k b} : Accesses c (.cwait n g d k b) ⟨n, g, kRead c k, kWait, 8, atOffset c k b 8, true, false, strong⟩
  | rclaim {n g d k b} : Accesses c (.rclaim n g d k b) ⟨n, g, kRead c k, kRing, 64, atCursor c k 64, true, true, strong⟩
  | rcommit {n g k b} : Accesses c (.rcommit n g k b) ⟨n, g, kRead c k, kRing, 64, atCursor c k 64, true, true, acquires⟩
  | rwaitf {n g d k b} : Accesses c (.rwaitf n g d k b) ⟨n, g, kRead c k, kRing, 64, atCursor c k 64, true, true, strong⟩
  | rwaite {n g d k b} : Accesses c (.rwaite n g d k b) ⟨n, g, kRead c k, kRing, 64, atCursor c k 64, true, true, strong⟩
  | rrelease {n g k b} : Accesses c (.rrelease n g k b) ⟨n, g, kRead c k, kRing, 64, atCursor c k 64, true, true, acquires⟩
  | barinit {n g k b} : Accesses c (.barinit n g k b) ⟨n, g, kRead c k, kRing, 8, atCursor c k 8, true, true, strong⟩
  | bararrive {n g k b} : Accesses c (.bararrive n g k b) ⟨n, g, kRead c k, kRing, 8, atCursor c k 8, true, true, acquires⟩
  | barwait {n g k b} : Accesses c (.barwait n g k b) ⟨n, g, kRead c k, kRing, 8, atCursor c k 8, true, true, strong⟩

/-- Every check of R128, and the phase sets of R295 in the crew's own partition, let the access through to the place `a`; no answer to this
instruction is on its way. -/
def Reaches (s : State) (c : Crew) (f : AccessForm) (s1 : State) (a : Acc) : Prop :=
  access s s.cur.core s.cur.slot c f.cap f.kind f.off f.size = (s1, .ok a) ∧
    (a.tgt = 8 → phaseOk s1 c .a f.rd f.wr (keyRow c a.key) = true) ∧ underWay s c = none

/-- The place is storage that the crew's own units reach: no other device's, no peer core's scratchpad (R153), and not one that
the source stop refuses. -/
def Local (a : Acc) : Prop := a.tgt ≠ 4 ∧ a.tgt ≠ 10 ∧ a.tgt ≠ 2

/-- No reduction rests in a combining buffer or is held for its key. -/
def Quiet (s : State) : Prop := s.resting = [] ∧ s.keyed = []

/-- Translating an access changes the translation cache alone, and the counter of free values. -/
def TranslationOnly (s s1 : State) : Prop := s1 = { s with xlat := s1.xlat, freeCtr := s1.freeCtr }

/-- The access acts at system scope inside a virtual function whose scope is tenant (R132, R407). -/
def narrowed (s : State) (c : Crew) (f : AccessForm) (a : Acc) : Bool :=
  f.orders a && (decide (a.tgt = 3) || decide (a.tgt = 4)) && fnTScope s (fnOf s c.tenant)

/-- The crew with DEMOTE set where the scope is narrowed. -/
def demotedIf (s : State) (c : Crew) (f : AccessForm) (a : Acc) : Crew :=
  if narrowed s c f a then { c with demote := true } else c

/-- Narrowing the scope does not trap. -/
def ScopeOk (s : State) (c : Crew) (f : AccessForm) (a : Acc) : Prop :=
  narrowed s c f a = true → fnDemTrap s (fnOf s c.tenant) = false

/-- The access of `i` passes its checks and goes to a local place. -/
def Admitted (s : State) (c : Crew) (i : Instr) (f : AccessForm) (s1 : State) (a : Acc) : Prop :=
  Accesses c i f ∧ Runs s .a c ∧ Enabled c .a f.inv f.grd ∧ Reaches s c f s1 a ∧ Local a ∧ Quiet s ∧ ScopeOk s c f a

/-- Nothing that R286 and R374 keep before it keeps the access back: where it orders, no remote store of the crew is
unacknowledged and no remote LDQ of it on its way; else, on a page that is not loose, no such LDQ of a strong page is. -/
def InOrder (s : State) (f : AccessForm) (a : Acc) : Prop :=
  (f.orders a = true → unacked s s.cur.core s.cur.slot = false) ∧
  (a.loose = false → strongPending s s.cur.core s.cur.slot = false)

/-- It is also performed. -/
def Performs (s : State) (c : Crew) (i : Instr) (f : AccessForm) (s1 : State) (a : Acc) : Prop :=
  Admitted s c i f s1 a ∧ InOrder s f a

/-- The class in which an access waits that its order keeps back: 9 for the forms that wait in that class anyway, 6 for the others
(R267; for ring and barrier forms the model's choice, log entry 65). -/
def orderClass : Instr → Nat
  | .waitsig _ _ _ _ _ _ | .cwait _ _ _ _ _ | .rclaim _ _ _ _ _ | .rcommit _ _ _ _ | .rwaitf _ _ _ _ _ | .rwaite _ _ _ _ _
  | .rrelease _ _ _ _ | .barinit _ _ _ _ | .bararrive _ _ _ _ | .barwait _ _ _ _ => 9
  | _ => 6

/-- The unit as it stands in memory. -/
def unitAt (s : State) (f : AccessForm) (a : Acc) : Nat := memReadN s.mem a.key f.size

/-- Of memory exactly the `size` bytes at a key differ: they hold `x`, lowest byte first (R2). -/
def Stored (s t : State) (key size x : Nat) : Prop :=
  ∀ b, memGet t.mem b = if key ≤ b ∧ b < key + size then BitVec.ofNat 8 (x / 256 ^ (b - key)) else memGet s.mem b

/-- The poison of a unit that is written whole is gone; no other mark changes (R421). -/
def unpoisoned (s : State) (key size : Nat) : HostIf :=
  if size = 64 then { s.host with poison := s.host.poison.filter fun p => !(decide (p.1 = 0) && decide (p.2 = key / 64)) }
  else s.host

/-- The completion object of an uncompleted launch, of the generation that the launch was accepted with, is one of the words
of `size` bytes at a key, and its count has reached TARGET (R325). -/
def Counts (w : State) (key size : Nat) : Prop :=
  ∃ l ∈ w.sched.launches, l.completed = false ∧ ∃ j, j < max 1 (size / 8) ∧ doneKey w l = some ((key + 8 * j) / 8 * 8) ∧
    l.target ≤ memReadN w.mem ((key + 8 * j) / 8 * 8) 8 % 2 ^ 63

/-- `w` is `s1` with the `size` bytes at a key written, and with them the poison of a whole unit gone; `d` is what the
launches whose completion object stands there make of it (R325). -/
def Writes (s s1 w d : State) (key size x : Nat) : Prop :=
  Stored s w key size x ∧ w = { s1 with mem := w.mem, host := unpoisoned s key size } ∧ d = doneReachedRow w key size ∧
  (¬Counts w key size → d = w)

/-- What a load writes to its register. -/
inductive Loads (s : State) (c : Crew) : Instr → (Crew → Nat → Crew) → Prop
  | ldZ {n g d k b z} : Loads s c (.ldZ n g d k b z) fun c x => sWrite c .a d (BitVec.ofNat 64 x)
  | ldS {n g d k b z} : Loads s c (.ldS n g d k b z) fun c x => sWrite c .a d (BitVec.ofInt 64 (signed (8 * 2 ^ z.toNat) x))
  | ldAcqZ {n g d k b z} : Loads s c (.ldAcqZ n g d k b z) fun c x => sWrite c .a d (BitVec.ofNat 64 x)
  | ldAcqS {n g d k b z} : Loads s c (.ldAcqS n g d k b z) fun c x => sWrite c .a d (BitVec.ofInt 64 (signed (8 * 2 ^ z.toNat) x))
  | kld {n g d k b} : Loads s c (.kld n g d k b) fun w x =>
      kWrite w d (if capValid s (64 * (c.ra + c.rb)) (dieOf s.cur.core) c.tenant (BitVec.ofNat 128 x)
        then BitVec.ofNat 128 x else 0)

/-- What a store writes, and whether it signals. -/
inductive StoresValue (c : Crew) : Instr → Nat → Bool → Prop
  | st {n g r k b z} : StoresValue c (.st n g r k b z) ((sRead c .a r).toNat % 2 ^ (8 * 2 ^ z.toNat)) false
  | stRel {n g r k b z} : StoresValue c (.stRel n g r k b z) ((sRead c .a r).toNat % 2 ^ (8 * 2 ^ z.toNat)) false
  | stSig {n g r k b z} : StoresValue c (.stSig n g r k b z) ((sRead c .a r).toNat % 2 ^ (8 * 2 ^ z.toNat)) true
  | stRelSig {n g r k b z} : StoresValue c (.stRelSig n g r k b z) ((sRead c .a r).toNat % 2 ^ (8 * 2 ^ z.toNat)) true
  | kst {n g r k b} : StoresValue c (.kst n g r k b) (kRead c r).toNat false

/-- A write that signals has woken the waiters of its row: their entries are gone, and those asleep run; a waiter of another
device is sent a notice (R142). Of the package nothing else changes. -/
def Signalled (s t : State) (key : Nat) : Prop :=
  t = { s with crews := t.crews, monitors := t.monitors, fabric := t.fabric } ∧
  t.monitors = s.monitors.filter (fun m => !decide (m.row = key / 64)) ∧
  (∀ m ∈ s.monitors, m.row = key / 64 → m.dev = none → 2 * m.core + m.slot ≠ 2 * s.cur.core + s.cur.slot →
    ∀ w, crewAt t m.core m.slot = some w → w.strA.status ≠ .sleeping) ∧
  (∀ m ∈ s.monitors, ∀ d, m.row = key / 64 → m.dev = some d →
    ∃ x ∈ t.fabric.msgs, x.inbound = false ∧ x.peer = d ∧ x.op = opWake ∧ x.cmp = BitVec.ofNat 512 (2 * m.core + m.slot)) ∧
  ((∀ m ∈ s.monitors, m.row = key / 64 → m.dev = none) → t.fabric = s.fabric)

/-- The table of R138 and R88 for a word of `size` bytes: the new word. -/
inductive AtomOp (size old x y : Nat) : BitVec 5 → Nat → Prop
  | add : AtomOp size old x y 0 ((old + x) % 2 ^ (8 * size))
  | fadd : AtomOp size old x y 1 (add32 old x).bits
  | and : AtomOp size old x y 2 (old &&& x)
  | or : AtomOp size old x y 3 (old ||| x)
  | xor : AtomOp size old x y 4 (old ^^^ x)
  | smin : AtomOp size old x y 5 (if signed (8 * size) x < signed (8 * size) old then x else old)
  | smax : AtomOp size old x y 6 (if signed (8 * size) old < signed (8 * size) x then x else old)
  | umin : AtomOp size old x y 7 (min x old)
  | umax : AtomOp size old x y 8 (max x old)
  | fmin : AtomOp size old x y 9 (fminmax false fF32 old x)
  | fmax : AtomOp size old x y 10 (fminmax true fF32 old x)
  | swap : AtomOp size old x y 11 x
  | cas : AtomOp size old x y 12 (if old = x then y else old)

/-- A waiting instruction's word `w` lets it retire: destination and condition (R143, R151). -/
inductive WaitsFor (c : Crew) : Instr → BitVec 5 → (Nat → Prop) → Prop
  | waitsig {n g d k b z} : WaitsFor c (.waitsig n g d k b z) d
      fun w => w ≠ (sRead c .a d).toNat % 2 ^ (8 * wordSize z)
  | cwait {n g d k b} : WaitsFor c (.cwait n g d k b) d fun w => (sRead c .a d).toNat % 2 ^ 63 ≤ w % 2 ^ 63

/-- Entries of the monitor table that serves a place. -/
def monitorsOf (s : State) (a : Acc) : Nat := (s.monitors.filter fun m => decide (m.unit = monitorUnit s a)).length

/-- A row as its 512 bits. -/
def rowAt (s : State) (a : Acc) : Row := BitVec.ofNat 512 (memReadN s.mem a.key 64)

/-- The effect of a ring instruction on header `h` for its operand `x` (R146): the value for sd, and HEAD, TAIL,
CLAIMED and CBITS afterwards. -/
structure RingEffect where
  value : Option (BitVec 5 × Nat)
  head : Nat
  tail : Nat
  claimed : Nat
  cbits : Nat

/-- Slots in use, counters taken modulo 2^32. -/
def ringUsed (h : Row) : Nat := ringDiff (ringClaimed h) (ringHead h)
def ringFilled (h : Row) : Nat := ringDiff (ringTail h) (ringHead h)

/-- RCOMMIT's loop: `m` committed slots from TAIL on are consumed, and the next one's bit is not set. -/
def Commits (size tail bits m bits' : Nat) : Prop :=
  m ≤ size ∧ (∀ j, j < m → bits.testBit ((tail + j) % size) = true) ∧
  (∀ b, bits'.testBit b = (bits.testBit b && decide (∀ j, j < m → (tail + j) % size ≠ b))) ∧
  bits'.testBit ((tail + m) % size) = false

/-- The table of R146 where the instruction neither waits nor misuses the ring. -/
inductive RingDoes (h : Row) (x : Nat) : Instr → RingEffect → Prop
  | rclaim {n g d k b} (_ : ringUsed h + x ≤ ringSize h) : RingDoes h x (.rclaim n g d k b)
      ⟨some (d, ringClaimed h), ringHead h, ringTail h, (ringClaimed h + x) % 2 ^ 32, ringCbits h⟩
  | rcommit {n g k b m bits} (_ : ringDiff x (ringTail h) < ringDiff (ringClaimed h) (ringTail h))
      (_ : (ringCbits h).testBit (x % ringSize h) = false)
      (_ : Commits (ringSize h) (ringTail h) (ringCbits h ||| 2 ^ (x % ringSize h)) m bits) :
      RingDoes h x (.rcommit n g k b) ⟨none, ringHead h, (ringTail h + m) % 2 ^ 32, ringClaimed h, bits⟩
  | rwaitf {n g d k b} (_ : x ≤ ringFilled h) : RingDoes h x (.rwaitf n g d k b)
      ⟨some (d, ringHead h), ringHead h, ringTail h, ringClaimed h, ringCbits h⟩
  | rwaite {n g d k b} (_ : x ≤ ringSize h - ringUsed h) : RingDoes h x (.rwaite n g d k b)
      ⟨some (d, ringSize h - ringUsed h), ringHead h, ringTail h, ringClaimed h, ringCbits h⟩
  | rrelease {n g k b} (_ : x ≤ ringFilled h) : RingDoes h x (.rrelease n g k b)
      ⟨none, (ringHead h + x) % 2 ^ 32, ringTail h, ringClaimed h, ringCbits h⟩

/-- Where a ring instruction waits (class 9), and where it raises queue misuse. -/
inductive RingWaits (h : Row) (x : Nat) : Instr → Prop
  | rclaim {n g d k b} (_ : x ≤ ringSize h) (_ : ringSize h < ringUsed h + x) : RingWaits h x (.rclaim n g d k b)
  | rwaitf {n g d k b} (_ : x ≤ ringSize h) (_ : ringFilled h < x) : RingWaits h x (.rwaitf n g d k b)
  | rwaite {n g d k b} (_ : x ≤ ringSize h) (_ : ringSize h - ringUsed h < x) : RingWaits h x (.rwaite n g d k b)
inductive RingMisuse (h : Row) (x : Nat) : Instr → Prop
  | rclaim {n g d k b} (_ : ringSize h < x) : RingMisuse h x (.rclaim n g d k b)
  | rcommit {n g k b} (_ : ringDiff (ringClaimed h) (ringTail h) ≤ ringDiff x (ringTail h) ∨
      (ringCbits h).testBit (x % ringSize h) = true) : RingMisuse h x (.rcommit n g k b)
  | rwaitf {n g d k b} (_ : ringSize h < x) : RingMisuse h x (.rwaitf n g d k b)
  | rwaite {n g d k b} (_ : ringSize h < x) : RingMisuse h x (.rwaite n g d k b)
  | rrelease {n g k b} (_ : ringFilled h < x) : RingMisuse h x (.rrelease n g k b)

/-- The ring instructions and their operand register. -/
inductive RingOperand : Instr → BitVec 5 → Prop
  | rclaim {n g d k b} : RingOperand (.rclaim n g d k b) b
  | rcommit {n g k b} : RingOperand (.rcommit n g k b) b
  | rwaitf {n g d k b} : RingOperand (.rwaitf n g d k b) b
  | rwaite {n g d k b} : RingOperand (.rwaite n g d k b) b
  | rrelease {n g k b} : RingOperand (.rrelease n g k b) b

/-- The ring instructions that write nothing. -/
def ringReads : Instr → Bool
  | .rwaitf _ _ _ _ _ => true
  | .rwaite _ _ _ _ _ => true
  | _ => false

/-- The header of a ring after an effect: the counters and CBITS change, the other bytes do not. -/
def headerAfter (h : Row) (e : RingEffect) (h' : Row) : Prop :=
  ringHead h' = e.head ∧ ringTail h' = e.tail ∧ ringClaimed h' = e.claimed ∧ ringCbits h' = e.cbits ∧
  ∀ j, (12 ≤ j ∧ j < 16) ∨ (24 ≤ j ∧ j < 64) → rowByte h' j = rowByte h j

/-- A barrier object (R147): OVF, PHASE, RELOAD, PEND of a word. -/
def barOvf (w : Nat) : Nat := w / 2 ^ 63 % 2
def barPhase (w : Nat) : Nat := w / 2 ^ 48 % 2 ^ 15
def barReload (w : Nat) : Nat := w / 2 ^ 24 % 2 ^ 24
def barPend (w : Nat) : Nat := w % 2 ^ 24
def barWord (ovf phase reload pend : Nat) : Nat := ovf * 2 ^ 63 + phase * 2 ^ 48 + reload * 2 ^ 24 + pend

/-- arrive(b) of R147. -/
def arrived' (w b : Nat) : Nat :=
  if b < barPend w then barWord (barOvf w) (barPhase w) (barReload w) (barPend w - b)
  else barWord (if barPend w < b then 1 else barOvf w) ((barPhase w + 1) % 2 ^ 15) (barReload w) (barReload w)


/-! ### Engine operations (R136, R148 to R150) -/

/-- The instructions that fork an operation of the copy engine: kind, guard, destination, source, descriptor register. -/
inductive Copies : Instr → Nat → BitVec 1 → BitVec 4 → BitVec 5 → BitVec 5 → BitVec 5 → Prop
  | copy {n g d a c} : Copies (.copy n g d a c) 2 n g d a c
  | copymc {n g d a c} : Copies (.copymc n g d a c) 3 n g d a c
  | gather {n g d a c} : Copies (.gather n g d a c) 4 n g d a c
  | scatter {n g d a c} : Copies (.scatter n g d a c) 5 n g d a c

/-- A may fork one more operation on counter `k`: the counter would not pass 1,023, the core holds fewer than 64 unfinished
copies, and the crew fewer than the 64 unfinished operations that its record holds. -/
def MayFork (s : State) (c : Crew) (k : Nat) : Prop :=
  dRead c .a k < 1023 ∧ coreCopies s s.cur.core < 64 ∧ liveOps c < 64

/-- Rows at a remote target also need room among the core's 256 outstanding requests (R381). -/
def MaySend (s : State) (far : Prop) : Prop := far → outstanding s s.cur.core < 256

/-- The crew once it has forked an operation: it is the youngest, and its counter has risen. -/
def forked (c : Crew) (o : EngOp) (k : Nat) : Crew := dWrite { c with ops := c.ops ++ [o] } .a k (dRead c .a k + 1)

/-- A fresh operation of the crew's A stream with these capabilities, for descriptor `d`; what the crew has sent and issued
before it keeps its place (R289). -/
def fresh (s : State) (c : Crew) (kind : Nat) (d aux : Word) (src dst ccap : Cap) (nulled : Bool) : EngOp :=
  { kind := kind, pc := pcOf c .a, desc := d, aux := aux, src := src, dst := dst, ccap := ccap, next := 0, nulled := nulled,
    fault := 0, faultOff := 0, path := c.strA.path, claim := none, signalled := nulled, fell := false, heldBy := none,
    skipped := [], req := none, afterMsg := s.fabric.nextMsg, afterKey := c.issueNo }

/-- The operation that a copy form forks. -/
def copyOp (s : State) (c : Crew) (kind : Nat) (d a r : BitVec 5) : EngOp :=
  let w := sRead c .a r
  fresh s c kind w (if kind = 2 then 0 else sRead c .a (r + 1)) (kRead c a) (kRead c d)
    (if fld w 19 1 = 1 then kRead c (BitVec.ofNat 5 (fld w 20 4)) else 0) false

/-- The operation of a false-guarded copy form: it keeps its place and its counter, and moves nothing (R66). -/
def nulled (s : State) (c : Crew) (kind : Nat) (d a r : BitVec 5) : EngOp :=
  { copyOp s c kind d a r with nulled := true, signalled := true }

/-- Byte offset of row `j` of an LDV: its first unit plus 64 · j · STRIDE. -/
def ldvAt (c : Crew) (r k b : BitVec 5) (j : Nat) : Int :=
  (atOffset c k b 64 : Int) + 64 * j * signed 16 (fld (sRead c .a r) 20 16)

/-- A capability of the crew's own partition grants a right over `size` bytes from its cursor, which stands on a unit (R128). -/
def OwnRange (c : Crew) (cap : Cap) (right size : Nat) : Prop :=
  capSpace cap = 1 ∧ hasRights (capRights cap) right = true ∧ capCursor cap % 64 = 0 ∧
    capCursor cap + size ≤ capLimit cap ∧ capCursor cap + size ≤ 64 * (c.ra + c.rb)

/-- A copy form within the crew's own partition that neither counts nor fills a ring: descriptor word `w`, its second word
`x`, destination and source capability (R148, R149). -/
def OwnCopy (c : Crew) (kind : Nat) (w x : Word) (dst src : Cap) : Prop :=
  let n := if fld w 0 16 = 0 then 65536 else fld w 0 16
  fld w 41 23 = 0 ∧ w.getLsbD 19 = false ∧ w.getLsbD 24 = false ∧ w.getLsbD 40 = false ∧ (kind = 3 → fld x 32 32 = 0) ∧
    (kind = 4 ∨ kind = 5 → fld x 15 49 = 0 ∧ fld x 0 14 + (n + 15) / 16 ≤ min (2 ^ 14) (if x.getLsbD 14 then c.rb else c.ra)) ∧
    (if kind = 4 then capSpace src = 1 ∧ hasRights (capRights src) rightR = true else OwnRange c src rightR (64 * n)) ∧
    (if kind = 5 then capSpace dst = 1 ∧ hasRights (capRights dst) rightW = true else OwnRange c dst rightW (64 * n))

/-! ### Rows of engine operations (R136, R148, R149, R223) -/

/-- The next row of a copy is read at `a`: the list names it, and its access passes (R148, R149). -/
def RowRead (s : State) (core slot : Nat) (c : Crew) (o : EngOp) (s1 : State) (a : Acc) : Prop :=
  (o.kind = 4 ∨ o.kind = 5 → isPoisoned s (rowFormKey core c (fld o.aux 0 15 + o.next / 16)) = false ∧
    phaseOk s c .a true false (fld o.aux 0 15 + o.next / 16) = true) ∧
  access s core slot c o.src kCopyR (opSrc s core c o) 64 = (s1, .ok a) ∧
  (a.tgt = 8 → phaseOk s c .a true false (keyRow c a.key) = true) ∧ Local a ∧ isPoisoned s a.key = false ∧ rowDemotion s c a = 0

/-- It is written at `b`. -/
def RowWritten (s1 : State) (core slot : Nat) (c : Crew) (o : EngOp) (s2 : State) (b : Acc) : Prop :=
  access s1 core slot c o.dst kCopyW (opDst s1 core c o) 64 = (s2, .ok b) ∧
  (b.tgt = 8 → phaseOk s1 c .a false true (keyRow c b.key) = true) ∧ Local b ∧ rowDemotion s1 c b = 0

/-- The crew once operation `i` has moved a row. -/
def movedOn (c : Crew) (i : Nat) (o : EngOp) : Crew := clearStall { c with ops := setNth c.ops i { o with next := o.next + 1 } }

/-- The row `x` stands at every one of the places; nothing else of memory differs, and no unit of them is poisoned any more. -/
def RowAtAll (s w : State) (keys : List Nat) (x : Nat) : Prop :=
  (∀ b, memGet w.mem b = match keys.find? fun k => decide (k ≤ b) && decide (b < k + 64) with
    | some k => BitVec.ofNat 8 (x / 256 ^ (b - k))
    | none => memGet s.mem b) ∧
  w.host = { s.host with poison := s.host.poison.filter fun p => !(decide (p.1 = 0) && keys.any fun k => decide (p.2 = k / 64)) }

/-- Where a COPYMC's row goes: the same place in the partition of every receiver, the crew of its launch on the same slot of each
core of the mask. -/
def receiverKeys (s : State) (core slot u mask : Nat) : List Nat :=
  (maskCores core mask).filterMap fun r => (crewAt s r slot).map fun rc => crewRowKey r rc u

/-- The ring header of a ring copy stands at `a` (R149). -/
def RingAt (s : State) (core slot : Nat) (c : Crew) (o : EngOp) (s1 : State) (a : Acc) : Prop :=
  access s core slot c o.dst kRingCopy (unitOf 64 (capCursor o.dst)) 64 = (s1, .ok a) ∧ Local a ∧ ringOk (rowAt s a) = true

/-- The places of a spilled row and of its tag (R222). -/
def SpillPlaces (s : State) (c : Crew) (i k kt : Nat) : Prop :=
  spillKey s c (spillRowAt s c i) = some k ∧ spillKey s c (spillTagAt s c i) = some kt

/-! ### Vector operands (R69 to R74, R81, R154 to R157) -/

/-- The guard mask of the instruction under way, as it was read: held since its first repeat (R154). -/
def guardMask (c : Crew) (w : VWord) : Word := c.vctx.guard.getD (mRead c w.g.toNat)

/-- The crew with the guard mask held, with repeat `VREP` committed, and with the instruction finished. -/
def started (c : Crew) (w : VWord) : Crew := { c with vctx := { c.vctx with guard := some (guardMask c w) } }
def committed (c c1 : Crew) : Crew := clearStall { c1 with vctx := { c1.vctx with vrep := c.vctx.vrep + 1 } }
def finished (c : Crew) : Crew := { c with vctx := { vrep := 0, guard := none, d1val := none, d2val := none } }

/-- What the next repeat works with: word, guard mask with N applied, valid count, repeat number. -/
def envOf (c : Crew) (w : VWord) : VEnv :=
  { w := w, guard := if w.neg then ~~~(c.vctx.guard.getD 0) else c.vctx.guard.getD 0, n := nRead c .v w.nsel, j := c.vctx.vrep }

/-- The crew with the 64-bit value of a scalar descriptor held for the instruction. -/
def holding (c : Crew) (second : Bool) (x : Word) : Crew :=
  if second then { c with vctx := { c.vctx with d2val := some x } } else { c with vctx := { c.vctx with d1val := some x } }
def heldValue (c : Crew) (second : Bool) : Option Word := if second then c.vctx.d2val else c.vctx.d1val

/-- The oldest entry of queue `q` is data; `rest` is what follows it. -/
def HasData (c : Crew) (q : Nat) (e : QEntry) (rest : List QEntry) : Prop :=
  queueOf c q = e :: rest ∧ e.pending = false ∧ e.fail = 0

/-- The 64-bit value of a scalar descriptor: popped once per instruction and held, or once per repeat (R71). -/
inductive Scalar (c : Crew) (d : BitVec 18) (second : Bool) : Word → Crew → Prop
  | held {x} (_ : d.toNat % 2 = 0) (_ : heldValue c second = some x) : Scalar c d second x c
  | once {e rest} (_ : d.toNat % 2 = 0) (_ : heldValue c second = none) (_ : HasData c (FieldCheck.dBase d % 16) e rest) :
      Scalar c d second (e.data.setWidth 64) (holding (popped c (FieldCheck.dBase d % 16) rest) second (e.data.setWidth 64))
  | each {e rest} (_ : d.toNat % 2 = 1) (_ : HasData c (FieldCheck.dBase d % 16) e rest) :
      Scalar c d second (e.data.setWidth 64) (popped c (FieldCheck.dBase d % 16) rest)

/-- Every element of width `w` is `x`. -/
def splat (w x : Nat) : Row := rowOf w (512 / w) fun _ => x

/-- An element-vector source in its four modes (R71, R72): a register, a row popped, a scalar or a constant in every lane. -/
inductive Source (c : Crew) (v : VEnv) (ty : Nat) (d : BitVec 18) (second : Bool) : Row → Crew → Prop
  | reg (_ : FieldCheck.dMode d = 0) : Source c v ty d second (vRead c (dRegNo d v.j)) c
  | row {e rest} (_ : FieldCheck.dMode d = 1) (_ : HasData c (FieldCheck.dBase d % 16) e rest) :
      Source c v ty d second e.data (popped c (FieldCheck.dBase d % 16) rest)
  | scalar {x c'} (_ : FieldCheck.dMode d = 2) (_ : Scalar c d second x c') :
      Source c v ty d second (splat (FieldCheck.widthOf ty) x.toNat) c'
  | constant (_ : FieldCheck.dMode d = 3) :
      Source c v ty d second (splat (FieldCheck.widthOf ty) (immBits ty (FieldCheck.dBase d))) c

/-- A destination (R71, R81, R154): a register, whose other elements stay; or a queue with room, whose other elements are
zero, in row form or as element 0. -/
inductive Into (v : VEnv) (act : Nat → Bool) (val : Nat → Nat) (c : Crew) : Crew → Prop
  | reg (_ : FieldCheck.dMode v.w.d0 = 0) : Into v act val c
      (vWrite c (dRegNo v.w.d0 v.j) (mergeRow v.ew act val (vRead c (dRegNo v.w.d0 v.j))))
  | row (_ : FieldCheck.dMode v.w.d0 = 1) (_ : qRoom c (FieldCheck.dBase v.w.d0 % 16) = true) : Into v act val c
      (qPush c (FieldCheck.dBase v.w.d0 % 16) (mergeRow v.ew act val 0))
  | scalar (_ : FieldCheck.dMode v.w.d0 = 2) (_ : qRoom c (FieldCheck.dBase v.w.d0 % 16) = true) : Into v act val c
      (qPush c (FieldCheck.dBase v.w.d0 % 16) (BitVec.ofNat 512 (rowElem (mergeRow v.ew act val 0) v.ew 0)))

/-- The flags that the active ones of `L` lanes raise. -/
def raisedBy (v : VEnv) (L : Nat) (r : Nat → FRes) : BitVec 6 :=
  (List.range L).foldl (fun a k => if v.act L k then a ||| (r k).flags else a) 0

/-- An integer element by type, and an integer result: wrapped, or with SAT the nearest bound (R21, R161). -/
def intVal (w : VWord) (x : Nat) : Int := if w.ty.toNat ≤ 3 then signed (FieldCheck.widthOf w.ty.toNat) x else x
def intRes (w : VWord) (x : Int) : FRes :=
  let b := FieldCheck.widthOf w.ty.toNat
  let lo : Int := if w.ty.toNat ≤ 3 then -(2 ^ (b - 1)) else 0
  let hi : Int := if w.ty.toNat ≤ 3 then 2 ^ (b - 1) - 1 else 2 ^ b - 1
  ⟨((if FieldCheck.auxSat w then max lo (min x hi) else x) % 2 ^ b).toNat, 0⟩

/-- A floating element's value, and a result rounded in the instruction's mode (R159). -/
def floatVal (w : VWord) (x : Nat) : Fv := fval (fmtOf w.ty.toNat) x
def rounding (w : VWord) : Nat := if FieldCheck.auxRO w then FieldCheck.auxRM w else 0
def floatRes (w : VWord) (x : Fv × BitVec 6) : FRes := encOp (rounding w) (FieldCheck.auxSat w) (fmtOf w.ty.toNat) x

/-- The tables of R159 to R161 and R169: what a lane computes from one, two or three elements. -/
inductive Lane1 (w : VWord) : Instr → (Nat → FRes) → Prop
  | vabsInt (_ : w.ty.toNat ≤ 7) : Lane1 w (.vabs w) fun a => intRes w ((intVal w a).natAbs : Int)
  | vabs (_ : 7 < w.ty.toNat) : Lane1 w (.vabs w) fun a => ⟨a % 2 ^ (FieldCheck.widthOf w.ty.toNat - 1), 0⟩
  | vrcp : Lane1 w (.vrcp w) fun a => frcp (rounding w) (FieldCheck.auxSat w) (fmtOf w.ty.toNat) (floatVal w a)
  | vrsq : Lane1 w (.vrsq w) fun a => frsq (rounding w) (FieldCheck.auxSat w) (fmtOf w.ty.toNat) (floatVal w a)
  | vsqrt : Lane1 w (.vsqrt w) fun a => fsqrt (rounding w) (FieldCheck.auxSat w) (fmtOf w.ty.toNat) (floatVal w a)
  | vexp2 : Lane1 w (.vexp2 w) fun a => fexp2 (rounding w) (FieldCheck.auxSat w) (fmtOf w.ty.toNat) (floatVal w a)
  | vlog2 : Lane1 w (.vlog2 w) fun a => flog2 (rounding w) (FieldCheck.auxSat w) (fmtOf w.ty.toNat) (floatVal w a)
  | vmov : Lane1 w (.vmov w) fun a => ⟨a, 0⟩

inductive Lane2 (w : VWord) : Instr → (Nat → Nat → FRes) → Prop
  | vadd : Lane2 w (.vadd w) fun a b => floatRes w (fadd (rounding w) (floatVal w a) (floatVal w b))
  | vsub : Lane2 w (.vsub w) fun a b => floatRes w (fadd (rounding w) (floatVal w a) (floatVal w b).neg)
  | vmul : Lane2 w (.vmul w) fun a b => floatRes w (fmul (floatVal w a) (floatVal w b))
  | vmin : Lane2 w (.vmin w) fun a b => ⟨fminmax false (fmtOf w.ty.toNat) a b, 0⟩
  | vmax : Lane2 w (.vmax w) fun a b => ⟨fminmax true (fmtOf w.ty.toNat) a b, 0⟩
  | viadd : Lane2 w (.viadd w) fun a b => intRes w (intVal w a + intVal w b)
  | visub : Lane2 w (.visub w) fun a b => intRes w (intVal w a - intVal w b)
  | vimul : Lane2 w (.vimul w) fun a b => intRes w (intVal w a * intVal w b)
  | vshl : Lane2 w (.vshl w) fun a b => intRes w (intVal w a * 2 ^ (b % FieldCheck.widthOf w.ty.toNat))
  | vshr : Lane2 w (.vshr w) fun a b =>
      ⟨(intVal w a / 2 ^ (b % FieldCheck.widthOf w.ty.toNat) % 2 ^ FieldCheck.widthOf w.ty.toNat).toNat, 0⟩
  | vand : Lane2 w (.vand w) fun a b => ⟨a &&& b, 0⟩
  | vor : Lane2 w (.vor w) fun a b => ⟨a ||| b, 0⟩
  | vxor : Lane2 w (.vxor w) fun a b => ⟨a ^^^ b, 0⟩
  | vimin : Lane2 w (.vimin w) fun a b => ⟨if intVal w b < intVal w a then b else a, 0⟩
  | vimax : Lane2 w (.vimax w) fun a b => ⟨if intVal w a < intVal w b then b else a, 0⟩

inductive Lane3 (w : VWord) : Instr → (Nat → Nat → Nat → FRes) → Prop
  | vfma : Lane3 w (.vfma w) fun a b d => floatRes w (fmadd (rounding w) (floatVal w a) (floatVal w b) (floatVal w d))
  | vfms : Lane3 w (.vfms w) fun a b d => floatRes w (fmadd (rounding w) (floatVal w a).neg (floatVal w b) (floatVal w d))

/-- The conditions of R162 and R163 on elements; the class set of VCLASS is its D2 base. -/
inductive Compares (w : VWord) : Instr → (Int → Int → Bool) → (Fv → Fv → Bool) → Prop
  | eq : Compares w (.vcmpEq w) (fun x y => decide (x = y)) fvEq
  | ne : Compares w (.vcmpNe w) (fun x y => decide (x ≠ y)) fun x y => !fvEq x y
  | lt : Compares w (.vcmpLt w) (fun x y => decide (x < y)) (fvLt false)
  | le : Compares w (.vcmpLe w) (fun x y => decide (x ≤ y)) fun x y => fvLt false x y || fvEq x y
  | gt : Compares w (.vcmpGt w) (fun x y => decide (y < x)) fun x y => fvLt false y x
  | ge : Compares w (.vcmpGe w) (fun x y => decide (y ≤ x)) fun x y => fvLt false y x || fvEq x y
  | uo : Compares w (.vcmpUo w) (fun _ _ => false) fun x y => x.isNan || y.isNan

/-- One repeat of a lane-wise instruction. -/
inductive LaneBody (v : VEnv) : Instr → Crew → Crew → Prop
  | one {i f c a c1 d} (_ : Lane1 v.w i f) (_ : Source c v v.ty v.w.d1 false a c1)
      (_ : Into v (v.act v.lanes) (fun k => (f (rowElem a v.ew k)).bits)
        (setFlags c1 (raisedBy v v.lanes fun k => f (rowElem a v.ew k))) d) : LaneBody v i c d
  | two {i f c a c1 b c2 d} (_ : Lane2 v.w i f) (_ : Source c v v.ty v.w.d1 false a c1) (_ : Source c1 v v.ty v.w.d2 true b c2)
      (_ : Into v (v.act v.lanes) (fun k => (f (rowElem a v.ew k) (rowElem b v.ew k)).bits)
        (setFlags c2 (raisedBy v v.lanes fun k => f (rowElem a v.ew k) (rowElem b v.ew k))) d) : LaneBody v i c d
  | three {i f c a c1 b c2 d} (_ : Lane3 v.w i f) (_ : Source c v v.ty v.w.d1 false a c1) (_ : Source c1 v v.ty v.w.d2 true b c2)
      (_ : Into v (v.act v.lanes)
        (fun k => (f (rowElem a v.ew k) (rowElem b v.ew k) (rowElem (vRead c2 (dRegNo v.w.d0 v.j)) v.ew k)).bits)
        (setFlags c2 (raisedBy v v.lanes fun k =>
          f (rowElem a v.ew k) (rowElem b v.ew k) (rowElem (vRead c2 (dRegNo v.w.d0 v.j)) v.ew k))) d) : LaneBody v i c d

/-- The masks of a compare: bit i of the first is set where lane i is active and the condition holds, of the second where it
is active and the condition fails; the second is written after the first. -/
def masksOf (v : VEnv) (c : Crew) (cond : Nat → Bool) (d : Crew) : Prop :=
  ∃ m1 m2 : Word, (∀ i, i < 64 → m1.getLsbD i = (decide (i < v.lanes) && v.act v.lanes i && cond i) ∧
      m2.getLsbD i = (decide (i < v.lanes) && v.act v.lanes i && !cond i)) ∧
    d = mWrite (mWrite c (maskNo (FieldCheck.dBase v.w.d0 % 16) v.j v.w.d0) m1) (maskNo (FieldCheck.auxMD2 v.w) v.j v.w.d0) m2

/-- Two destination registers, or two rows pushed where the queue has room for both (R168). -/
inductive IntoTwo (v : VEnv) (x y : Nat → Nat) (c : Crew) : Crew → Prop
  | reg (_ : FieldCheck.dMode v.w.d0 = 0) : IntoTwo v x y c
      (vWrite (vWrite c (dRegNo v.w.d0 v.j) (mergeRow v.ew (v.act v.lanes) x (vRead c (dRegNo v.w.d0 v.j))))
        (dRegNo v.w.d0 v.j + 1) (mergeRow v.ew (v.act v.lanes) y (vRead c (dRegNo v.w.d0 v.j + 1))))
  | row (_ : FieldCheck.dMode v.w.d0 ≠ 0)
      (_ : (queueOf c (FieldCheck.dBase v.w.d0 % 16)).length + 2 ≤ qDepth (FieldCheck.dBase v.w.d0 % 16)) : IntoTwo v x y c
      (qPush (qPush c (FieldCheck.dBase v.w.d0 % 16) (mergeRow v.ew (v.act v.lanes) x 0)) (FieldCheck.dBase v.w.d0 % 16)
        (mergeRow v.ew (v.act v.lanes) y 0))

/-- A count: the immediate index, or the low six bits of a scalar taken modulo `m` (R166, R167). -/
inductive CountOf (c : Crew) (d : BitVec 18) (m : Nat) : Nat → Crew → Prop
  | imm (_ : FieldCheck.dMode d = 3) : CountOf c d m (FieldCheck.dBase d) c
  | scalar {x c'} (_ : FieldCheck.dMode d ≠ 3) (_ : Scalar c d true x c') : CountOf c d m (x.toNat % 64 % m) c'

/-- One repeat of a compare or of an instruction that moves elements (R162 to R168). -/
inductive MoveBody (v : VEnv) : Instr → Crew → Crew → Prop
  | compare {i f g c a c1 b c2 d} (_ : Compares v.w i f g) (_ : Source c v v.ty v.w.d1 false a c1)
      (_ : Source c1 v v.ty v.w.d2 true b c2)
      (_ : masksOf v c2 (fun k => if v.ty ≤ 7 then f (intVal v.w (rowElem a v.ew k)) (intVal v.w (rowElem b v.ew k))
        else g (floatVal v.w (rowElem a v.ew k)) (floatVal v.w (rowElem b v.ew k))) d) : MoveBody v i c d
  | vclass {c a c1 d} (_ : Source c v v.ty v.w.d1 false a c1)
      (_ : masksOf v c1 (fun k => (FieldCheck.dBase v.w.d2).testBit (classOf (fmtOf v.ty) (rowElem a v.ew k))) d) :
      MoveBody v (.vclass v.w) c d
  | vsel {c a c1 b c2 d} (_ : Source c v v.ty v.w.d1 false a c1) (_ : Source c1 v v.ty v.w.d2 true b c2)
      (_ : Into v (fun k => decide (k < min v.n v.lanes))
        (fun k => if v.guard.getLsbD k then rowElem a v.ew k else rowElem b v.ew k) c2 d) : MoveBody v (.vsel v.w) c d
  | vperm {c a c1 b c2 d} (_ : Source c v v.ty v.w.d1 false a c1) (_ : Source c1 v v.ty v.w.d2 true b c2)
      (_ : Into v (v.act v.lanes) (fun k => rowElem a v.ew (rowElem b v.ew k % v.lanes)) c2 d) : MoveBody v (.vperm v.w) c d
  | vrotm {c sh c1 d} (_ : CountOf c v.w.d2 64 sh c1)
      (_ : Into v (v.act v.lanes) (fun k => rowElem (BitVec.ofNat 512 (((vRead c1 (dRegNo v.w.d1 v.j)).toNat +
        2 ^ 512 * (vRead c1 (dRegNo v.w.d1 v.j + 1)).toNat) / 2 ^ (8 * sh))) v.ew k) c1 d) : MoveBody v (.vrotm v.w) c d
  | vbcast {c a c1 k c2 d} (_ : Source c v v.ty v.w.d1 false a c1) (_ : CountOf c1 v.w.d2 v.lanes k c2)
      (_ : Into v (v.act v.lanes) (fun _ => rowElem a v.ew k) c2 d) : MoveBody v (.vbcast v.w) c d
  | vzip {c a c1 b c2 d} (_ : Source c v v.ty v.w.d1 false a c1) (_ : Source c1 v v.ty v.w.d2 true b c2)
      (_ : IntoTwo v (fun k => if k % 2 = 0 then rowElem a v.ew (k / 2) else rowElem b v.ew (k / 2))
        (fun k => if k % 2 = 0 then rowElem a v.ew (v.lanes / 2 + k / 2) else rowElem b v.ew (v.lanes / 2 + k / 2)) c2 d) :
      MoveBody v (.vzip v.w) c d
  | vunzip {c a c1 b c2 d} (_ : Source c v v.ty v.w.d1 false a c1) (_ : Source c1 v v.ty v.w.d2 true b c2)
      (_ : IntoTwo v (fun k => if 2 * k < v.lanes then rowElem a v.ew (2 * k) else rowElem b v.ew (2 * k - v.lanes))
        (fun k => if 2 * k + 1 < v.lanes then rowElem a v.ew (2 * k + 1) else rowElem b v.ew (2 * k + 1 - v.lanes)) c2 d) :
      MoveBody v (.vunzip v.w) c d

/-- Bits of mask D1 that count: below the lanes and active (R175). -/
def countedBits (c : Crew) (v : VEnv) : List Nat :=
  (List.range v.lanes).filter fun i =>
    (mRead c (maskNo (FieldCheck.dBase v.w.d1 % 16) v.j v.w.d1)).getLsbD i && v.act v.lanes i

/-- A reduction (R50, R173): what each active lane contributes, how a node of the tree joins two, the result where no lane
is active, and the last step at the root. -/
structure Reduction where
  leaf : Nat → Nat
  node : Nat → Nat → FRes
  empty : Nat
  root : Nat → FRes

inductive Reduces (w : VWord) : Instr → Reduction → Prop
  | sumInt (_ : w.ty.toNat ≤ 7) : Reduces w (.vrsum w)
      ⟨id, fun x y => ⟨(x + y) % 2 ^ FieldCheck.widthOf w.ty.toNat, 0⟩, 0, fun x => ⟨x, 0⟩⟩
  | sumF32 (_ : w.ty.toNat = 8) : Reduces w (.vrsum w)
      ⟨id, fun x y => encOp (rounding w) false fF32 (fadd (rounding w) (fval fF32 x) (fval fF32 y)), 0, fun x => ⟨x, 0⟩⟩
  | sumNarrow (_ : 8 < w.ty.toNat) : Reduces w (.vrsum w)
      ⟨fun x => (enc 0 false fF32 (floatVal w x)).bits, add32, 0,
       fun x => enc (rounding w) false (fmtOf w.ty.toNat) (fval fF32 x)⟩
  | maxInt (_ : w.ty.toNat ≤ 7) : Reduces w (.vrmax w)
      ⟨id, fun x y => ⟨if intVal w x < intVal w y then y else x, 0⟩,
       if w.ty.toNat ≤ 3 then 2 ^ (FieldCheck.widthOf w.ty.toNat - 1) else 0, fun x => ⟨x, 0⟩⟩
  | minInt (_ : w.ty.toNat ≤ 7) : Reduces w (.vrmin w)
      ⟨id, fun x y => ⟨if intVal w y < intVal w x then y else x, 0⟩,
       if w.ty.toNat ≤ 3 then 2 ^ (FieldCheck.widthOf w.ty.toNat - 1) - 1 else 2 ^ FieldCheck.widthOf w.ty.toNat - 1,
       fun x => ⟨x, 0⟩⟩
  | maxFloat (_ : 7 < w.ty.toNat) : Reduces w (.vrmax w)
      ⟨id, fun x y => ⟨fminmax true (fmtOf w.ty.toNat) x y, 0⟩, (fmtOf w.ty.toNat).inf true, fun x => ⟨x, 0⟩⟩
  | minFloat (_ : 7 < w.ty.toNat) : Reduces w (.vrmin w)
      ⟨id, fun x y => ⟨fminmax false (fmtOf w.ty.toNat) x y, 0⟩, (fmtOf w.ty.toNat).inf false, fun x => ⟨x, 0⟩⟩

/-- The reduction of the active lanes of a row over the pairwise tree of R50. -/
def reduced (v : VEnv) (r : Reduction) (a : Row) : FRes :=
  match treeRoot r.node ((List.range v.lanes).map fun k =>
      if v.act v.lanes k then some ⟨r.leaf (rowElem a v.ew k), 0⟩ else none) with
  | none => ⟨r.empty, 0⟩
  | some x => ⟨(r.root x.bits).bits, (r.root x.bits).flags ||| x.flags⟩

/-- Element `e` of the narrower side belongs to part `p` of `L` lanes. -/
def inPart (p L e : Nat) : Bool := decide (p * L ≤ e) && decide (e < p * L + L)

/-- One repeat of a conversion, a reduction or mask logic (R170 to R175). -/
inductive ConvertBody (v : VEnv) : Instr → Crew → Crew → Prop
  | vcvt {src : BitVec 5} {c a c1 d} (L : Nat) (_ : L = 512 / max (FieldCheck.widthOf src.toNat) v.ew)
      (so : Nat) (_ : so = if FieldCheck.widthOf src.toNat < v.ew then partOf v.w.d2 * L else 0)
      (p : Nat) (_ : p = if v.ew < FieldCheck.widthOf src.toNat then partOf v.w.d2 else 0)
      (r : Nat → FRes) (_ : ∀ k, r k = convert (rounding v.w) (FieldCheck.auxSat v.w) src.toNat v.ty
        (rowElem a (FieldCheck.widthOf src.toNat) (so + k)))
      (_ : Source c v src.toNat v.w.d1 false a c1)
      (_ : Into v (fun e => inPart p L e && v.act L (e - p * L)) (fun e => (r (e - p * L)).bits)
        (setFlags c1 (raisedBy v L r)) d) : ConvertBody v (.vcvt src v.w) c d
  | vpack {c a c1 x c2} (_ : Source c v v.ty v.w.d1 false a c1) (_ : Scalar c1 v.w.d2 true x c2)
      (P : Nat) (_ : P = 128 / v.lanes) (d : Nat)
      (_ : d = ((FieldCheck.dBase v.w.d0 : Int) + ((v.j / P : Nat) : Int) * FieldCheck.dStride v.w.d0).toNat)
      (r : Nat → FRes) (_ : ∀ k, r k = packLane (fmtOf v.ty) (x.toNat % 256) (fld x 32 32) (rowElem a v.ew k)) :
      ConvertBody v (.vpack v.w) c (vWrite (setFlags c2 (raisedBy v v.lanes r)) d
        (mergeRow 4 (fun e => inPart (v.j % P) v.lanes e && v.act v.lanes (e - v.j % P * v.lanes))
          (fun e => (r (e - v.j % P * v.lanes)).bits) (vRead c2 d)))
  | vunpack {c c1 d} (value : Nat → Fv × BitVec 6)
      (_ : (FieldCheck.dMode v.w.d2 = 3 ∧ c1 = c ∧ ∀ k, value k = (.fin (decide (qnLevel k < 0)) (qnLevel k).natAbs (-8), 0)) ∨
        (FieldCheck.dMode v.w.d2 ≠ 3 ∧ ∃ x, Scalar c v.w.d2 true x c1 ∧ ∀ k, value k = qnValue k (x.toNat % 256) (fld x 32 32)))
      (P : Nat) (_ : P = 128 / v.lanes) (a : Nat)
      (_ : a = ((FieldCheck.dBase v.w.d1 : Int) + ((v.j / P : Nat) : Int) * FieldCheck.dStride v.w.d1).toNat)
      (r : Nat → FRes) (_ : ∀ k, r k = floatRes v.w (value (rowElem (vRead c1 a) 4 (v.j % P * v.lanes + k))))
      (_ : Into v (v.act v.lanes) (fun k => (r k).bits) (setFlags c1 (raisedBy v v.lanes r)) d) :
      ConvertBody v (.vunpack v.w) c d
  | reduce {i r c a c1 d} (_ : Reduces v.w i r) (_ : Source c v v.ty v.w.d1 false a c1)
      (_ : Into v (fun k => decide (k = 0)) (fun _ => (reduced v r a).bits) (setFlags c1 (reduced v r a).flags) d) :
      ConvertBody v i c d
  | mlogic {c} (m : Word) (_ : ∀ i, i < 64 → m.getLsbD i =
      if v.act 64 i then v.w.ty.getLsbD (2 * flag ((mRead c (maskNo (FieldCheck.dBase v.w.d1 % 16) v.j v.w.d1)).getLsbD i) +
        flag ((mRead c (maskNo (FieldCheck.dBase v.w.d2 % 16) v.j v.w.d2)).getLsbD i))
      else (mRead c (maskNo (FieldCheck.dBase v.w.d0 % 16) v.j v.w.d0)).getLsbD i) :
      ConvertBody v (.mlogic v.w) c (mWrite c (maskNo (FieldCheck.dBase v.w.d0 % 16) v.j v.w.d0) m)
  | mpop {c d} (_ : Into v (fun k => decide (k = 0)) (fun _ => (countedBits c v).length) c d) :
      ConvertBody v (.mpop v.w) c d
  | mfirst {c d} (_ : Into v (fun k => decide (k = 0)) (fun _ => (countedBits c v).head?.getD v.lanes) c d) :
      ConvertBody v (.mfirst v.w) c d

/-- Every repeat from VREP on, each committed before the next: the crew before and after. Before each, no LDV holds a register
that it reads or writes, and for the reversible class no earlier MRDRAIN is outstanding (R137, R190, R227). -/
inductive Repeats (s : State) (i : Instr) (w : VWord) (body : VEnv → Instr → Crew → Crew → Prop) : Nat → Crew → Crew → Prop
  | none {c} : Repeats s i w body 0 c c
  | next {k c c1 c2} (_ : vWaitsForLdv s s.cur.core c (vRegsAt i c.vctx.vrep) = false)
      (_ : isReversible i = true → vWaitsForMrdrain s s.cur.core c = false)
      (_ : body (envOf c w) i c c1) (_ : Repeats s i w body k (committed c c1) c2) : Repeats s i w body (k + 1) c c2

/-- V of the crew is at an instruction whose queues lead to active streams; no unit of the package is poisoned. -/
def VReady (s : State) (c : Crew) (i : Instr) : Prop :=
  Runs s .v c ∧ (∀ q ∈ vQueues i, peerActive c .v q = true) ∧ s.host.poison = []

/-- Of a crew only what V's instructions write may differ: vector registers, masks, queues, FSTAT, what V holds for the
instruction under way, the stall count. -/
def OnlyVector (c d : Crew) : Prop :=
  d = { c with v := d.v, mask := d.mask, queues := d.queues, fstat := d.fstat, vctx := d.vctx, ctl := d.ctl } ∧
    d.ctl = { c.ctl with stall := d.ctl.stall }

/-! ### The reversible class (R220 to R233) -/

/-- The forward forms, and their undos. -/
inductive Forward (w : VWord) : Instr → RevOp → Prop
  | rmul : Forward w (.rmul w) .mul
  | radd : Forward w (.radd w) .add
  | rfma : Forward w (.rfma w) .fma
  | rnar : Forward w (.rnar w) .nar
  | rlrelu : Forward w (.rlrelu w) .lrelu
inductive Undo (w : VWord) : Instr → RevOp → Prop
  | unmul : Undo w (.unmul w) .mul
  | unadd : Undo w (.unadd w) .add
  | unfma : Undo w (.unfma w) .fma
  | unnar : Undo w (.unnar w) .nar
  | unlrelu : Undo w (.unlrelu w) .lrelu

/-- What a forward lane gives, always rounded to nearest even (R227): `x` is the operand that the undo restores, `a` and
`b` the retained ones, `j` the slope. -/
def forwardLane (o : RevOp) (f : Fmt) (j x a b : Nat) : FRes :=
  match o with
  | .mul => encOp 0 false f (fmul (fval f x) (fval f b))
  | .add => encOp 0 false f (fadd 0 (fval f x) (fval f b))
  | .fma => encOp 0 false f (fmadd 0 (fval f a) (fval f b) (fval f x))
  | .nar => enc 0 false f (fval fF32 x)
  | .lrelu => if x < f.signBit then ⟨x, 0⟩ else enc 0 false f ((fval f x).scale (-(j : Int)))

/-- Operands of lane `k` of a forward repeat: restored, and the two retained. -/
def revX (c : Crew) (v : VEnv) (o : RevOp) (k : Nat) : Nat :=
  rowElem (vRead c (dRegNo (if o = .fma then v.w.d0 else v.w.d1) v.j)) (o.slotW v) k
def revA (c : Crew) (v : VEnv) (o : RevOp) (k : Nat) : Nat :=
  if o = .fma then rowElem (vRead c (dRegNo v.w.d1 v.j)) v.ew k else 0
def revB (c : Crew) (v : VEnv) (o : RevOp) (k : Nat) : Nat :=
  if o = .nar ∨ o = .lrelu then 0 else rowElem (vRead c (dRegNo v.w.d2 v.j)) v.ew k

/-- First element of the narrow register that belongs to the instruction: its part, for RNAR. -/
def revOff (v : VEnv) (o : RevOp) : Nat := if o = .nar then partOf v.w.d2 * 16 else 0

/-- Active elements of the register that holds the result of a forward repeat. -/
def revOn (v : VEnv) (o : RevOp) (e : Nat) : Bool :=
  decide (revOff v o ≤ e) && decide (e < revOff v o + o.lanes v) && v.act (o.lanes v) (e - revOff v o)

/-- One repeat of the class. A forward repeat writes its results, raises their flags and pushes its rows: one residue row, two
for RFMA, and an escape row where a lane forces one. An undo repeat whose tags agree writes the restored operands and pops
those rows. -/
inductive RevBody (s : State) (v : VEnv) : Instr → Crew → Crew → Prop
  | forward {i o c} (lane : Nat → RevLane) (_ : Forward v.w i o) (_ : stackRoom s c (if o = .fma then 3 else 2) = none)
      (_ : ∀ k, lane k = revLane o (fmtOf v.ty) (slopeOf v.w.d2) (revX c v o k) (revA c v o k) (revB c v o k))
      (_ : ∀ k, (lane k).d = forwardLane o (fmtOf v.ty) (slopeOf v.w.d2) (revX c v o k) (revA c v o k) (revB c v o k)) :
      RevBody s v i c (pushResidue
        (vWrite (setFlags c ((List.range (o.lanes v)).foldl
            (fun a k => if v.act (o.lanes v) k then a ||| (lane k).d.flags else a) 0))
          (dRegNo v.w.d0 v.j)
          (mergeRow v.ew (revOn v o) (fun e => (lane (e - revOff v o)).d.bits) (vRead c (dRegNo v.w.d0 v.j))))
        o v.ty (o.slotW v) (o.lanes v) (min v.n (o.lanes v)) (v.act (o.lanes v)) lane
        (vRead c (dRegNo (if o = .fma then v.w.d0 else v.w.d1) v.j)))
  | undo {i o c} (need : Nat) (esc : Bool) (value : Nat → Nat) (_ : Undo v.w i o)
      (_ : undoCheck c o v.ty (min v.n (o.lanes v)) = .ok (need, esc))
      (_ : esc = true → ∀ k, value k = rowElem (spGet c.rem.row (c.rem.rdepth - 1)) (o.slotW v) k)
      (_ : esc = false → ∀ k, value k = undoLane o (fmtOf v.ty) (slopeOf v.w.d2)
        (if o = .fma then rowElem (vRead c (dRegNo v.w.d0 v.j)) v.ew k
         else rowElem (vRead c (dRegNo v.w.d1 v.j)) v.ew (revOff v o + k))
        (revA c v o k) (revB c v o k)
        (rowElem (spGet c.rem.row (c.rem.rdepth - (if o = .fma then 2 else 1))) (o.slotW v) k)
        (if o = .fma then rowElem (spGet c.rem.row (c.rem.rdepth - 1)) (o.slotW v) k else 0)) :
      RevBody s v i c (cutTo (vWrite c (dRegNo v.w.d0 v.j)
        (mergeRow (o.slotW v) (v.act (o.lanes v)) value (vRead c (dRegNo v.w.d0 v.j)))) (c.rem.rdepth - need))
  | rmark {c} (_ : stackRoom s c 1 = none) :
      RevBody s v (.rmark v.w) c (pushRow c 0 (FieldCheck.dBase v.w.d2 % 256 * 32))
  | rdrop {c p} (_ : p < c.rem.rdepth)
      (_ : ∃ t, stackTag s c p = some t ∧ clsOf t = 0 ∧ t / 32 % 256 = FieldCheck.dBase v.w.d2 % 256)
      (_ : ∀ r, p < r → r < c.rem.rdepth →
        ∃ t, stackTag s c r = some t ∧ ¬(clsOf t = 0 ∧ t / 32 % 256 = FieldCheck.dBase v.w.d2 % 256)) :
      RevBody s v (.rdrop v.w) c (cutTo c p)

/-- The registers that a forward repeat reads. -/
def revSources (w : VWord) : RevOp → List (BitVec 18)
  | .fma => [w.d1, w.d2, w.d0]
  | .mul => [w.d1, w.d2]
  | .add => [w.d1, w.d2]
  | .nar => [w.d1]
  | .lrelu => [w.d1]

/-- The types of R226: .f32, .bf16 and .f16, RNAR without .f32 and with a part 0 or 1. -/
def RevTypes (v : VEnv) (o : RevOp) : Prop :=
  (v.ty = 9 ∨ v.ty = 10 ∨ (v.ty = 8 ∧ o ≠ .nar)) ∧ (o = .nar → partOf v.w.d2 < 2)

/-- A repeat of the undo that belongs to a forward repeat: the same type, lanes and immediate; it reads the register that the
forward wrote, retained operands that still hold what they held, and the stack that the forward left; `c` and `c1` stand before and
after the forward, `d` before the undo. -/
structure Matches (v u : VEnv) (o : RevOp) (c c1 d : Crew) : Prop where
  ty : u.w.ty = v.w.ty
  guard : u.guard = v.guard
  count : u.n = v.n
  imm : o = .nar ∨ o = .lrelu → u.w.d2 = v.w.d2
  stack : d.rem = c1.rem
  result : vRead d (dRegNo (if o = .fma then u.w.d0 else u.w.d1) u.j) = vRead c1 (dRegNo v.w.d0 v.j)
  first : o = .fma → vRead d (dRegNo u.w.d1 u.j) = vRead c (dRegNo v.w.d1 v.j)
  second : o = .fma ∨ o = .mul ∨ o = .add → vRead d (dRegNo u.w.d2 u.j) = vRead c (dRegNo v.w.d2 v.j)

/-- Of a crew only what V's instructions write, and the remainder stack, may differ. -/
def OnlyVectorAndStack (c d : Crew) : Prop :=
  d = { c with v := d.v, fstat := d.fstat, vctx := d.vctx, ctl := d.ctl, rem := d.rem } ∧
    d.ctl = { c.ctl with stall := d.ctl.stall }

/-! ### The matrix engine (R46 to R49, R176 to R195) -/

/-- The commands of M and what each is. -/
inductive MatrixForm (w : MWord) : Instr → MKind → Prop
  | mstep : MatrixForm w (.mstep w) .step
  | mgather : MatrixForm w (.mgather w) .gather
  | mzero : MatrixForm w (.mzero w) .zero
  | mloadacc : MatrixForm w (.mloadacc w) .load
  | mdrain : MatrixForm w (.mdrain w) .drain
  | mrdrain : MatrixForm w (.mrdrain w) .rdrain

/-- The crew that has issued a command with format word `fw` and lists `gather` and `scatter` (R179, R185, R192): the word is
latched, the A-bypass buffer stays valid only for a drain or an MSTEP with BYP, and counter DC has risen. -/
def latched (c : Crew) (k : MKind) (w : MWord) (rest : List QEntry) (fw : Word) (gather scatter : Sp 16) : Crew :=
  let c1 := popped c 9 rest
  dWrite { c1 with mctx := { c1.mctx with
      fw := some fw, mprog := 0, gather := gather, scatter := scatter, group := [], flags := 0,
      bypValid := c1.mctx.bypValid && (k.isDrain || (decide (k = .step) && w.byp)) } } .m (fwDc fw) (dRead c .m (fwDc fw) + 1)

/-- The next boundary, without and with rows taken for the one that ends. -/
def nextUnit (c : Crew) : Crew := { c with mctx := { c.mctx with mprog := c.mctx.mprog + 1 } }
def nextGroup (c : Crew) : Crew := { c with mctx := { c.mctx with mprog := c.mctx.mprog + 1, group := [] } }
def orMflags (c : Crew) (f : BitVec 6) : Crew := { c with mctx := { c.mctx with flags := c.mctx.flags ||| f } }

/-- `n` rows of q1 for the boundary under way: those that are held, then popped ones (R194). -/
def TakesRows (c : Crew) (n : Nat) (rows : List Row) (c1 : Crew) : Prop :=
  ∃ es rest, queueOf c 1 = es ++ rest ∧ (∀ e ∈ es, e.pending = false ∧ e.fail = 0) ∧
    rows = c.mctx.group ++ es.map (fun e => e.data) ∧ (rows.length = n ∨ (n < rows.length ∧ es = [])) ∧
    c1 = { (if es = [] then c else popped c 1 rest) with mctx := { c.mctx with group := rows } }

/-- Positions of group `grp` that are read, with the slice that each names (R185). -/
def positions (c : Crew) (k : MKind) (w : MWord) (p : MPath) (grp : Nat) : List (Nat × Nat) :=
  (List.range (min p.gs (kdepthOf w - grp * p.gs))).filterMap fun i =>
    (sliceAt k c.mctx.gather (mCount c k w) (grp * p.gs + i)).map fun g => (i, g)

/-- Element `m` of A's slice at a position, and element `n` of B's (R176, R185): popped, from the bypass buffer, or in rows. -/
def aElem (s : State) (c : Crew) (w : MWord) (fw : Word) (rows : List Row) (x : Nat × Nat) (m : Nat) : Nat :=
  let pa := sliceRows (fwFa fw)
  if w.byp then (spGet c.mctx.byp (128 * m + x.2)).toNat
  else if w.aq then sliceElem (fwFa fw) ((List.range pa).map fun h => rows.getD (x.1 * pa + h) 0) m
  else sliceElem (fwFa fw) ((List.range pa).map fun h => relRead s s.cur.core c 0 (sliceRow w.rowA w.strideA pa x.2 h)) m
def bElem (s : State) (c : Crew) (w : MWord) (fw : Word) (x : Nat × Nat) (n : Nat) : Nat :=
  let pb := sliceRows (fwFb fw)
  sliceElem (fwFb fw) ((List.range pb).map fun h => relRead s s.cur.core c 1 (sliceRow w.rowB w.strideB pb x.2 h)) n

/-- The block scale σ of column `n` for a group (R177); 1 off the QN4 path. -/
def sigmaOf (s : State) (c : Crew) (fw : Word) (p : MPath) (xs : List (Nat × Nat)) (n : Nat) : Nat :=
  if p.qn then
    rowElem (relRead s s.cur.core c (rowGrp (fwSrow fw))
      ((rowNum (fwSrow fw) + 2 * ((xs.head?.map fun x => x.2 / 64).getD 0) + n / 64 : Nat) : Int)) 8 (n % 64)
  else 1

/-- Rows that unit `i` of a drain writes: tile row and row within it. -/
def drainPairs (w : MWord) (fw : Word) (i : Nat) : List (Nat × Nat) :=
  let p := tileRows (fwFa fw)
  if w.dq then [(i / p, i % p)] else (List.range p).map fun q => (i, q)

/-- Row (m, q) of a drained tile: its elements converted, +0 in an inactive tile row (R187). -/
def drained (c : Crew) (k : MKind) (w : MWord) (fw : Word) (x : Nat × Nat) : Row :=
  let per := 128 / tileRows (fwFa fw)
  if x.1 < mCount c k w then
    rowOf (FieldCheck.widthOf (fwFa fw)) per fun i =>
      (drainElem k fw (spGet c.acc (16384 * w.t.toNat + 128 * x.1 + per * x.2 + i))).bits
  else 0


/-- The flags of the elements of an active row. -/
def drainFlags (c : Crew) (k : MKind) (w : MWord) (fw : Word) (x : Nat × Nat) : BitVec 6 :=
  let per := 128 / tileRows (fwFa fw)
  if x.1 < mCount c k w then
    (List.range per).foldl (fun a i =>
      a ||| (drainElem k fw (spGet c.acc (16384 * w.t.toNat + 128 * x.1 + per * x.2 + i))).flags) 0
  else 0

/-- One boundary of a command (R185 to R190). -/
inductive MBody (s : State) (k : MKind) (w : MWord) (fw : Word) : Crew → State → Crew → Prop
  | step {c} (p : MPath) (rows : List Row) (c1 : Crew) (_ : k.isStep = true) (_ : pathOf (fwFa fw) (fwFb fw) = some p)
      (_ : if w.aq then TakesRows c (min p.gs (kdepthOf w - c.mctx.mprog * p.gs) * sliceRows (fwFa fw)) rows c1 else c1 = c)
      (new : Nat → BitVec 32 → FRes)
      (_ : ∀ e old, new e old = accUpdate p (fwAm fw)
        ((positions c k w p c.mctx.mprog).map fun x =>
          (matVal (fwFa fw) (aElem s c w fw rows x (e / 128)), matVal (fwFb fw) (bElem s c w fw x (e % 128))))
        (sigmaOf s c fw p (positions c k w p c.mctx.mprog) (e % 128)) (fval fF32 (fwS fw))
        (if c.mctx.mprog = 0 ∧ w.acc = false then 0 else old.toNat)) :
      MBody s k w fw c s (orMflags (nextGroup (tilePut c1 w.t.toNat
        (mapNth (fun e old => BitVec.ofNat 32 (new e old).bits) 0 (tileGet c w.t.toNat))))
        (orFlags (mapNth new 0 (tileGet c w.t.toNat))))
  | zero {c} (_ : k = .zero) : MBody s k w fw c s (nextUnit
      (if c.mctx.mprog < mCount c k w then tileRowPut c w.t.toNat c.mctx.mprog fun _ _ => 0 else c))
  | load {c} (rows : List Row) (c1 : Crew) (_ : k = .load) (_ : c.mctx.mprog < mCount c k w)
      (_ : if w.aq then TakesRows c (tileRows (fwFa fw)) rows c1 else c1 = c ∧
        rows = (List.range (tileRows (fwFa fw))).map fun q =>
          relRead s s.cur.core c (rowGrp w.rowC.toNat) (tileRowAt w (tileRows (fwFa fw)) c.mctx.mprog q))
      (new : Nat → BitVec 32 → FRes)
      (_ : ∀ e old, new e old =
        let x := if fwFa fw = 8 then sliceElem 8 rows e
          else (enc 0 false fF32 (fval (fmtOf (fwFa fw)) (sliceElem (fwFa fw) rows e))).bits
        if w.acc then add32 old.toNat x else ⟨x, 0⟩) :
      MBody s k w fw c s (orMflags (nextGroup (tileRowPut c1 w.t.toNat c.mctx.mprog fun e old => BitVec.ofNat 32 (new e old).bits))
        (orFlags (mapNth new 0 (spBlock c.acc (16384 * w.t.toNat + 128 * c.mctx.mprog) 128))))
  | loadInactive {c} (rows : List Row) (c1 : Crew) (_ : k = .load) (_ : mCount c k w ≤ c.mctx.mprog)
      (_ : if w.aq then TakesRows c (tileRows (fwFa fw)) rows c1 else c1 = c) :
      MBody s k w fw c s (nextGroup c1)
  | drain {c} (c1 : Crew) (s1 : State) (_ : k.isDrain = true)
      (_ : k = .rdrain → stackRoom s c (2 * (8 / tileRows (fwFa fw)) * (drainPairs w fw c.mctx.mprog).length) = none)
      (_ : if w.dq then qRoom c 10 = true ∧ s1 = s ∧ c1 = setQueue c 10 (queueOf c 10 ++
          (drainPairs w fw c.mctx.mprog).map fun x => { entryOf (drained c k w fw x) with pc := c.strM.pc })
        else c1 = c ∧ s1 = (drainPairs w fw c.mctx.mprog).foldl (fun s x =>
          if x.1 < mCount c k w then
            (match drainRow w c.mctx.scatter (tileRows (fwFa fw)) x.1 x.2 with
             | some r => writeUnit s (relKey s.cur.core c r.1 r.2) 64 (drained c k w fw x).toNat
             | none => s)
          else s) s) :
      MBody s k w fw c s1 (nextUnit
        (let c2 := orMflags c1 ((drainPairs w fw c.mctx.mprog).foldl (fun a x => a ||| drainFlags c k w fw x) 0)
         if k = .rdrain then (drainPairs w fw c.mctx.mprog).foldl (fun c x =>
           drainResidue c w fw x.1 (x.2 * (8 / tileRows (fwFa fw))) ((x.2 + 1) * (8 / tileRows (fwFa fw)))) c2
         else c2))

/-- Boundaries from MPROG on, each committed before the next. -/
inductive MRuns (k : MKind) (w : MWord) (fw : Word) : Nat → State → Crew → State → Crew → Prop
  | none {s c} : MRuns k w fw 0 s c s c
  | next {n s c s1 c1 t d} (_ : MBody s k w fw c s1 c1) (_ : MRuns k w fw n s1 (clearStall c1) t d) :
      MRuns k w fw (n + 1) s c t d

/-- The crew once a command has run: a drain leaves the whole tile in the bypass buffer, with +0 in inactive rows; the flags
go to FSTAT, the counter falls and nothing is under way (R187, R192, R195). -/
def ranCommand (c : Crew) (k : MKind) (w : MWord) (fw : Word) : Crew :=
  let c1 := if k.isDrain then { c with mctx := { c.mctx with
    bypValid := true, bypFmt := fwFa fw,
    byp := spPut [] 0 (mapNth (fun i x => if i / 128 < mCount c k w then BitVec.ofNat 32 (drainElem k fw x).bits else 0) 0
      (tileGet c w.t.toNat)) } } else c
  let c2 := dDrop (setFlags c1 c1.mctx.flags) .m (fwDc fw)
  { c2 with mctx := idleMctx c2.mctx }

/-! ### The scan engine (R196 to R219, R448) -/

/-- The instructions of S that work within one crew. -/
inductive ScanForm (w : SWord) : Instr → SKind → Prop
  | sload : ScanForm w (.sload w) .load
  | sstore : ScanForm w (.sstore w) .store
  | szero : ScanForm w (.szero w) .zero
  | sread : ScanForm w (.sread w) .read
  | scan : ScanForm w (.scan w) .scan
  | sagg : ScanForm w (.sagg w) .agg
  | sapply : ScanForm w (.sapply w) .apply
  | step : ScanForm w (.step w) .step
  | diag : ScanForm w (.sopsetDiag w) (.opset 0)
  | bd2 : ScanForm w (.sopsetBd2 w) (.opset 1)
  | bd4 : ScanForm w (.sopsetBd4 w) (.opset 2)
  | bd8 : ScanForm w (.sopsetBd8 w) (.opset 3)
  | maxplus : ScanForm w (.sopsetMaxplus w) (.opset 4)
  | gsum : ScanForm w (.sopsetGsum w) (.opset 5)

/-- The row operand of an S instruction and the crew once it is read: the field, or with XQ the entry at the head of q5, whose
other bits are zero (R198). -/
inductive RowOperand (c : Crew) (k : SKind) (w : SWord) : Nat → Option Nat → Crew → Prop
  | field (_ : w.xq = false) : RowOperand c k w w.rowX.toNat none c
  | entry {e rest} (_ : w.xq = true) (_ : HasData c 5 e rest)
      (_ : e.data.toNat % 2 ^ 64 < 2 ^ (if k = .read then 7 else 15)) :
      RowOperand c k w (e.data.toNat % 2 ^ 64) (some (e.data.toNat % 2 ^ 64)) (popped c 5 rest)

/-- An S instruction is issued: its checks pass in the order of R448, and d0 rises (R199). -/
def SIssues (s : State) (c : Crew) (k : SKind) (w : SWord) (c1 : Crew) : Prop :=
  ∃ x held c0, (w.qe = true → peerActive c .s w.q.toNat = true) ∧ RowOperand c k w x held c0 ∧
    sChecks s s.cur.core c0 k w x = none ∧ dRead c .s 0 < 1023 ∧
    c1 = dWrite { c0 with sctx := { active := true, sprog := 0, flags := 0, rowX := held } } .s 0 (dRead c .s 0 + 1)

/-- The next step or channel; flags gathered for the retirement. -/
def nextStep (c : Crew) : Crew := { c with sctx := { c.sctx with sprog := c.sctx.sprog + 1 } }
def orSflags (c : Crew) (f : BitVec 6) : Crew := { c with sctx := { c.sctx with flags := c.sctx.flags ||| f } }

/-- `n` rows taken together from the head of queue `q`. -/
def TakesFrom (c : Crew) (q : Nat) (rows : List Row) (c1 : Crew) : Prop :=
  ∃ es rest, queueOf c q = es ++ rest ∧ es ≠ [] ∧ (∀ e ∈ es, e.pending = false ∧ e.fail = 0) ∧
    rows = es.map (fun e => e.data) ∧ c1 = popped c q rest

/-- Rows pushed together: the queue has room for all of them. -/
def PushesTo (c : Crew) (q : Nat) (rows : List Row) (c1 : Crew) : Prop :=
  (queueOf c q).length + rows.length ≤ qDepth q ∧ c1 = setQueue c q (queueOf c q ++ rows.map entryOf)

/-- Rows in memory from a row of the row form. -/
def rowsAt (s : State) (c : Crew) (x n : Nat) : List Row :=
  (List.range n).map fun r => relRead s s.cur.core c (rowGrp x) ((rowNum x + r : Nat) : Int)

/-- A tile whose first `n` channels are replaced. -/
def channels (c : Crew) (tile n : Nat) (f : Nat → List Nat) : Crew :=
  (List.range 128).foldl (fun c ch => if ch < n then chanPut c tile ch (f ch) else c) c

/-- Flags of the first `n` channels. -/
def channelFlags (n : Nat) (f : Nat → BitVec 6) : BitVec 6 := (List.range n).foldl (fun a ch => a ||| f ch) 0

/-- Element of channel `ch` at step `t` (R205): from the record, the readout vector and the parameter tiles. -/
def recordOfStep (s : State) (c : Crew) (w : SWord) (t : Nat) : Record :=
  let o := descOf c w
  recordOf o (rowsAt s c (rowXof c w + t * recRows o) (recRows o)) c.sctx.cv
def stepElem (s : State) (c : Crew) (w : SWord) (t ch : Nat) : ChanElem :=
  chanElem (descOf c w) (recordOfStep s c w t) (fun k => chanGet c (dHp (descOf c w) + k) ch) ch

/-- Readouts of 128 channels as eight rows (R206): none, pushed together, or written for the first `n` channels only. -/
inductive Reads (s : State) (c : Crew) (w : SWord) (t n : Nat) (y : Nat → Nat) : State → Crew → Prop
  | off (_ : dYo (descOf c w) = false) : Reads s c w t n y s c
  | queue {c1} (_ : dYo (descOf c w) = true) (_ : w.qe = true)
      (_ : PushesTo c w.q.toNat ((List.range 8).map fun r => rowOf 32 16 fun i => if 16 * r + i < n then y (16 * r + i) else 0) c1) :
      Reads s c w t n y s c1
  | rows (_ : dYo (descOf c w) = true) (_ : w.qe = false) : Reads s c w t n y
      ((List.range 8).foldl (fun s r =>
        if 16 * r < n then
          writeUnit s (relKey s.cur.core c (rowGrp w.rowY.toNat) ((rowNum w.rowY.toNat + 8 * t + r : Nat) : Int)) 64
            (rowOf 32 16 fun i => if 16 * r + i < n then y (16 * r + i) else
              rowElem (relRead s s.cur.core c (rowGrp w.rowY.toNat) ((rowNum w.rowY.toNat + 8 * t + r : Nat) : Int)) 32 i).toNat
        else s) s) c

/-- The new state of a channel in state form, as bits, and the flags and the readout that go with it (R51, R206, R207). -/
def stepState (s : State) (c : Crew) (w : SWord) (tile t ch : Nat) : List FRes :=
  stateUpdate (dKind (descOf c w)) (stepElem s c w t ch) (chanGet c tile ch)
def bitsOf (l : List FRes) : List Nat := l.map fun x => x.bits
def readoutOf (s : State) (c : Crew) (w : SWord) (t : Nat) (st : List Nat) : FRes :=
  if dYo (descOf c w) then readoutChan (recordOfStep s c w t).cv st else ⟨0, 0⟩

/-- The prefix of a later chunk after step `t` (R52, R212, R215). -/
def prefixAt (s : State) (c : Crew) (w : SWord) (t ch : Nat) : ChanElem :=
  let kind := dKind (descOf c w)
  let e := prefixElem kind (stepElem s c w t ch)
  if t = 0 then e else combineChan kind (aggGet c kind w.h.toNat ch) e

/-- An aggregate block whose 128 channels are replaced. -/
def blocks (c : Crew) (kind h : Nat) (f : Nat → ChanElem) : Crew :=
  (List.range 128).foldl (fun c ch => aggPut c kind h ch (f ch)) c

/-- What chunk 0 starts from: A is +0, b is the state tile (R212). -/
def firstAgg (c : Crew) (kind h ch : Nat) : ChanElem :=
  { b := chanGet c (h + aggW kind) ch, a := (List.range (aggW kind - 1)).map fun _ => List.replicate 64 0, fl := 0 }

/-- Operator descriptor `n` read from a row (R203). -/
def described (c : Crew) (n : Nat) (r : Row) : Crew := { c with o := spSet c.o n (r.setWidth 64) }

/-- The prefixes of a later chunk written to its block and, at its last step, the states to its state tile (R215). -/
def applied (c : Crew) (kind h : Nat) (last : Bool) (f : Nat → ChanElem) (st : Nat → List Nat) : Crew :=
  (List.range 128).foldl (fun c ch =>
    let c1 := aggPut c kind h ch (f ch)
    if last then chanPut c1 (h + aggW kind) ch (st ch) else c1) c

/-- One boundary of an S instruction of one crew. -/
inductive SBody (s : State) (w : SWord) : SKind → Crew → State → Crew → Prop
  | loadRows {c} (_ : w.qe = false) : SBody s w .load c s (nextStep (if c.sctx.sprog < nRead c .s w.nsel then
      putChanRows c w.h.toNat c.sctx.sprog (rowsAt s c (rowXof c w + 4 * c.sctx.sprog) 4) else c))
  | loadQueue {c rows c1} (_ : w.qe = true) (_ : TakesFrom c w.q.toNat rows c1) (_ : rows.length = 4) :
      SBody s w .load c s (nextStep (if c.sctx.sprog < nRead c .s w.nsel then putChanRows c1 w.h.toNat c.sctx.sprog rows else c1))
  | storeRows {c} (_ : w.qe = false) : SBody s w .store c
      (if c.sctx.sprog < nRead c .s w.nsel then
        (List.range 4).foldl (fun s r => writeUnit s
          (relKey s.cur.core c (rowGrp (rowXof c w)) ((rowNum (rowXof c w) + 4 * c.sctx.sprog + r : Nat) : Int)) 64
          ((chanRows c w.h.toNat c.sctx.sprog).getD r 0).toNat) s
       else s) (nextStep c)
  | storeQueue {c c1} (_ : w.qe = true) (_ : PushesTo c w.q.toNat
      (if c.sctx.sprog < nRead c .s w.nsel then chanRows c w.h.toNat c.sctx.sprog else List.replicate 4 0) c1) :
      SBody s w .store c s (nextStep c1)
  | zero {c} : SBody s w .zero c s (nextStep (channels c w.h.toNat (nRead c .s w.nsel) fun _ => List.replicate 64 0))
  | read {c c1} (_ : PushesTo c w.q.toNat
      (if c.sctx.sprog < nRead c .s w.nsel then chanRows c w.h.toNat (rowXof c w + c.sctx.sprog) else List.replicate 4 0) c1) :
      SBody s w .read c s (nextStep c1)
  | opset {c k} : SBody s w (.opset k) c s (nextStep (described c w.o.toNat ((rowsAt s c (rowXof c w) 1).headD 0)))
  | state {k c s1 c1} (tile t n : Nat)
      (_ : (k = .step ∧ tile = w.h.toNat ∧ t = 0 ∧ n = min (nRead c .s w.nsel) 128) ∨
        (k = .scan ∧ tile = w.h.toNat ∧ t = c.sctx.sprog ∧ n = 128 ∧ t < stepCount c w) ∨
        (k = .apply ∧ tile = w.h.toNat + aggW (dKind (descOf c w)) ∧ t = c.sctx.sprog ∧ n = 128 ∧ t < stepCount c w ∧
          chunkIdx s c = 0))
      (_ : Reads s (channels c tile n fun ch => bitsOf (stepState s c w tile t ch)) w t n
        (fun ch => (readoutOf s c w t (bitsOf (stepState s c w tile t ch))).bits) s1 c1) :
      SBody s w k c s1 (nextStep (orSflags c1 (channelFlags n fun ch => (stepElem s c w t ch).fl |||
        orFlags (stepState s c w tile t ch) ||| (readoutOf s c w t (bitsOf (stepState s c w tile t ch))).flags)))
  | skip {k c c1} (_ : k = .scan ∨ k = .apply) (_ : stepCount c w ≤ c.sctx.sprog)
      (_ : if dYo (descOf c w) && w.qe then PushesTo c w.q.toNat (List.replicate 8 0) c1 else c1 = c) :
      SBody s w k c s (nextStep c1)
  | aggNone {c} (_ : stepCount c w = 0) : SBody s w .agg c s (nextStep (if chunkIdx s c = 0 then
      blocks c (dKind (descOf c w)) w.h.toNat (firstAgg c (dKind (descOf c w)) w.h.toNat) else c))
  | aggFirst {c} (x : Nat → ChanElem) (a : Nat → List (List FRes)) (b : Nat → List FRes)
      (_ : stepCount c w ≠ 0) (_ : chunkIdx s c = 0)
      (_ : ∀ ch, x ch = if c.sctx.sprog = 0 then firstAgg c (dKind (descOf c w)) w.h.toNat ch
        else aggGet c (dKind (descOf c w)) w.h.toNat ch)
      (_ : ∀ ch, a ch = combineA (dKind (descOf c w)) (x ch).a (prefixElem (dKind (descOf c w)) (stepElem s c w c.sctx.sprog ch)).a)
      (_ : ∀ ch, b ch = stateUpdate (dKind (descOf c w)) (stepElem s c w c.sctx.sprog ch) (x ch).b) :
      SBody s w .agg c s (nextStep (orSflags
        (blocks c (dKind (descOf c w)) w.h.toNat fun ch => { b := bitsOf (b ch), a := (a ch).map bitsOf, fl := 0 })
        (channelFlags 128 fun ch => (stepElem s c w c.sctx.sprog ch).fl ||| orFlags (b ch) ||| orFlags (a ch).flatten)))
  | aggLater {c} (_ : stepCount c w ≠ 0) (_ : chunkIdx s c ≠ 0) : SBody s w .agg c s (nextStep (orSflags
      (blocks c (dKind (descOf c w)) w.h.toNat (prefixAt s c w c.sctx.sprog))
      (channelFlags 128 fun ch => (prefixAt s c w c.sctx.sprog ch).fl)))
  | applyLater {c s1 c1} (st : Nat → List FRes) (_ : c.sctx.sprog < stepCount c w) (_ : chunkIdx s c ≠ 0)
      (_ : ∀ ch, st ch = applyCarry (dKind (descOf c w)) (prefixAt s c w c.sctx.sprog ch)
        (chanGet c (w.h.toNat + aggW (dKind (descOf c w))) ch))
      (_ : Reads s
        (applied c (dKind (descOf c w)) w.h.toNat (decide (c.sctx.sprog = stepCount c w - 1)) (prefixAt s c w c.sctx.sprog)
          fun ch => bitsOf (st ch)) w c.sctx.sprog 128
        (fun ch => (readoutOf s c w c.sctx.sprog (bitsOf (st ch))).bits) s1 c1) :
      SBody s w .apply c s1 (nextStep (orSflags c1 (channelFlags 128 fun ch => (prefixAt s c w c.sctx.sprog ch).fl |||
        orFlags (st ch) ||| (readoutOf s c w c.sctx.sprog (bitsOf (st ch))).flags)))

/-- A fixed readout vector is read at rowZ before the first step (R205), from rows in S's phase sets (R247); afterwards it
is held. -/
def VectorRead (s : State) (k : SKind) (w : SWord) (c c0 : Crew) : Prop :=
  (needsCv c k w = false ∧ c0 = c) ∨
  (needsCv c k w = true ∧ (isDet c = true → ∀ x ∈ cvRows c w, phaseOk s c .s true false (rowForm x) = true) ∧
    c0 = { c with sctx := { c.sctx with cv := rowsAt s c w.rowZ.toNat (valRows (descOf c w) 64) } })

/-- Boundaries from SPROG on, each committed before the next, its rows in S's phase sets (R247). -/
inductive SRuns (k : SKind) (w : SWord) : Nat → State → Crew → State → Crew → Prop
  | none {s c} : SRuns k w 0 s c s c
  | next {n s c c0 s1 c1 t d} (_ : VectorRead s k w c c0) (_ : unitPhaseOk s c0 k w = true) (_ : SBody s w k c0 s1 c1)
      (_ : SRuns k w n s1 (clearStall c1) t d) : SRuns k w (n + 1) s c t d

/-- The instructions that a save may find between two of their boundaries (R218). -/
def Divisible (k : SKind) : Prop := k = .scan ∨ k = .agg ∨ k = .apply ∨ k = .load ∨ k = .store ∨ k = .read

/-- The S instruction is under way in `c1`, or is issued now. -/
def SReady (s : State) (c : Crew) (k : SKind) (w : SWord) (c1 : Crew) : Prop :=
  (c.sctx.active = true ∧ c1 = c) ∨ (c.sctx.active = false ∧ SIssues s c k w c1)

/-- The crew once an S instruction has run: its flags are set, d0 falls, and nothing is under way. -/
def ranScan (c : Crew) : Crew := { dDrop (setFlags c c.sctx.flags) .s 0 with sctx := idleSctx }

/-- The crew is chunk `idx` of `g` of one instance of its launch's scan group (R209). -/
def Member (s : State) (c : Crew) (l : Launch) (g idx inst : Nat) : Prop :=
  launchById s c.launch = some l ∧ groupOf s c = some (g, idx, inst)

/-- The network instruction of this kind is under way in `c1`, or is issued now. -/
def NetReady (s : State) (c : Crew) (k : SKind) (w : SWord) (c1 : Crew) : Prop :=
  Runs s .s c ∧ ((c.sctx.active = true ∧ c1 = c) ∨ (c.sctx.active = false ∧ (groupOf s c1).isSome = true ∧ SIssues s c k w c1))

/-- State tile `n` replaced by the b part of an aggregate. -/
def carriedTo (c : Crew) (n : Nat) (agg : Sp 32) : Crew := { c with st := spPut c.st (8192 * n) (spBlock agg 0 8192) }

/-- The packet that comes to the receiver of link `k`, and the link without it: the oldest on the wire of a link between dies, or,
at a port, the one that another package sends (R366, R370). -/
def Arrives (s : State) (k : CarryLink) (x : WirePacket) (k1 : CarryLink) : Prop :=
  (s.ev.unit < 7 ∧ ∃ rest, k.flight = x :: rest ∧ k1 = { k with flight := rest }) ∨ (7 ≤ s.ev.unit ∧ s.ev.pkt = some x ∧ k1 = k)

/-! ### Events of crews and contexts (R240, R248, R249, R256, R269, R346 to R359) -/

/-- What a crew holds for its program is as before: every register file, queue, tile and stack. -/
def SameContents (c d : Crew) : Prop :=
  d.cs = c.cs ∧ d.as = c.as ∧ d.cp = c.cp ∧ d.ap = c.ap ∧ d.k = c.k ∧ d.mask = c.mask ∧ d.v = c.v ∧ d.acc = c.acc ∧
    d.st = c.st ∧ d.o = c.o ∧ d.queues = c.queues ∧ d.ops = c.ops ∧ d.rem = c.rem ∧ d.fstat = c.fstat ∧
    d.vctx = c.vctx ∧ d.mctx = c.mctx ∧ d.sctx = c.sctx ∧ ∀ e, (strOf d e).pc = (strOf c e).pc

/-- The package once a save has flushed the crew, dropped the answers to its loads and passed on its records. -/
def quieted (s : State) (core slot : Nat) : State := drainErrs (dropLoads (flushCore s core) core slot) core slot

/-- The record of the crew can be completed: no error of the save area is met while it is written, every piece of its place in the
save object is mapped, and none of its rows is poisoned. -/
def RecordFits (s : State) (core slot : Nat) (c : Crew) (l : Launch) : Prop :=
  s.ev.cuts = [] ∧
  (∀ u ∈ recPieces l c.rank, (extentKey (quieted s core slot) l.tenant (fld (saveWord l) 40 24) u).isSome = true) ∧
  poisonedRows (quieted s core slot) core slot l c = []

/-- The slot is free, and the scheduler holds the crew's context as a save of this kind. -/
def Saved (t : State) (core slot : Nat) (c : Crew) (l : Launch) (kind : Nat) : Prop :=
  crewAt t core slot = none ∧ ∃ x ∈ t.sched.saved, x.launch = l.id ∧ x.rank = c.rank ∧ x.kind = kind

/-- The type 8 record of a forced save: cause 0x17, and C's PC (R356, R418). -/
def forcedRecord (s : State) (c : Crew) (core : Nat) : Nat := errRow s 8 0x17 (put c.strC.pc 4 4) (some (c, core))

/-- The resident crews that a migration takes along: those of the crew's unit of the migration level (R358). -/
def Mates (s : State) (l : Launch) (c : Crew) (p : Nat × Crew) : Prop :=
  p ∈ s.crews ∧ p.2.launch = l.id ∧ migUnit l p.2.rank = migUnit l c.rank

/-- The kind of a save: 5 while the package suspends, else `kind` (R352, R437). -/
def SaveKind (s : State) (kind : Nat) (k : Nat) : Prop :=
  (∀ p w, s.power = .suspending p w → k = 5) ∧ ((∀ p w, s.power ≠ .suspending p w) → k = kind)

/-! ### Events of the scheduler (R313 to R324, R361 to R365) -/

/-- The package once the front end has taken up its oldest record. -/
def recordTaken (s : State) (rest : List Submission) : State := { s with sched := { s.sched with arrivals := rest } }

/-- The launch that the oldest record describes. -/
def recordLaunch (s : State) (sub : Submission) (rest : List Submission) : Launch :=
  launchOf (recordTaken s rest) sub (fnTenant s sub.fn) s.sched.nextLaunch

/-- Limits of R303 that a launch breaks, and queues that do not take the record (R312). -/
def BreaksLimits (s : State) (sub : Submission) (l : Launch) : Prop :=
  16384 < l.ra ∨ 16384 < l.rb ∨ l.ra % 16 ≠ 0 ∨ l.rb % 16 ≠ 0 ∨ 16 < l.nt ∨ 16 < l.nh ∨ 768 < l.nv ∨ l.levels = [] ∨
    (regGet s 0 (rLQCFG sub.queue)).getLsbD 0 = false ∨ fld (regGet s 0 (rLQCFG sub.queue)) 8 8 ≠ l.tenant

/-- A dependence has been met (R314). -/
def IsMet (s : State) (l : Launch) (d : Word × Word × Bool) : Prop :=
  d.2.2 = true ∨ fld d.2.1 0 63 ≤ depValue s l d.1 % 2 ^ 63
/-- A dependence cancels: CANCEL is set and its object carries ERR (R314). -/
def Cancels (s : State) (l : Launch) (d : Word × Word × Bool) : Prop :=
  d.2.1.getLsbD 63 = true ∧ depValue s l d.1 / 2 ^ 63 = 1

/-- A head record with what the scheduler now sees of its dependences. -/
def observed (s : State) (l : Launch) : Launch :=
  { l with deps := l.deps.map fun d => (d.1, d.2.1, d.2.2 || decide (fld d.2.1 0 63 ≤ depValue s l d.1 % 2 ^ 63)) }

/-- Every crew of a held-back launch has ended and its count has reached TARGET (R361). -/
def RunEnded (s : State) (l : Launch) : Prop :=
  isDigested l = true ∧ l.completed = false ∧ l.target ≤ l.held ∧ ordinaryCrews l ≤ l.nextRank ∧
    (∀ p ∈ s.crews, p.2.launch ≠ l.id) ∧ ∀ x ∈ s.sched.saved, x.launch = l.id → x.kind = 7

/-- An instance of one crew of an elastic stage (R322). -/
def OneCrewStage (l : Launch) (stage : Nat) : Prop :=
  l.flags.getLsbD 6 = true ∧ l.flags.getLsbD 1 = false ∧ stage < l.stages.length ∧ instCrews l = 1

/-! ### Host queues and registers (R430 to R434) -/

/-- The entry that a function's submission queue hands to the device now (R433). -/
def HandsOver (s : State) (fn : Nat) (e : Row) : Prop :=
  expected s fn = some e ∧ (heNote e = true → eventsWait s fn = false) ∧
    heSeq e = ((regGet s fn rHSQACK).toNat + 1) % 2 ^ 32 ∧ s.host.cloveError = false

/-- The entry has been taken: HSQACK has advanced, and the entry is answered with a status where it asks for that. -/
def answered (s : State) (fn : Nat) (e : Row) (status : Nat) : State := pushNext (answer (advanceAck s fn) fn e status) fn

/-- The events that take the entries of a submission queue. -/
def TakesEntries (i : Instr) : Prop :=
  i = .hostSubmitLaunch ∨ i = .hostCopyToDevice ∨ i = .hostCopyToHost ∨ i = .hostSuspend ∨ i = .hostEcho

/-- The entry's operation is one of the table of R433, and this event's. -/
def IsFor (i : Instr) (e : Row) : Prop :=
  (i = .hostSubmitLaunch ∧ heOp e = 1) ∨ (i = .hostCopyToDevice ∧ heOp e = 2) ∨ (i = .hostCopyToHost ∧ heOp e = 3) ∨
    (i = .hostSuspend ∧ heOp e = 4) ∨ (i = .hostEcho ∧ heOp e = 5)

/-- What a copy entry must keep to (R433); `o` is the object it names. -/
def CopyFits (s : State) (fn : Nat) (e : Row) (o : ObjEnt) : Prop :=
  objOf? s (fnTenant s fn) (refObj (heObj e)) = some o ∧ refOff (heObj e) + 64 * heRows e ≤ o.size ∧
    refOff (heObj e) % 64 = 0 ∧ heHaddr e % 64 = 0 ∧ 1 ≤ heRows e ∧ heRows e ≤ 2 ^ 24 ∧ heDone e % 8 = 0 ∧ fnState s fn ≠ 0

/-- Its fields alone. -/
def CopyNamed (s : State) (fn : Nat) (e : Row) : Prop :=
  refOff (heObj e) % 64 = 0 ∧ heHaddr e % 64 = 0 ∧ 1 ≤ heRows e ∧ heRows e ≤ 2 ^ 24 ∧ heDone e % 8 = 0 ∧ fnState s fn ≠ 0

/-- What a launch entry must keep to (R433): its fields, and the object, which holds the record. -/
def SubmitNamed (s : State) (fn : Nat) (e : Row) : Prop := heLq e < 64 ∧ fnState s fn ≠ 0 ∧ refOff (heObj e) % 64 = 0
def SubmitFits (s : State) (fn : Nat) (e : Row) : Prop :=
  SubmitNamed s fn e ∧ extentFits s (fnTenant s fn) (heObj e) 0 512 = true

/-- The absent page of the second stage at which the copy of a record stops (R339). -/
def recordMiss (s : State) (fn : Nat) (e : Row) : Option XFail :=
  [refOff (heObj e), refOff (heObj e) + 448].findSome? (extentMiss s (fnTenant s fn) (refObj (heObj e)))

/-- The entry is held at an absent page; where its pager's queue is off it is a bad command (R339, R345). -/
def HeldAt (s : State) (fn : Nat) (e : Row) (f : XFail) (i : Instr) : Prop :=
  (∀ s1 tag, openFault s (fnTenant s fn) f .load (refObj (heObj e)) (refOff (heObj e)) = (s1, some tag) → exec i s = .next s1) ∧
  ∀ s1, openFault s (fnTenant s fn) f .load (refObj (heObj e)) (refOff (heObj e)) = (s1, none) → exec i s = .next (answered s1 fn e 2)

/-- A ring's configuration, TAIL and LOST after a write of its configuration (R419). -/
def RingSet (s t : State) (fn cfg tail lost : Nat) (v : Word) : Prop :=
  regGet t fn cfg = v &&& 0x801F_000F#64 ∧ t.mem = s.mem ∧
    (regEn s fn cfg = false ∧ v.getLsbD 31 = true → regGet t fn tail = 0 ∧ regGet t fn lost = 0) ∧
    (regEn s fn cfg = true ∨ v.getLsbD 31 = false →
      regGet t fn tail = regGet s fn tail ∧ regGet t fn lost = regGet s fn lost)

/-- The registers whose write is an event of its own. -/
def WritesRegister (i : Instr) : Prop :=
  i = .hsqdb ∨ i = .hsqbase ∨ i = .hsqcfg ∨ i = .deqbase ∨ i = .eqcfg ∨ i = .fqcfg ∨ i = .fqhead ∨ i = .statoWrite ∨
    i = .pwrcapWrite ∨ i = .lqcfgWrite ∨ i = .retcfgWrite ∨ i = .spcoreWrite ∨ i = .spsliceWrite ∨
    i = .translationRegisterWrite ∨ i = .tencfgWrite

/-! ### Command ports (R329, R383, R400, R405, R431) -/

/-- A port runs a command of an operation, latched as this row, and the register blocks answer. -/
def Commands (s : State) (id op : Nat) (r : Row) : Prop :=
  (portOf s id).run = true ∧ (portOf s id).latched = r ∧ cmdOp r = op ∧ regsAnswer s = true

/-- The port's command is over, with this code. -/
def EndsWith (t : State) (id code : Nat) : Prop := (portOf t id).run = false ∧ (portOf t id).code = code

/-- A command of the tenant port that has not begun. -/
def TenantCommand (s : State) (op f : Nat) (r : Row) : Prop :=
  Commands s 32 op r ∧ (portOf s 32).begun = false ∧ cmdFn r = f

/-- SET and INVAL of a table, the table's count, and the address of an entry: 4 objects, 6 host windows. -/
def setInstr (host : Bool) : Instr := if host then .setHostEntry else .setObject
def invalInstr (host : Bool) : Instr := if host then .invalHostEntry else .invalObject
def tableCount (s : State) (tenant : Nat) (host : Bool) : Nat := if host then htcnt s tenant else otcnt s tenant
def entryAddr (s : State) (tenant : Nat) (host : Bool) (i : Nat) : Nat :=
  if host then hostEntAddr s tenant i else objEntAddr s tenant i

/-- An entry that INVAL leaves: V falls, GEN advances, the rest stands (R329). -/
def invalidated (e : ObjEnt) : ObjEnt :=
  { e with w0 := e.w0 % 2 ^ 63, w1 := e.w1 / 2 ^ 11 * 2 ^ 11 + (e.gen + 1) % 2 ^ 11 }

/-- A command of a quarter's scrubber on frames whose blocks are `bs`. -/
def OnFrames (s : State) (op : Nat) (r : Row) (l : List (Nat × List (Nat × Nat))) : Prop :=
  s.ev.idx < 4 ∧ Commands s (33 + s.ev.idx) op r ∧
    cmdFrames s s.ev.idx (scAddr r) (scCount r) = some l

/-- The events of the scrubber's table (R405), by OP. -/
def scrubInstr : Nat → Instr
  | 1 => .assign
  | 2 => .free
  | 3 => .pullmark
  | _ => .query

end Sys2Proof.Safety
end

