-- ==== Sys2Proof/Certificates/Slice0/Obligations.lean ====
section
/-!
DEFINITION. Certificates/Slice0/Obligations.lean: the statements for the provers, in the order of the manual.
-/
open Sys2Proof Sys2Proof.Machine Sys2Proof.Safety

/-- Words written out in the manual's own worked examples (R100, R107, the example of R195, R219, 15 and 20), one or more of
each tag: the instruction and operands are those of the statement beside them there. -/
def Obligations.WordsDecode : Prop :=  decode 0x003C507F = .ok (.li 0 0 0 5 0x7F) ∧ decode 0x003E5C00 = .ok (.liu 0 0 0 5 0xC00) ∧
  decode 0x0038633F = .ok (.shli 0 0 0 6 6 63) ∧ decode 0x00D048C5 = .ok (.cmp 0 0 0 4 1 2 6 5) ∧
  decode 0x00627314 = .ok (.sel 0 0 0 1 7 6 5) ∧ decode 0x000A8300 = .ok (.div 0 0 0 8 6 0 0) ∧
  decode 0x00800280 = .ok (.fmtq 0 0 5) ∧ decode 0x00841001 = .ok (.setnImm 0 0 1 1) ∧
  decode 0x20906112 = .ok (.ldZ 0 0 6 2 4 2) ∧ decode 0x20B43118 = .ok (.copy 0 0 3 2 6) ∧
  decode 0x2050B22C = .ok (.stq 0 0 11 4 11) ∧ decode 0x208251A8 = .ok (.koff 0 0 5 3 10) ∧
  decode 0x204E81A4 = .ok (.ldv 0 0 8 3 9) ∧ decode 0x204A1000 = .ok (.waitd 1 0 0 0 1 0) ∧
  decode 0xA0080000 = .ok (.notify 0 0) ∧ decode 0xA00E0000 = .ok (.cbar 0 0) ∧
  decode (parcels [0x40021002, 0x14040281, 0x00300000]) =
    .ok (.vmax ⟨false, 0, 8, 0, 2, 10 * 64 + 1, 20 * 64 + 1, 0x30000, 0⟩) ∧
  decode (parcels [0x40011010, 0x40042000, 0x00028010]) =
    .ok (.vfma ⟨false, 0, 8, 0, 16, 128 * 64, 64 * 64 + 1, 160 * 64 + 1, 0⟩) ∧
  decode (parcels [0x40401081, 0x05000140, 0x00001800]) =
    .ok (.rmul ⟨false, 0, 8, 2, 1, 5 * 64, 5 * 64, 6 * 64, 0⟩) ∧
  decode (parcels [0x60042000, 0x00008000, 0x0000C000, 0x00000010, 0, 0]) =
    .ok (.mstep ⟨0, true, false, 0, 0, 1, 2 ^ 14, 1, 16, false, 0, false, 0, false, false, 0⟩) ∧
  decode (parcels [0x80094480, 0x00000100, 0x00010000]) =
    .ok (.sagg ⟨4, 1, 1, 0, false, false, 256, 0, 0, 2⟩) ∧
  decode 0xC0000000 = .error .illegal

/-- Decoding the encoding of a well-formed instruction gives it back, with every operand at every value. -/
def Obligations.DecodeEncodeAgree : Prop :=  ∀ i : Instr, i.isWord = true → i.wf = true → decode (encode i) = .ok i

/-- R60: an encoded instruction carries the tag of its engine, or of the joint words, and the tag fixes its length. -/
def Obligations.TagFixesLength : Prop :=  ∀ i : Instr, i.isWord = true → encode i < 2 ^ (8 * wordBytes i) ∧ lenOfTag (encode i / 2 ^ 29 % 8) = wordBytes i ∧
    encode i / 2 ^ 29 % 8 = tagOfWord i

/-- The package after bring-up (R111, R398, R401, R404, R422, R440): the counter starts at zero, no crew is resident, no
launch is accepted, memory lists nothing, every register of the blocks reads its reset value, and the device runs. That a
byte of scratchpad, Commons or host memory that nothing has written reads 0 is the model's choice (log entry 2), as are the
value of a register for which the manual gives none (log entry 3) and that the package stands after bring-up (log entry 50).
-/
def Obligations.ResetLeaves : Prop :=  State.reset.cycle = 0 ∧ (∀ core slot, crewAt State.reset core slot = none) ∧ State.reset.sched.launches = [] ∧
  (∀ a, memGet State.reset.mem a = 0) ∧ (∀ fn off, regGet State.reset fn off = regReset fn off) ∧
  regGet State.reset 0 (rTENCFG 0) = 0xF_4000_0000 ∧ (∀ f, 0 < f → f < 32 → regGet State.reset 0 (rTENCFG f) = BitVec.ofNat 64 (256 * f)) ∧
  (∀ q, q < 4 → regGet State.reset 0 (rMEMIL q) = 0x1F) ∧ (∀ st b, frameRec State.reset st b = 0) ∧
  State.reset.power = .run

/-- Memory has its canonical form after reset. -/
def Obligations.ResetMemoryCanonical : Prop := MemOk State.reset

/-- Whatever a step is, it keeps memory in its canonical form: equal contents stay equal data. -/
def Obligations.StepKeepsMemoryCanonical : Prop := ∀ s t : State, MemOk s → step s = .next t → MemOk t

/-- A step in which a stream meets an instruction of its own or a joint word, within the slip window, that decodes, names
nothing beyond the footprint and is of the core's profile, is that instruction executed in the package as fetched. -/
def Obligations.StepRunsDecoded : Prop :=  ∀ (s s1 : State) (core slot : Nat) (e : Eng) (c : Crew) (tag w : Nat) (i : Instr),
    Fetches s core slot e c tag w s1 → tag = tagOfEng e ∨ tag = 5 → slipBlocked c e (growth c e tag w) = false →
    decode w = .ok i → footprintOk c i = true → (profileF i = true → isSaffron core = true) →
    step s = exec i s1

/-- Words that are not executed (R4, R17, R60, R63, R82, R90, R94, R262, R264): an instruction of another engine is skipped
by its length, unless V, M or S meets a SETN, which it executes; a stream beyond its slip window waits in class 5; a word
that decodes to nothing raises illegal instruction, one that names a register beyond the footprint reserved register (0x02),
and then one that names a queue of the wrong kind queue misuse (0x0B) with the queue's number, one of which it is no
endpoint illegal instruction; one of profile F on a Heather core traps for the scheduler (0x10), or is illegal where the
launch forbids migration. At an X word C waits first while an outcome FIFO is full. At an X word that no opcode assigns each
stream stops, and the crew raises illegal instruction at C's PC once every active stream has, or once C has and another
waits for its outcome; a stream that C has passed by at TRAPRET passes too, and one that finds another outcome is out of
step (R263) (the model's reading of R90, log entry 97). -/
def Obligations.StepSkipsOrFaults : Prop :=  ∀ (s s1 : State) (core slot : Nat) (e : Eng) (c : Crew) (tag w : Nat), Fetches s core slot e c tag w s1 →
    (lenOfTag tag ≠ 0 → slipBlocked c e (growth c e tag w) = true → step s = .next (putCrew s1 core slot (setWait c e 5))) ∧
    (lenOfTag tag ≠ 0 → slipBlocked c e (growth c e tag w) = false → tag ≠ tagOfEng e → tag ≠ 5 →
      (∀ i, decode w = .ok i → isSetn i = false) →
      step s = .next (putCrew s1 core slot (advance c e (lenOfTag tag) (pcOf c e + lenOfTag tag)))) ∧
    (slipBlocked c e (growth c e tag w) = false → tag = 0 → e = .v ∨ e = .m ∨ e = .s → c.trap.inHandler = false →
      ∀ i, decode w = .ok i → isSetn i = true → step s = exec i s1) ∧
    (lenOfTag tag = 0 → step s = exec .illegalInstruction s1) ∧
    (slipBlocked c e (growth c e tag w) = false → tag = tagOfEng e ∨ tag = 5 →
      (decode w = .error .illegal → Full c e w → step s = .next (putCrew s1 core slot (setWait c e 4))) ∧
      (decode w = .error .illegal → ¬Full c e w → xUnassigned w = false → step s = exec .illegalInstruction s1) ∧
      (decode w = .error .reservedReg → step s = .next (faultsOn s1 core slot c e 0x02 0)) ∧
      (∀ i, decode w = .ok i → footprintOk c i = false → step s = .next (faultsOn s1 core slot c e 0x02 0)) ∧
      (∀ i, decode w = .ok i → footprintOk c i = true → profileF i = true → isSaffron core = false →
        step s = .next (faultsOn s1 core slot c e (if isNoMig c then 0x01 else 0x10) 0)) ∧
      (∀ i, decodeFields w = some i → decode w = .error .queueMisuse →
        step s = .next (if footprintOk c i then faultsOn s1 core slot c e 0x0B (misusedQueue i)
          else faultsOn s1 core slot c e 0x02 0)) ∧
      (∀ i, decodeFields w = some i → decode w = .error .queueIllegal → step s =
        if footprintOk c i then exec .illegalInstruction s1 else .next (faultsOn s1 core slot c e 0x02 0)) ∧
      (decode w = .error .illegal → ¬Full c e w → xUnassigned w = true →
        (c.trap.inHandler = true ∨ (e = .c ∧ c.cd ≠ 0) → step s = .next (faultsOn s1 core slot c e 0x01 0)) ∧
        (c.trap.inHandler = false → ¬(e = .c ∧ c.cd ≠ 0) → e = .c ∨ (strOf c e).fifo = [] →
          (¬AllStop c e →
            step s = .next (putCrew s1 core slot (setWait (setStr c e { strOf c e with status := .joint 3 0 }) e 0))) ∧
          (AllStop c e → ∃ c2, step s = .next (faultsOn s1 core slot c2 .c 0x01 0) ∧ ∀ o, pcOf c2 o = pcOf c o)) ∧
        (c.trap.inHandler = false → e ≠ .c →
          (∀ rest, Finds c e false rest → step s = .next (putCrew s1 core slot (retire (collected c e rest) e 4))) ∧
          ((strOf c e).fifo ≠ [] → (¬∃ rest, Finds c e false rest) → step s = .next (faultsOn s1 core slot c e 0x01 0)))))

/-- A step that is an event of the package runs it with its operands, where the power state lets it act (R426, R435, R437,
R439): any event while firmware runs or a suspend is under way, and only those that lead on from bring-up, retention or no
power elsewhere. One that is the passing of `n` cycles adds `n` to the cycle counter, which stops in retention and without
power (R111, R439), and touches no memory and no register block. The model's own agenda says which comes next (log entry 4).
-/
def Obligations.StepRunsEvents : Prop :=  (∀ (s : State) (i : Instr) (a : EvArgs) (rest : List Activity), s.agenda = .event i a :: rest → i.isWord = false →
    (ActsIn s.power i → step s = exec i { s with agenda := rest, ev := a }) ∧
    (¬ActsIn s.power i → step s = .next { s with agenda := rest })) ∧
  ∀ (s : State) (n : Nat) (rest : List Activity), s.agenda = .tick n :: rest →
    ∃ t, step s = .next t ∧ t.mem = s.mem ∧ t.regs = s.regs ∧
      t.cycle = if s.power = .retention ∨ s.power = .off ∨ s.power = .thermal then s.cycle else s.cycle + BitVec.ofNat 64 n

/-- R77 and R101: registers s0, p0, k0, m0 and n0 read as constants and discard writes. -/
def Obligations.FixedRegisters : Prop :=  ∀ (c : Crew) (e : Eng), sRead c e 0 = 0 ∧ pRead c e 0 = true ∧ kRead c 0 = 0 ∧ mRead c 0 = BitVec.allOnes 64 ∧
    nRead c e 0 = 0xFFFF ∧ (∀ x, sWrite c e 0 x = c) ∧ (∀ b, pWrite c e 0 b = c) ∧ (∀ x, kWrite c 0 x = c) ∧
    (∀ x, mWrite c 0 x = c) ∧ ∀ x, nWrite c e 0 x = c

/-- R77, R101 and R272: a register reads what was written to it last, and a write reaches no other register of its file, no
other stream's file and none of the other five files. -/
def Obligations.RegistersReadBack : Prop :=  (∀ (c : Crew) (e o : Eng) (d r : BitVec 5) (x : Word), (e = .c ∨ e = .a) → (o = .c ∨ o = .a) → d ≠ 0 →
    sRead (sWrite c e d x) o r = (if e = o ∧ d = r then x else sRead c o r)) ∧
  (∀ (c : Crew) (e o : Eng) (d r : BitVec 4) (b : Bool), (e = .c ∨ e = .a) → (o = .c ∨ o = .a) → d ≠ 0 →
    pRead (pWrite c e d b) o r = (if e = o ∧ d = r then b else pRead c o r)) ∧
  (∀ (c : Crew) (d r : BitVec 5) (x : Cap), d ≠ 0 → kRead (kWrite c d x) r = (if d = r then x else kRead c r)) ∧
  (∀ (c : Crew) (d r : Nat) (x : Word), d ≠ 0 → mRead (mWrite c d x) r = (if d = r then x else mRead c r)) ∧
  (∀ (c : Crew) (d r : Nat) (x : Row), vRead (vWrite c d x) r = if d = r then x else vRead c r) ∧
  (∀ (c : Crew) (e o : Eng) (d r : BitVec 3) (x : BitVec 16), d ≠ 0 →
    nRead (nWrite c e d.toNat x) o r = if e = o ∧ d = r then x.toNat else nRead c o r) ∧
  ∀ (c : Crew) (e : Eng),
    (∀ d x, let c' := sWrite c e d x
      SamePredicates c c' ∧ SameCaps c c' ∧ SameMasks c c' ∧ SameVectors c c' ∧ SameCounts c c') ∧
    (∀ d b, let c' := pWrite c e d b
      SameScalars c c' ∧ SameCaps c c' ∧ SameMasks c c' ∧ SameVectors c c' ∧ SameCounts c c') ∧
    (∀ d x, let c' := kWrite c d x
      SameScalars c c' ∧ SamePredicates c c' ∧ SameMasks c c' ∧ SameVectors c c' ∧ SameCounts c c') ∧
    (∀ d x, let c' := mWrite c d x
      SameScalars c c' ∧ SamePredicates c c' ∧ SameCaps c c' ∧ SameVectors c c' ∧ SameCounts c c') ∧
    (∀ d x, let c' := vWrite c d x
      SameScalars c c' ∧ SamePredicates c c' ∧ SameCaps c c' ∧ SameMasks c c' ∧ SameCounts c c') ∧
    ∀ d x, let c' := nWrite c e d x
      SameScalars c c' ∧ SamePredicates c c' ∧ SameCaps c c' ∧ SameMasks c c' ∧ SameVectors c c'

/-- R2: storage is byte-addressed and little-endian; a write of `n` bytes changes exactly those `n` bytes, byte `j` of them
being bits 8j+7:8j, and reading them gives the number back. -/
def Obligations.MemoryReadsBack : Prop :=  ∀ (m : Memory) (a x n : Nat),
    (∀ b, memGet (memWriteN m a x n) b =
      if a ≤ b ∧ b < a + n then BitVec.ofNat 8 (x / 256 ^ (b - a)) else memGet m b) ∧
    memReadN (memWriteN m a x n) a n = x % 256 ^ n

/-- What retiring does and leaves (R117, R241, R259, R267, R268): the PC moves to its next place, the path walked grows by
the length unless C is in a subroutine or the crew in a handler, the wait class and the stall count are cleared; no
register, queue, flag, mask, tile, remainder entry or other stream changes. -/
def Obligations.RetiringMovesOnlyPosition : Prop :=  ∀ (c : Crew) (e : Eng) (len pc : Nat), let c' := goto c e len pc
    pcOf c' e = pc ∧ c'.ctl.stall = 0 ∧
    (c.trap.inHandler = false → (strOf c' e).wait = 0 ∧
      (strOf c' e).path = (strOf c e).path + (if e = .c ∧ c.cd ≠ 0 then 0 else len)) ∧
    (c.trap.inHandler = true → ∀ o, (strOf c' o).path = (strOf c o).path) ∧
    OnlyPosition c c' e ∧ OtherCrewState c c' ∧ c'.cs = c.cs ∧ c'.as = c.as ∧ c'.cp = c.cp ∧ c'.ap = c.ap ∧ c'.k = c.k ∧
    c'.fstat = c.fstat ∧ c'.trap.hcs = c.trap.hcs ∧ c'.trap.has = c.trap.has ∧ c'.trap.hk = c.trap.hk ∧
    c'.trap.hcp = c.trap.hcp ∧ c'.trap.hap = c.trap.hap

/-- R104: every form of the table, when its guard holds, writes its result to sd and retires; a write to s0 is discarded by
the register file. -/
def Obligations.AluResult : Prop :=  ∀ (s : State) (c : Crew) (i : Instr) (f : ScalarForm), AluForm c i f → Runs s f.eng c →
    Enabled c f.eng f.inv f.grd → exec i s = .next (retired s (sWrite c f.eng f.dst f.val) f.eng 4)

/-- R105 to R107: MULH, DIV and REM in every sub-op that decodes write their result, and a zero divisor sets IDZ and nothing
traps; the immediate forms write theirs, LIU reading sd as its own source. -/
def Obligations.WideAndImmediateResults : Prop :=
  (∀ (s : State) (c : Crew) (i : Instr) (f : ScalarForm), WideForm c i f → Runs s f.eng c →
       Enabled c f.eng f.inv f.grd →
       exec i s = .next (retired s (sWrite { c with fstat := c.fstat ||| f.flags } f.eng f.dst f.val) f.eng 4)) ∧
  (∀ (s : State) (c : Crew) (i : Instr) (f : ScalarForm), ImmediateForm c i f → Runs s f.eng c →
       Enabled c f.eng f.inv f.grd → exec i s = .next (retired s (sWrite c f.eng f.dst f.val) f.eng 4))

/-- The frame of these 29 instructions, whatever their guard: no byte of memory and nothing outside the crew changes, no
register but sd, no flag but IDZ of a zero divisor, and of the stream only its position. -/
def Obligations.ScalarFrame : Prop :=  ∀ (s t : State) (c : Crew) (i : Instr) (f : ScalarForm), WritesOne c i f → Runs s f.eng c →
    exec i s = .next t →
    OnlyThisCrew s t ∧ ∃ c', crewAt t s.cur.core s.cur.slot = some c' ∧ OnlyScalar c c' f.eng f.dst ∧
      (c'.fstat = c.fstat ∨ c'.fstat = c.fstat ||| f.flags) ∧ OnlyPosition c c' f.eng ∧ OtherCrewState c c'

/-- R108 and R109: CMP and CMPI write both predicates whatever the guard, pe after pd; PLOGIC writes fn<2·pa + pb>. R66,
R89, R101 and R243: an instruction of C or A whose guard is false writes nothing, pushes and pops nothing and accesses no
memory: it only retires; so do a privileged word in a crew with privilege, and TRAPRET in a handler. The compare class, the
joint words and SETN, which V, M and S meet, are not among them. -/
def Obligations.ComparesAndFalseGuards : Prop :=
  (∀ (s : State) (c : Crew) (t n : BitVec 1) (g : BitVec 4), Runs s (engOf t) c →
       (∀ cc d p a b, exec (.cmp t n g cc d p a b) s = .next (retired s
         (compared c (engOf t) (decide (Enabled c (engOf t) n g))
           (condition cc.toNat (sRead c (engOf t) a) (sRead c (engOf t) b)) d p) (engOf t) 4)) ∧
       (∀ cc d p a i, exec (.cmpi t n g cc d p a i) s = .next (retired s
         (compared c (engOf t) (decide (Enabled c (engOf t) n g))
           (condition cc.toNat (sRead c (engOf t) a) (wrap64 i.toInt)) d p) (engOf t) 4)) ∧
       (Enabled c (engOf t) n g → ∀ d a b f, exec (.plogic t n g d a b f) s = .next (retired s
         (pWrite c (engOf t) d (f.getLsbD (2 * (if pRead c (engOf t) a then 1 else 0) + (if pRead c (engOf t) b then 1 else 0))))
         (engOf t) 4))) ∧
  (∀ (s : State) (c : Crew) (i : Instr) (e : Eng) (n : BitVec 1) (g : BitVec 4), Guarded i e n g → Runs s e c →
       Disabled c e n g → exec i s = .next (retired s c e 4) ∧
       (∀ j, Privileged j n g → e = .c → c.flags.getLsbD 0 = true → exec j s = .next (retired s c .c 4)) ∧
       (e = .c → c.trap.inHandler = true → exec (.trapret n g) s = .next (retired s c .c 4)))

/-- R80, R81, R103, R110, R114, R258 and R267: QPOP takes the oldest entry, QSEND and FMTQ append one; an empty or reserved
head waits in class 1, a full queue in class 2; a queue whose other end is no active stream is queue misuse (0x0B), for FMTQ
where M is not active, and an entry that bears a failure raises its cause at the PC of its LDQ (R134). -/
def Obligations.QueueTransfers : Prop :=  ∀ (s : State) (c : Crew) (t n : BitVec 1) (g : BitVec 4), Runs s (engOf t) c → Enabled c (engOf t) n g →
    (∀ d (q : BitVec 4), peerActive c (engOf t) q.toNat = true →
      (queueOf c q.toNat = [] → exec (.qpop t n g d q) s = .next (waiting s c (engOf t) 1)) ∧
      ∀ x rest, queueOf c q.toNat = x :: rest →
        (x.pending = true → exec (.qpop t n g d q) s = .next (waiting s c (engOf t) 1)) ∧
        (x.pending = false → x.fail = 0 → exec (.qpop t n g d q) s = .next (retired s
          (sWrite (popped c q.toNat rest) (engOf t) d (x.data.setWidth 64)) (engOf t) 4)) ∧
        (x.pending = false → x.fail ≠ 0 → exec (.qpop t n g d q) s = .next (raise s s.cur.core s.cur.slot c
          { cause := x.fail, eng := engOf t, pc := x.pc, addr := x.addr, info := 0, swc := 0, engop := false }))) ∧
    (∀ (q : BitVec 4) a, peerActive c (engOf t) q.toNat = true →
      ((queueOf c q.toNat).length < qDepth q.toNat → exec (.qsend t n g q a) s =
        .next (retired s (pushed c q.toNat (sRead c (engOf t) a)) (engOf t) 4)) ∧
      (qDepth q.toNat ≤ (queueOf c q.toNat).length → exec (.qsend t n g q a) s = .next (waiting s c (engOf t) 2))) ∧
    (∀ a, t = 0 → peerActive c .c 9 = true →
      ((queueOf c 9).length < 32 → exec (.fmtq n g a) s = .next (retired s (pushed c 9 (sRead c .c a)) .c 4)) ∧
      (32 ≤ (queueOf c 9).length → exec (.fmtq n g a) s = .next (waiting s c .c 2))) ∧
    (∀ a, t = 0 → peerActive c .c 9 = false → exec (.fmtq n g a) s = .next (faultsAt s c .c 0x0B 9)) ∧
    ∀ d a (q : BitVec 4), peerActive c (engOf t) q.toNat = false →
      exec (.qpop t n g d q) s = .next (faultsAt s c (engOf t) 0x0B q.toNat) ∧
      exec (.qsend t n g q a) s = .next (faultsAt s c (engOf t) 0x0B q.toNat)

/-- R111, R112 and R116: RDCYC, the four forms of RDID, and SLIP. In a shape-independent launch RDCYC and the forms that
name the core or the slot are illegal (R360). R113 and R150: WAITD retires once the counter holds a value not above the
count and waits in class 8 until then; on A it joins the counted-down operations of that counter, and raises the fault of
the first that met one. Class 8 is R267's; that the address of such a fault is that of the row or increment that failed is
the model's reading (log entry 81). -/
def Obligations.CountersAndWaits : Prop :=
  (∀ (s : State) (c : Crew) (t n : BitVec 1) (g : BitVec 4), Runs s (engOf t) c → Enabled c (engOf t) n g →
       (isShapeInd c = false → ∀ d, exec (.rdcyc t n g d) s = .next (retired s (sWrite c (engOf t) d s.cycle) (engOf t) 4)) ∧
       (∀ d (sub : BitVec 2), (isShapeInd c = false ∨ sub = 1 ∨ sub = 2) → exec (.rdid t n g d sub) s =
         .next (retired s (sWrite c (engOf t) d (BitVec.ofNat 64 (identity s c sub.toNat))) (engOf t) 4)) ∧
       (isShapeInd c = true → ∀ d, exec (.rdcyc t n g d) s = .next (faultsAt s c (engOf t) 0x01 0) ∧
         exec (.rdid t n g d 0) s = .next (faultsAt s c (engOf t) 0x01 0) ∧
         exec (.rdid t n g d 3) s = .next (faultsAt s c (engOf t) 0x01 0)) ∧
       (t = 0 → ∀ i : BitVec 12, exec (.slip n g i) s =
         .next (retired s { c with slipw := if i = 0 then 65536 else i.toNat * 16 } .c 4))) ∧
  (∀ (s : State) (w : Crew) (t n : BitVec 1) (g : BitVec 4) (e : BitVec 2) (c : BitVec 3) (k : BitVec 10),
       Runs s (engOf t) w → Enabled w (engOf t) n g →
       (k.toNat < dRead w (waitsOn t e) c.toNat → exec (.waitd t n g e c k) s = .next (waiting s w (engOf t) 8)) ∧
       (dRead w (waitsOn t e) c.toNat ≤ k.toNat → waitsOn t e ≠ .a → exec (.waitd t n g e c k) s = .next (retired s w (engOf t) 4)) ∧
       (dRead w (waitsOn t e) c.toNat ≤ k.toNat → waitsOn t e = .a →
         (∀ o ∈ w.ops, covered c.toNat o = true → o.fault = 0) → exec (.waitd t n g e c k) s =
           .next (retired s { w with ops := w.ops.filter fun o => !covered c.toNat o } (engOf t) 4)) ∧
       ∀ before o after, dRead w (waitsOn t e) c.toNat ≤ k.toNat → waitsOn t e = .a → w.ops = before ++ o :: after →
         (∀ x ∈ before, covered c.toNat x = true → x.fault = 0) → covered c.toNat o = true → o.fault ≠ 0 →
         ∃ w1, exec (.waitd t n g e c k) s = .next (raise s s.cur.core s.cur.slot w1
           { cause := o.fault, eng := .a, pc := o.pc, addr := o.faultOff, info := capCursor o.ccap, swc := 0, engop := true }))

/-- R117: the three call instructions; a false guard neither branches nor writes s31 or CD. -/
def Obligations.CallsAndReturns : Prop :=  ∀ (s : State) (c : Crew) (n : BitVec 1) (g : BitVec 4), Runs s .c c →
    (Enabled c .c n g →
      (∀ o, c.cd ≠ 255 → exec (.brl n g o) s = .next (jumped s
        (sWrite { c with ors := if c.cd = 0 then pcOf c .c else c.ors, cd := c.cd + 1 } .c 31 (BitVec.ofNat 64 (pcOf c .c + 4)))
        .c (target (pcOf c .c) o))) ∧
      (∀ o, c.cd = 255 → exec (.brl n g o) s = .next (faultsAt s c .c 0x01 0)) ∧
      (c.cd ≠ 0 → exec (.ret n g) s = .next (jumped s { c with cd := c.cd - 1 } .c ((sRead c .c 31).toNat / 4 * 4))) ∧
      (c.cd = 0 → exec (.ret n g) s = .next (faultsAt s c .c 0x01 0)) ∧
      ∀ a, exec (.jmpr n g a) s = .next (jumped s c .c ((sRead c .c a).toNat / 4 * 4))) ∧
    (Disabled c .c n g → ∀ o a, exec (.brl n g o) s = .next (retired s c .c 4) ∧
      exec (.ret n g) s = .next (retired s c .c 4) ∧ exec (.jmpr n g a) s = .next (retired s c .c 4))

/-- R245, R261 to R263: NOP, BR and LOOP. C decides from its guard (LOOP lowers s30 and asks whether it is zero yet) and
delivers the outcome; A, V, M and S collect it; each then stands at the target or at the next word. -/
def Obligations.BranchesAreJoint : Prop :=  ∀ (s : State) (c c' : Crew) (e : Eng) (n : BitVec 1) (g : BitVec 4) (taken : Bool), Runs s e c → s.cur.eng = e →
    (Outcome c e false taken c' → exec (.nop n g) s = .next (retired s c' e 4)) ∧
    (∀ o, Outcome c e (decide (Enabled c .c n g)) taken c' → exec (.br n g o) s =
      .next (jumped s c' e (if taken then target (pcOf c' e) o else pcOf c' e + 4))) ∧
    (∀ o, e ≠ .c → Outcome c e false taken c' → exec (.loop n g o) s =
      .next (jumped s c' e (if taken then target (pcOf c' e) o else pcOf c' e + 4))) ∧
    (∀ o, e = .c → Decides c → Disabled c .c n g → exec (.loop n g o) s = .next (retired s (delivered c false) .c 4)) ∧
    ∀ o, e = .c → Decides c → Enabled c .c n g →
      let x := wrap64 ((sRead c .c 30).toInt - 1)
      let c1 := sWrite c .c 30 x
      exec (.loop n g o) s = .next (jumped s (delivered c1 (decide (x ≠ 0))) .c
        (if x ≠ 0 then target (pcOf c .c) o else pcOf c .c + 4))

/-- R118, R241 and R261 to R263: an outcome entry holds its PC, kind and count, and is delivered to every active stream that
takes it and to no other. C waits in class 4 while a FIFO is full; another stream waits in class 3 for an empty FIFO and
faults on an entry that is not its own; a joint word other than NOP is illegal in a handler and in a subroutine, where NOP
only retires. -/
def Obligations.OutcomesAndTheirWaits : Prop :=
  ((∀ pc taken, entryPc (jointEntry pc taken) = pc % 2 ^ 32 ∧ entryKind (jointEntry pc taken) = if taken then 1 else 0) ∧
     (∀ pc keep k v, k < 8 → entryPc (countEntry pc keep k v) = pc % 2 ^ 32 ∧ entryKind (countEntry pc keep k v) = 2 ∧
       (countEntry pc keep k v).getLsbD 19 = keep ∧ fld (countEntry pc keep k v) 16 3 = k ∧
       fld (countEntry pc keep k v) 0 16 = v.toNat) ∧
     (∀ (c : Crew) (es : List Eng) (x : Word), es.Nodup → ∀ e, strOf (fifoPush c es x) e =
       if e ∈ es ∧ active c e = true then { strOf c e with fifo := (strOf c e).fifo ++ [x] } else strOf c e)) ∧
  (∀ (s : State) (c : Crew) (e : Eng) (i : Instr), JointWord i → Runs s e c → s.cur.eng = e →
       (e = .c → c.trap.inHandler = false → c.cd = 0 → (∃ o, o ≠ .c ∧ active c o = true ∧ 64 ≤ (strOf c o).fifo.length) →
         exec i s = .next (waiting s c e 4)) ∧
       (e ≠ .c → c.trap.inHandler = false → (strOf c e).fifo = [] → exec i s = .next (waiting s c e 3)) ∧
       (e ≠ .c → c.trap.inHandler = false → (∃ x rest, (strOf c e).fifo = x :: rest ∧
           (entryPc x ≠ pcOf c e % 2 ^ 32 ∨ 2 ≤ entryKind x)) → exec i s = .next (faultsAt s c e 0x01 0)) ∧
       (c.trap.inHandler = true ∨ (e = .c ∧ c.cd ≠ 0) →
         ((∀ n g, i ≠ .nop n g) → exec i s = .next (faultsAt s c e 0x01 0)) ∧
         ∀ n g, exec (.nop n g) s = .next (retired s c e 4)))

/-- R246, R247, R249, R274 and R275: CBAR, NOTIFY and NOTIFY.cont stop the stream where their outcome is taken, and retire
it where it is not. R247 and R248: PHASE and YIELD name an entry of the launch's tables; beyond the table they are illegal
in C. PHASE stops the stream when taken; in a deterministic launch an entry whose sets overlap is a phase violation (0x0F).
YIELD is taken when pre-emption is requested. -/
def Obligations.MeetingsPhasesYields : Prop :=
  (∀ (s : State) (c c' : Crew) (e : Eng) (i : Instr) (n : BitVec 1) (g : BitVec 4) (st : StreamStatus) (taken : Bool),
       Meets i n g st → Runs s e c → s.cur.eng = e → Outcome c e (decide (Enabled c .c n g)) taken c' →
       exec i s = .next (if taken then meeting s c' e st else retired s c' e 4)) ∧
  (∀ (s : State) (c c' : Crew) (e : Eng) (n : BitVec 1) (g : BitVec 4) (x : BitVec 12) (l : Launch) (taken : Bool),
       Runs s e c → s.cur.eng = e → launchById s c.launch = some l →
       ((x.toNat < l.phases.length ∧ (isDet c = true → phaseOverlap (l.phases.getD x.toNat 0) = false)) →
         Outcome c e (decide (Enabled c .c n g)) taken c' →
         exec (.phase n g x) s = .next (if taken then meeting s c' e (.joint 1 x.toNat) else retired s c' e 4)) ∧
       (x.toNat < l.yields.length → Outcome c e (decide (Enabled c .c n g) && c.ctl.preq) taken c' →
         exec (.yield n g x) s = .next (if taken then meeting s c' e (.yielded x.toNat) else retired s c' e 4)) ∧
       (e = .c → Decides c → Enabled c .c n g →
         (l.phases.length ≤ x.toNat → exec (.phase n g x) s = .next (faultsAt s c .c 0x01 0)) ∧
         (l.yields.length ≤ x.toNat → exec (.yield n g x) s = .next (faultsAt s c .c 0x01 0)) ∧
         (x.toNat < l.phases.length → isDet c = true → phaseOverlap (l.phases.getD x.toNat 0) = true →
           exec (.phase n g x) s = .next (faultsAt s c .c 0x0F 0))))

/-- R246 and R274: the streams of a crew leave a meeting point together. While one active stream is still running nothing
happens, and none leaves while the debugger holds the crew (R256); when all have reached a CBAR each retires its 4 bytes and
runs on. -/
def Obligations.StreamsMeet : Prop :=  ∀ (s : State) (core slot : Nat) (c : Crew), crewAt s core slot = some c →
    ((∃ e, active c e = true ∧ (strOf c e).status = .running) → active c .c = true → meet s core slot = s) ∧
    (c.ctl.dbgstat.getLsbD 1 = true → meet s core slot = s) ∧
    (active c .c = true → (strOf c .c).status = .joint 0 0 → (∀ e, active c e = true → ∃ a, (strOf c e).status = .joint 0 a) →
      c.trap.inHandler = false → c.ctl.dbgstat.getLsbD 1 = false →
      ∃ c', meet s core slot = putCrew s core slot c' ∧ ∀ e,
        (active c e = true → (strOf c' e).status = .running ∧ pcOf c' e = pcOf c e + 4 ∧ (strOf c' e).wait = 0) ∧
        (active c e = false → strOf c' e = strOf c e))

/-- R115, R262, R263 and R272: SETN. C appends a count entry to the FIFO of every active V, M and S; each of them pops it at
the same place and writes its own copy of nN, or keeps it when C's guard was false; A only passes. -/
def Obligations.ValidCounts : Prop :=  ∀ (s : State) (c : Crew) (n : BitVec 1) (g : BitVec 4) (k : BitVec 3) (a : BitVec 5) (i : BitVec 12),
    Runs s s.cur.eng c →
    (s.cur.eng = .c → c.cd = 0 → c.trap.inHandler = false →
      (∀ e, e = .v ∨ e = .m ∨ e = .s → active c e = true → (strOf c e).fifo.length < 64) →
      exec (.setnReg n g k a) s = .next (retired s (fifoPush c [.v, .m, .s]
        (countEntry (pcOf c .c) (decide (Disabled c .c n g)) k.toNat ((sRead c .c a).setWidth 16))) .c 4) ∧
      exec (.setnImm n g k i) s = .next (retired s (fifoPush c [.v, .m, .s]
        (countEntry (pcOf c .c) (decide (Disabled c .c n g)) k.toNat (i.setWidth 16))) .c 4)) ∧
    (s.cur.eng = .a → exec (.setnReg n g k a) s = .next (retired s c .a 4) ∧
      exec (.setnImm n g k i) s = .next (retired s c .a 4)) ∧
    (∀ e x rest, s.cur.eng = e → e = .v ∨ e = .m ∨ e = .s → (strOf c e).fifo = x :: rest →
      entryPc x = pcOf c e % 2 ^ 32 → entryKind x = 2 →
      let c1 := setStr c e { strOf c e with fifo := rest }
      let t := retired s (if x.getLsbD 19 then c1 else nWrite c1 e (fld x 16 3) (x.setWidth 16)) e 4
      exec (.setnReg n g k a) s = .next t ∧ exec (.setnImm n g k i) s = .next t) ∧
    (s.cur.eng = .c → c.cd ≠ 0 → exec (.setnReg n g k a) s = .next (faultsAt s c .c 0x01 0) ∧
      exec (.setnImm n g k i) s = .next (faultsAt s c .c 0x01 0))

/-- R238: SRD writes the value of every register of the map, and SWR follows the access codes of R3: FSTAT and DEMOTE are
cleared where the written bits are ones, SKIP of TCAUSE is written in handler mode, DBGCTL stops, steps or runs the crew
(R256, R257), and a read-only register ignores it. A number that the map does not list, or that is closed to the crew, is
illegal, whatever the guard (the model's reading, log entry 11). -/
def Obligations.SystemRegisters : Prop :=  ∀ (s : State) (c : Crew) (n : BitVec 1) (g : BitVec 4), Runs s .c c →
    (∀ r x d, SysValue c r x → Enabled c .c n g → exec (.srd n g d r) s = .next (retired s (sWrite c .c d x) .c 4)) ∧
    (∀ r x d a, SysValue c r x → Disabled c .c n g → exec (.srd n g d r) s = .next (retired s c .c 4) ∧
      exec (.swr n g a r) s = .next (retired s c .c 4)) ∧
    (∀ a, Enabled c .c n g →
      exec (.swr n g a 0) s = .next (withCrew s { retire c .c 4 with fstat := c.fstat &&& ~~~ ((sRead c .c a).setWidth 6) }) ∧
      exec (.swr n g a 4) s = .next (withCrew s { retire c .c 4 with demote := c.demote && !(sRead c .c a).getLsbD 0 }) ∧
      (c.trap.inHandler = true → exec (.swr n g a 0x100) s = .next (withCrew s { retire c .c 4 with
        trap := { (retire c .c 4).trap with tcause := setBit c.trap.tcause 30 ((sRead c .c a).getLsbD 30) } })) ∧
      (c.flags.getLsbD 0 = true → let v := sRead c .c a
        let stepped := v.getLsbD 2 = false ∧ v.getLsbD 3 = true ∧ fld v 5 3 < 5
        ∃ c', exec (.swr n g a 0x200) s = .next (withCrew s c') ∧ pcOf c' .c = pcOf c .c + 4 ∧ c'.ctl.dbgctl = v &&& 0xFD ∧
          (c'.ctl.dbgstat.getLsbD 1 = true ↔ v.getLsbD 2 = true ∨ (v.getLsbD 3 = true ∧ 5 ≤ fld v 5 3)) ∧
          (stepped → c'.ctl.stepping = 1) ∧ (¬stepped → c'.ctl.stepping = 0) ∧ SameScalars c c' ∧ SamePredicates c c' ∧ SameCaps c c') ∧
      (c.trap.inHandler = false → c.flags.getLsbD 0 = true → exec (.swr n g a 0x100) s = .next (retired s c .c 4)) ∧
      (∀ r x, SysValue c r x → r ≠ 0 → r ≠ 4 → r ≠ 0x100 → r ≠ 0x200 → exec (.swr n g a r) s = .next (retired s c .c 4))) ∧
    (∀ r d a, SysClosed c r → exec (.srd n g d r) s = .next (faultsAt s c .c 0x01 0) ∧
      exec (.swr n g a r) s = .next (faultsAt s c .c 0x01 0))

/-- R89 and R237: a crew without system privilege that issues a privileged word takes illegal instruction, whatever the
guard. That the check comes before the guard is the reading of log entry 11. -/
def Obligations.PrivilegeIsChecked : Prop :=  ∀ (s : State) (c : Crew) (i : Instr) (n : BitVec 1) (g : BitVec 4), Privileged i n g → Runs s .c c → c.flags.getLsbD 0 = false →
    exec i s = .next (faultsAt s c .c 0x01 0)

/-- R240 to R242: a fault of a stream outside handler mode, of a handleable cause for which the tenant has a handler, is
taken, unless a stream earlier in the order C, A, V, M, S has one pending, which is served in its place: the trap registers
hold cause, PC, address and information, C and A stand at the handler's entry with banks of zeros but for k1, and the crew's
own registers, streams' PCs and forked operations are untouched. -/
def Obligations.TakingATrap : Prop :=  ∀ (s : State) (core slot : Nat) (c : Crew) (f : FaultInfo) (h : Handler), c.trap.inHandler = false →
    handleable f.cause = true → handlerFor s c.tenant f.cause = some h → NonePending c f.eng →
    ∃ c', raise s core slot c f = putCrew s core slot c' ∧
      c'.trap.inHandler = true ∧ c'.trap.tcause = BitVec.ofNat 64 (causeWord f) ∧ c'.trap.tpc = BitVec.ofNat 64 f.pc ∧
      c'.trap.taddr = BitVec.ofNat 64 f.addr ∧ c'.trap.tinfo = BitVec.ofNat 64 f.info ∧
      pcOf c' .c = h.entry ∧ pcOf c' .a = h.entry ∧ (∀ r, sRead c' .c r = 0 ∧ sRead c' .a r = 0) ∧
      (∀ r, r ≠ 0 → pRead c' .c r = false ∧ pRead c' .a r = false) ∧
      (∀ r, kRead c' r = if r = 1 then handlerData s c.tenant h else 0) ∧
      c'.cs = c.cs ∧ c'.as = c.as ∧ c'.cp = c.cp ∧ c'.ap = c.ap ∧ c'.k = c.k ∧ c'.v = c.v ∧ c'.acc = c.acc ∧ c'.st = c.st ∧
      c'.queues = c.queues ∧ c'.ops = c.ops ∧ c'.fstat = c.fstat ∧ ∀ e, (strOf c' e).pc = (strOf c e).pc

/-- R240: a handleable cause without a handler, and a cause that is not handleable, end the crew. A fault inside a handler
ends the crew too, its record carrying both causes (R241); that byte 1 holds the first cause and byte 3 the second is the
model's reading (log entry 10). Cause 0x10 waits for the scheduler, and a fault behind a pending 0x10 of an earlier stream
waits with it. -/
def Obligations.FaultsEndCrews : Prop :=  ∀ (s : State) (core slot : Nat) (c : Crew) (f : FaultInfo),
    (c.trap.inHandler = true → raise s core slot c f = endCrew s core slot c { f with cause := fld c.trap.tcause 0 8 } f.cause) ∧
    (c.trap.inHandler = false → f.cause ≠ 0x10 → (handleable f.cause = false ∨ handlerFor s c.tenant f.cause = none) →
      NonePending c f.eng → let c1 := setStr c f.eng { strOf c f.eng with status := .faulted f, wait := 0 }
      raise s core slot c f = endCrew (putCrew s core slot c1) core slot c1 f 0) ∧
    (c.trap.inHandler = false → f.cause = 0x10 →
      (raise s core slot c f).agenda = s.agenda ++ [.event .migrateTrap { core := core, slot := slot }] ∧
      (raise s core slot c f).mem = s.mem) ∧
    (∀ e g, c.trap.inHandler = false → f.cause ≠ 0x10 → active c e = true → engCode e < engCode f.eng → NonePending c e →
      (strOf c e).status = .faulted g → g.cause = 0x10 →
      raise s core slot c f = putCrew s core slot (setStr c f.eng { strOf c f.eng with status := .faulted f, wait := 0 }))

/-- R239, R243 and R244: TRAP retires and raises 0x15 with imm12 in SWC; TRAPRET leaves handler mode, discards the banks and
lets every stream stand where it stopped; with SKIP the trapping stream of any engine stands past its instruction and its
progress field is clear, and an X word of C is delivered as not taken to every stream, once their FIFOs have room (log entry
31); outside a handler it is illegal. TRAPINSTALL maps every cause of its mask to the handler, and removes it where the text
object is 0. -/
def Obligations.TrapInstructions : Prop :=  ∀ (s : State) (c : Crew) (n : BitVec 1) (g : BitVec 4), Runs s .c c → Enabled c .c n g →
    (∀ i : BitVec 12, exec (.trap n g i) s = .next (raise s s.cur.core s.cur.slot (retire c .c 4)
      { cause := 0x15, eng := .c, pc := pcOf c .c + 4, addr := 0, info := 0, swc := i.toNat, engop := false })) ∧
    (c.trap.inHandler = false → exec (.trapret n g) s = .next (faultsAt s c .c 0x01 0)) ∧
    (c.trap.inHandler = true → (c.trap.tcause.getLsbD 30 = false ∨ fld c.trap.tcause 0 8 = 0x15) →
      ∃ c', exec (.trapret n g) s = .next (withCrew s c') ∧ c'.trap.inHandler = false ∧ (∀ e, strOf c' e = strOf c e) ∧
        c'.cs = c.cs ∧ c'.as = c.as ∧ c'.cp = c.cp ∧ c'.ap = c.ap ∧ c'.k = c.k ∧ c'.trap.tcause = c.trap.tcause ∧
        c'.vctx = c.vctx ∧ c'.mctx = c.mctx ∧ c'.sctx = c.sctx) ∧
    (c.trap.inHandler = true → c.trap.tcause.getLsbD 30 = true → fld c.trap.tcause 0 8 ≠ 0x15 →
      ∀ e, engCode e = fld c.trap.tcause 8 3 → let at_ := stoppedAt s s.cur.core c e
        (e ≠ .c ∨ at_.1 ≠ 5 → ∃ c', exec (.trapret n g) s = .next (withCrew s c') ∧ c'.trap.inHandler = false ∧
          pcOf c' e = (strOf c e).pc + at_.2 ∧ (∀ o, o ≠ e → strOf c' o = strOf c o) ∧ c'.cs = c.cs ∧ c'.as = c.as ∧
          c'.cp = c.cp ∧ c'.ap = c.ap ∧ c'.k = c.k ∧ c'.v = c.v ∧ c'.acc = c.acc ∧ c'.st = c.st ∧
          c'.vctx = (if e = .v then ⟨0, none, none, none⟩ else c.vctx) ∧ c'.mctx.mprog = (if e = .m then 0 else c.mctx.mprog) ∧
          c'.sctx.sprog = (if e = .s then 0 else c.sctx.sprog)) ∧
        (e = .c → at_.1 = 5 →
          (fifoFull c jointEngs = true → exec (.trapret n g) s = .next (waiting s c .c 4)) ∧
          (fifoFull c jointEngs = false → ∃ c', exec (.trapret n g) s = .next (withCrew s c') ∧ c'.trap.inHandler = false ∧
            pcOf c' .c = c.strC.pc + at_.2 ∧ c'.cs = c.cs ∧ c'.as = c.as ∧ c'.cp = c.cp ∧ c'.ap = c.ap ∧ c'.k = c.k ∧
            ∀ o, o ≠ .c → strOf c' o = if active c o = true then
              { strOf c o with fifo := (strOf c o).fifo ++ [jointEntry c.strC.pc false] } else strOf c o))) ∧
    (c.flags.getLsbD 0 = true → ∀ a b, let x := sRead c .c a
      let y := sRead c .c b
      fld y 56 8 = 0 → fld x 24 40 % 4 = 0 → (∀ i, i < 32 → (fld y 0 32).testBit i = true → handleable i = true) →
      (fld x 0 24 = 0 ∨ ∃ e, objOf? s c.tenant (fld x 0 24) = some e ∧ hasRights e.rights rightX = true ∧ e.paged = false) →
      (fld y 32 24 = 0 ∨ ∃ e, objOf? s c.tenant (fld y 32 24) = some e ∧ hasRights e.rights (rightR + rightW) = true ∧
        e.paged = false) →
      ∃ t, exec (.trapinstall n g a b) s = .next t ∧ crewAt t s.cur.core s.cur.slot = some (retire c .c 4) ∧ t.mem = s.mem ∧
        ∀ tenant i, handlerFor t tenant i =
          if tenant = c.tenant ∧ i < 32 ∧ (fld y 0 32).testBit i = true then
            (if fld x 0 24 = 0 then none else some ⟨tenant, i, fld x 0 24, fld x 24 40, fld y 32 24⟩)
          else handlerFor s tenant i)

/-- R250, R251 and R252: the operations that hand work to the scheduler and repartition the package, where they are
accepted. LAUNCH submits a copy of the 512-byte record to its queue, of which records on their way count too (log entry 77);
PQUIESCE marks or frees quarters; PSTATUS reports one, field by field; PBOUND refuses for the issuer's own quarter, then for
the first affected quarter with a crew, then for the first with a record in a launch queue, and else rewrites every affected
quarter (one outside the mask becomes a partition of its own, log entry 112). A LAUNCH whose object lies behind an absent
page of the second stage holds C (R339, log entry 99). -/
def Obligations.PartitionsAndLaunches : Prop :=  ∀ (s : State) (c : Crew) (n : BitVec 1) (g : BitVec 4), RunsPrivileged s c n g →
    (∀ a b e rows, let x := sRead c .c a
      let y := sRead c .c b
      fld y 6 58 = 0 → fld x 24 40 % 64 = 0 → objOf? s c.tenant (fld x 0 24) = some e → e.paged = false →
      fld x 24 40 + 512 ≤ e.size → fld (regGet s 0 (rLQCFG (fld y 0 6))) 8 8 = c.tenant → queueLoad s (fld y 0 6) < 32 → s.host.cloveError = false →
      extentRows s c.tenant (fld x 0 24) (fld x 24 40) 8 = some rows →
      ∃ t, exec (.launch n g a b) s = .next t ∧ crewAt t s.cur.core s.cur.slot = some (retire c .c 4) ∧ t.mem = s.mem ∧
        t.sched.arrivals = s.sched.arrivals ++ [⟨fnOf s c.tenant, false, fld y 0 6, fld x 0 24, fld x 24 40, imageOf rows⟩]) ∧
    (∀ a b f, let x := sRead c .c a
      fld (sRead c .c b) 6 58 = 0 → fld x 24 40 % 64 = 0 → lookupObj s c.tenant (fld x 0 24) = .error f → f.cause = 0x06 →
      exec (.launch n g a b) s = .next (holdStream s s.cur.core s.cur.slot c .c f .load (fld x 0 24) (fld x 24 40))) ∧
    (∀ a, let x := sRead c .c a
      fld x 5 59 = 0 → ∃ t, exec (.pquiesce n g a) s = .next t ∧ t.mem = s.mem ∧
        t.sched.quiesce = (if x.getLsbD 4 then s.sched.quiesce ||| x.setWidth 4 else s.sched.quiesce &&& ~~~ (x.setWidth 4)) ∧
        ∃ c', crewAt t s.cur.core s.cur.slot = some c' ∧ pcOf c' .c = pcOf c .c + 4 ∧
          (x.getLsbD 4 = true → x.getLsbD (s.cur.core / 64) = true → s.cur.core < 256 → s.cur.slot < 2 → c'.ctl.preq = true)) ∧
    (∀ d a, let x := sRead c .c a
      let q := fld x 0 2
      fld x 2 62 = 0 → ∃ w : Word, exec (.pstatus n g d a) s = .next (retired s (sWrite c .c d w) .c 4) ∧
        fld w 32 32 = 0 ∧ fld w 16 16 = queuesFor s q ∧ fld w 8 8 = (crewsIn s q).length % 256 ∧ fld w 3 5 = 0 ∧
        w.getLsbD 2 = s.sched.quiesce.getLsbD q ∧ (w.getLsbD 1 = true ↔ ∀ i, i < 64 → ¬Placeable s q i) ∧
        (w.getLsbD 0 = true ↔ ¬Occupied s q)) ∧
    (∀ a b, let mask := fld (sRead c .c a) 0 4
      let gran := fld (sRead c .c b) 0 2
      fld (sRead c .c a) 4 60 = 0 → partMask mask = true → fld (sRead c .c b) 2 62 = 0 → gran ≠ 3 →
      let here := s.cur.core / 64
      let refused (why q : Nat) := exec (.pbound n g a b) s =
        .next (retired s { c with ctl := { c.ctl with pbres := BitVec.ofNat 64 (q * 256 + why * 16 + 2) } } .c 4)
      let waitsFor (q : Nat) : Prop := ∃ i, i < 64 ∧ Placeable s q i
      (Affected s mask here → refused 3 here) ∧
      (¬Affected s mask here → ∀ q, FirstBad s mask (Occupied s) q → refused 1 q) ∧
      (¬Affected s mask here → (∀ q, Affected s mask q → ¬Occupied s q) → ∀ q, FirstBad s mask waitsFor q → refused 2 q) ∧
      (¬Affected s mask here → (∀ q, Affected s mask q → ¬Occupied s q ∧ ¬waitsFor q) →
        ∃ t, exec (.pbound n g a b) s = .next t ∧
          crewAt t s.cur.core s.cur.slot = some (retire { c with ctl := { c.ctl with pbres := 1 } } .c 4) ∧
          ∀ q, q < 4 → (Affected s mask q → fld (regGet t 0 (rMEMIL q)) 0 4 = (if mask.testBit q then mask else 2 ^ q) ∧
              fld (regGet t 0 (rMEMIL q)) 4 2 = if mask.testBit q then gran else fld (regGet s 0 (rMEMIL q)) 4 2) ∧
            (¬Affected s mask q → regGet t 0 (rMEMIL q) = regGet s 0 (rMEMIL q))))

/-- R253 to R257: TLBSHOOT removes every combined entry that its operands name, of whatever object (R341), and no other
tenant's, once the crew's earlier writes are performed; with a second-stage change it removes all of the tenant's, since any
walk reads its tables through that stage (log entry 98); DBG stops the crew past it when DBGCTL.EN is set and only retires
otherwise; SUSPEND, when every other crew has left, saves its own crew past the instruction, and before that begins the
suspend and waits. -/
def Obligations.ShootDownsDebugSuspend : Prop :=  ∀ (s : State) (c : Crew) (n : BitVec 1) (g : BitVec 4), RunsPrivileged s c n g →
    (∀ a b (sub : BitVec 2) s1, let x := sRead c .c a
      let y := sRead c .c b
      sub ≠ 3 → fld y 32 31 = 0 → fld x 48 16 = 0 → (y.getLsbD 63 = true → x = 0) →
      releaseReady s s.cur.core s.cur.slot c = some s1 →
      ∃ t, exec (.tlbshoot n g a b sub) s = .next t ∧ t.mem = s1.mem ∧
        (∀ e ∈ t.xlat.tlb, e ∈ s1.xlat.tlb) ∧ (∀ e ∈ s1.xlat.tlb, e.tenant ≠ fld y 0 8 → e ∈ t.xlat.tlb) ∧
        (∀ e ∈ t.xlat.tlb, e.tenant = fld y 0 8 → y.getLsbD 63 = false ∧ sub = 0 ∧ e.va / 2 ^ 21 ≠ fld x 0 48 / 2 ^ 21) ∧
        (∀ p ∈ t.xlat.pins, p ∈ s1.xlat.pins) ∧ (∀ p ∈ s1.xlat.pins, p.tenant ≠ fld y 0 8 → p ∈ t.xlat.pins) ∧
        (y.getLsbD 63 = true → ∀ p ∈ t.xlat.pins, p.tenant ≠ fld y 0 8)) ∧
    (∀ i : BitVec 12, (c.ctl.dbgctl.getLsbD 0 = false → exec (.dbg n g i) s = .next (retired s c .c 4)) ∧
      (c.ctl.dbgctl.getLsbD 0 = true → ∃ c', exec (.dbg n g i) s = .next (withCrew s c') ∧ pcOf c' .c = pcOf c .c + 4 ∧
        c'.ctl.dbgstat.getLsbD 1 = true ∧ fld c'.ctl.dbgstat 20 12 = i.toNat)) ∧
    (∀ a, fld (sRead c .c a) 16 48 = 0 →
      (s.power = .run → ∃ t, exec (.suspend n g a) s = .next t ∧ t.power = .suspending 0 (some (s.cur.core, s.cur.slot)) ∧
        t.mem = s.mem ∧ ∃ c', crewAt t s.cur.core s.cur.slot = some c' ∧ pcOf c' .c = pcOf c .c) ∧
      (∀ ph, s.power = .suspending ph (some (s.cur.core, s.cur.slot)) →
        s.crews.all (fun p => decide (p.1 = 2 * s.cur.core + s.cur.slot)) = true →
        saveReady s s.cur.core s.cur.slot c = true →
        exec (.suspend n g a) s = .next (saveCrew (retired s c .c 4) s.cur.core s.cur.slot 5 0 none)))

/-- R119, R122 and R123: the fields of a capability image; the derivations and where they fault; KMOV and KTEST. A
derivation into k0 checks and discards. The address of a derivation's fault is the model's choice (log entry 89). -/
def Obligations.CapabilityResults : Prop :=  (∀ sp r o ge l x, sp < 8 → r < 256 → o < 2 ^ 24 → ge < 2 ^ 11 → l < 2 ^ 41 → x < 2 ^ 41 → let k := mkCap sp r o ge l x
    capSpace k = sp ∧ capRights k = r ∧ capObj k = o ∧ capGen k = ge ∧ capLimit k = l ∧ capCursor k = x) ∧
  ∀ (s : State) (c : Crew) (n : BitVec 1) (g : BitVec 4) (d a b : BitVec 5), Runs s .a c → Enabled c .a n g →
    let k := kRead c a
    let x := (sRead c .a b).toNat
    let gives (i : Instr) (k' : Cap) : Prop := exec i s = .next (retired s (kWrite c d k') .a 4)
    (capSpace k = 0 → exec (.kset n g d a b) s = .next (faultsAt s c .a 0x05 0) ∧
      exec (.koff n g d a b) s = .next (faultsAt s c .a 0x05 0) ∧ exec (.klim n g d a b) s = .next (faultsAt s c .a 0x05 0) ∧
      exec (.krights n g d a b) s = .next (faultsAt s c .a 0x05 0) ∧
      exec (.ktest n g d a b) s = .next (retired s (sWrite c .a d 2) .a 4)) ∧
    (capSpace k ≠ 0 →
      (capCursor k ≤ x → x ≤ capLimit k →
        gives (.kset n g d a b) (mkCap (capSpace k) (capRights k) (capObj k) (capGen k) (capLimit k) x)) ∧
      (x < capCursor k ∨ capLimit k < x → exec (.kset n g d a b) s = .next (faultsAt s c .a 0x03 x)) ∧
      (capCursor k + x ≤ capLimit k →
        gives (.koff n g d a b) (mkCap (capSpace k) (capRights k) (capObj k) (capGen k) (capLimit k) (capCursor k + x)) ∧
        gives (.klim n g d a b) (mkCap (capSpace k) (capRights k) (capObj k) (capGen k) (capCursor k + x) (capCursor k))) ∧
      (capLimit k < capCursor k + x → exec (.koff n g d a b) s = .next (faultsAt s c .a 0x03 x) ∧
        exec (.klim n g d a b) s = .next (faultsAt s c .a 0x03 x)) ∧
      gives (.krights n g d a b) (mkCap (capSpace k) (capRights k &&& (x % 256)) (capObj k) (capGen k) (capLimit k) (capCursor k)) ∧
      (let missing := x % 256 &&& capRights k ≠ x % 256
       let beyond := capLimit k < capCursor k + x / 256 % 2 ^ 42
       exec (.ktest n g d a b) s = .next (retired s (sWrite c .a d (BitVec.ofNat 64
        (min (capLimit k - capCursor k) 0xFFFFFF * 2 ^ 40 + capObj k * 2 ^ 16 + capRights k * 2 ^ 8 + capSpace k * 2 ^ 5 +
          8 * flag (decide missing) + 4 * flag (decide beyond) + flag (decide (¬missing ∧ ¬beyond))))) .a 4))) ∧
    gives (.kmov n g d a) k

/-- R121: derivation never widens a capability. Where the crew goes on in its mode, every register but kd is unchanged, and
kd either keeps its value or holds a capability within that of ka. -/
def Obligations.CapabilitiesOnlyShrink : Prop :=  ∀ (s t : State) (c c' : Crew) (i : Instr) (n : BitVec 1) (g : BitVec 4) (d a : BitVec 5), Derivation i n g d a →
    Runs s .a c → exec i s = .next t → crewAt t s.cur.core s.cur.slot = some c' → c'.trap.inHandler = c.trap.inHandler →
    t.mem = s.mem ∧ (∀ r, r ≠ d → kRead c' r = kRead c r) ∧ (kRead c' d = kRead c d ∨ kRead c' d = 0 ∨ Within (kRead c a) (kRead c' d))

/-- R128, R407 and R286: the checks of every access of A in their order, each with its cause, at the unit reached, before
any effect; for a queue transfer they follow the checks of the queue. A scope that may not be narrowed is 0x1A, and an
access waits that orders while a remote store of the crew is unacknowledged, or that is not loose while an LDQ of a strong
page is on its way. -/
def Obligations.AccessesAreChecked : Prop :=  ∀ (s : State) (c : Crew) (i : Instr) (f : AccessForm), Accesses c i f → Runs s .a c → Enabled c .a f.inv f.grd →
    (∀ n g q k b z, i = .ldq n g q k b z → peerActive c .a q.toNat = true ∧ (queueOf c q.toNat).length < qDepth q.toNat) →
    (∀ n g q k b, i = .stq n g q k b → peerActive c .a q.toNat = true) → underWay s c = none →
    (capSpace f.cap = 0 → exec i s = .next (faultsAt s c .a 0x05 f.off)) ∧
    (capSpace f.cap ≠ 0 → hasRights (capRights f.cap) f.kind.rights = false → exec i s = .next (faultsAt s c .a 0x04 f.off)) ∧
    (capSpace f.cap ≠ 0 → hasRights (capRights f.cap) f.kind.rights = true →
      (f.off < capCursor f.cap ∨ capLimit f.cap < f.off + f.size → exec i s = .next (faultsAt s c .a 0x03 f.off)) ∧
      (capCursor f.cap ≤ f.off → f.off + f.size ≤ capLimit f.cap →
        (capSpace f.cap = 1 → 64 * (c.ra + c.rb) < f.off + f.size → exec i s = .next (faultsAt s c .a 0x03 f.off)) ∧
        (capSpace f.cap = 3 → commonsBytes s (dieOf s.cur.core) < f.off + f.size →
          exec i s = .next (faultsAt s c .a 0x03 f.off)) ∧
        (capSpace f.cap ≠ 1 → capSpace f.cap ≠ 3 → ∀ s1 x,
          portAccess s (dieOf s.cur.core) c.tenant (capSpace f.cap) (capObj f.cap) (some (capGen f.cap)) f.off f.kind =
            (s1, .error x) → x.cause ≠ 0x06 →
          exec i s = .next (faultsAt (translationRecord s1 c.tenant (capObj f.cap) f.off x) c .a x.cause f.off)))) ∧
    (∀ s1 a, Reaches s c f s1 a → narrowed s c f a = true → fnDemTrap s (fnOf s c.tenant) = true →
      exec i s = .next (faultsAt s1 c .a 0x1A f.off)) ∧
    ∀ s1 a, Admitted s c i f s1 a → (f.orders a = true ∧ unacked s s.cur.core s.cur.slot = true ∨
        a.loose = false ∧ strongPending s s.cur.core s.cur.slot = true) → exec i s = .next (waiting s1 c .a (orderClass i))

/-- R130, R124 and the frame of loads: LD in its four forms and KLD write the unit read, extended or validated, to their
register and nothing else; memory is untouched. Poisoned data raises 0x18 instead, and a KLD whose value names a table
behind an absent page is held (R339). -/
def Obligations.LoadsReadMemory : Prop :=  ∀ (s s1 : State) (c : Crew) (i : Instr) (f : AccessForm) (a : Acc) (upd : Crew → Nat → Crew),
    Performs s c i f s1 a → Loads s1 c i upd → let v : Cap := BitVec.ofNat 128 (unitAt s f a)
    let backed := capBacked s1 (64 * (c.ra + c.rb)) (dieOf s.cur.core) c.tenant v
    TranslationOnly s s1 ∧
    (isPoisoned s a.key = false → ((∃ n g d k b, i = .kld n g d k b) → ∃ ok, backed = .ok ok) → exec i s = .next (retired s1 (upd (demotedIf s c f a) (unitAt s f a)) .a 4)) ∧
    (isPoisoned s a.key = false → (∃ n g d k b, i = .kld n g d k b) → ∀ x, backed = .error x → x.cause = 0x06 →
      exec i s = .next (holdStream s1 s.cur.core s.cur.slot c .a x .load (capObj v) f.off)) ∧
    (isPoisoned s a.key = true → exec i s = .next (faultsAt s1 c .a 0x18 f.off))

/-- R131, R125 and R325, with their frame: ST in its four forms and KST write exactly the bytes of their unit, wake the
waiters of the row where they signal, and change nothing else of the package but their crew's PC, the demotion flag, the
poison of the unit, and what a launch whose completion object they raise to its target makes of it. -/
def Obligations.StoresWriteTheirBytes : Prop :=  ∀ (s s1 : State) (c : Crew) (i : Instr) (f : AccessForm) (a : Acc) (x : Nat) (sig : Bool),
    Performs s c i f s1 a → StoresValue c i x sig →
    TranslationOnly s s1 ∧
    ∃ w d t, Writes s s1 w d a.key f.size x ∧ exec i s = .next t ∧
      crewAt t s.cur.core s.cur.slot = some (retire (demotedIf s c f a) .a 4) ∧
      (sig = true → Signalled d t a.key) ∧
      (sig = false → t = withCrew d (retire (demotedIf s c f a) .a 4))

/-- R133, R134 and R135: LDQ appends the unit or row it reads, or an entry that bears a failure where the data is poisoned;
STQ writes the oldest row and only then removes it. A full or empty queue waits, and nothing is read or written. -/
def Obligations.QueueMemoryTransfers : Prop :=  ∀ (s s1 : State) (c : Crew) (n : BitVec 1) (g q : BitVec 4) (k b : BitVec 5) (z : BitVec 2) (f : AccessForm) (a : Acc),
    peerActive c .a q.toNat = true →
    (Performs s c (.ldq n g q k b z) f s1 a → (queueOf c q.toNat).length < qDepth q.toNat →
      exec (.ldq n g q k b z) s = .next (retired s1 (setQueue (demotedIf s c f a) q.toNat (queueOf c q.toNat ++
        [⟨if isPoisoned s a.key then 0 else BitVec.ofNat 512 (unitAt s f a), if isPoisoned s a.key then 0x18 else 0, false,
          pcOf c .a, f.off⟩])) .a 4)) ∧
    (Runs s .a c → Enabled c .a n g → qDepth q.toNat ≤ (queueOf c q.toNat).length →
      exec (.ldq n g q k b z) s = .next (waiting s c .a 2)) ∧
    (Performs s c (.stq n g q k b) f s1 a →
      (queueOf c q.toNat = [] → exec (.stq n g q k b) s = .next (waiting s1 c .a 1)) ∧
      ∀ e rest, queueOf c q.toNat = e :: rest → e.pending = false → e.fail = 0 →
        ∃ w d, Writes s s1 w d a.key 64 e.data.toNat ∧
          exec (.stq n g q k b) s = .next (withCrew d (retire (popped (demotedIf s c f a) q.toNat rest) .a 4)))

/-- R138 and R139, for words that no key orders: ATOM writes the new word of its operation and returns the old one; RED with
the signal bit, to a strong page, or a floating add in deterministic mode, writes it and returns nothing; any other RED
rests in the combining buffer and writes no memory yet (the model's choice among what R139 allows, log entry 16). With the
signal bit the row's waiters wake. -/
def Obligations.AtomicsAndReductions : Prop :=  ∀ (s s1 : State) (c : Crew) (n : BitVec 1) (g : BitVec 4) (d k o : BitVec 5) (z sub : BitVec 1) (f : AccessForm) (a : Acc)
    (new : Nat), let x := (sRead c .a d).toNat % 2 ^ (8 * wordSize z)
    let y := (sRead c .a (d + 1)).toNat % 2 ^ (8 * wordSize z)
    isPoisoned s a.key = false → ¬(o = 1 ∧ isDet c = true ∧ (a.tgt = 0 ∨ a.tgt = 1 ∨ a.tgt = 9)) →
    AtomOp (wordSize z) (unitAt s f a) x y o new →
    (Performs s c (.atom n g d k o z sub) f s1 a →
      let done := retire (sWrite (demotedIf s c f a) .a d (BitVec.ofNat 64 (unitAt s f a))) .a 4
      ∃ w e t, Writes s s1 w e a.key (wordSize z) new ∧ exec (.atom n g d k o z sub) s = .next t ∧
        crewAt t s.cur.core s.cur.slot = some done ∧ (sub = 1 → Signalled e t a.key) ∧ (sub = 0 → t = withCrew e done)) ∧
    (Performs s c (.red n g d k o z sub) f s1 a → o ≠ 12 →
      (sub = 1 ∨ (o = 1 ∧ isDet c = true) ∨ strong a = true →
        ∃ w e t, Writes s s1 w e a.key (wordSize z) new ∧ exec (.red n g d k o z sub) s = .next t ∧
          crewAt t s.cur.core s.cur.slot = some (retire (demotedIf s c f a) .a 4) ∧ (sub = 1 → Signalled e t a.key) ∧
          (sub = 0 → t = withCrew e (retire (demotedIf s c f a) .a 4))) ∧
      (sub = 0 → ¬(o = 1 ∧ isDet c = true) → strong a = false → exec (.red n g d k o z sub) s = .next
        (retired { s1 with resting := [⟨s.cur.core, [(c.launch, c.rank)], false, a.key, wordSize z, o.toNat, BitVec.ofNat 64 x⟩] } c .a 4)))

/-- R143, R151 and R103: WAITSIG and CWAIT retire with the word once it differs, or has reached the count; until then the
stream keeps its place in class 9, registered in the monitor table, or polling where that table is full. R144 and R152:
FENCE retires once nothing that it covers is outstanding, and waits in class 6 until then: an acquire fence covers the LDQs
whose data is on its way, the others every remote access; a system-scope fence in a tenant-scope function is demoted or
trapped. KEEP and UNKEEP check their range, retire, and change no data: KEEP only adds pins of the tenant, UNKEEP only
removes them. -/
def Obligations.WaitsFencesKeeping : Prop :=
  (∀ (s s1 : State) (c : Crew) (i : Instr) (f : AccessForm) (a : Acc) (d : BitVec 5) (ready : Nat → Prop),
       Performs s c i f s1 a → WaitsFor c i d ready → isPoisoned s a.key = false →
       (ready (unitAt s f a) → exec i s = .next (retired s1 (sWrite (demotedIf s c f a) .a d (BitVec.ofNat 64 (unitAt s f a))) .a 4)) ∧
       (¬ready (unitAt s f a) → ∃ t c', exec i s = .next t ∧ t.mem = s.mem ∧ crewAt t s.cur.core s.cur.slot = some c' ∧
         pcOf c' .a = pcOf c .a ∧ (∀ r, sRead c' .a r = sRead c .a r) ∧
         (monitorsOf s a < 64 → statusOf c' .a = .sleeping ∧
           t.monitors = s.monitors ++ [⟨monitorUnit s a, a.key / 64, s.cur.core, s.cur.slot, none⟩]) ∧
         (64 ≤ monitorsOf s a → statusOf c' .a = .polling ∧ t.monitors = s.monitors))) ∧
  (∀ (s : State) (c : Crew) (n : BitVec 1) (g : BitVec 4), Runs s .a c → Enabled c .a n g → Quiet s →
       (∀ (k : BitVec 2) (sub : BitVec 3), let narrow := sub = 5 ∧ fnTScope s (fnOf s c.tenant) = true
         (narrow → fnDemTrap s (fnOf s c.tenant) = true → exec (.fence n g k sub) s = .next (faultsAt s c .a 0x1A 0)) ∧
         (¬(narrow ∧ fnDemTrap s (fnOf s c.tenant) = true) →
           (k = 1 ∧ ldqPending s s.cur.core s.cur.slot = false ∨ k ≠ 1 ∧ unacked s s.cur.core s.cur.slot = false → exec (.fence n g k sub) s =
             .next (retired s (if sub = 5 ∧ fnTScope s (fnOf s c.tenant) = true then { c with demote := true } else c) .a 4)) ∧
           (k = 1 ∧ ldqPending s s.cur.core s.cur.slot = true ∨ k ≠ 1 ∧ unacked s s.cur.core s.cur.slot = true →
             exec (.fence n g k sub) s = .next (waiting s c .a 6)))) ∧
       ∀ r k b, let cap := kRead c k
         let off := atOffset c k b 1
         let len := (sRead c .a r).toNat
         (∀ cause, capCheck cap rightKP off len = some cause →
           exec (.keep n g r k b) s = .next (faultsAt s c .a cause off) ∧ exec (.unkeep n g r k b) s = .next (faultsAt s c .a cause off)) ∧
         (capCheck cap rightKP off len = none → boundsCheck s s.cur.core c (capSpace cap) off len = none →
           (∃ t, exec (.keep n g r k b) s = .next t ∧ t.mem = s.mem ∧ crewAt t s.cur.core s.cur.slot = some (retire c .a 4) ∧
             (∀ p ∈ s.xlat.pins, p ∈ t.xlat.pins) ∧ ∀ p ∈ t.xlat.pins, p ∈ s.xlat.pins ∨ p.tenant = c.tenant) ∧
           (∃ t, exec (.unkeep n g r k b) s = .next t ∧ t.mem = s.mem ∧ crewAt t s.cur.core s.cur.slot = some (retire c .a 4) ∧
             (∀ p ∈ t.xlat.pins, p ∈ s.xlat.pins) ∧ ∀ p ∈ s.xlat.pins, p ∈ t.xlat.pins ∨ p.tenant = c.tenant)))

/-- R145 and R146: the ring instructions on a header that is well formed: value returned, counters and CBITS afterwards,
every other byte of the header and of memory unchanged; where they wait, and where they raise queue misuse. That a waiting
ring instruction shows class 9 is the model's choice (log entry 65). R147: the three barrier instructions. -/
def Obligations.RingsAndBarriers : Prop :=
  (∀ (s s1 : State) (c : Crew) (i : Instr) (f : AccessForm) (a : Acc) (b : BitVec 5), RingOperand i b →
       Performs s c i f s1 a → isPoisoned s a.key = false → let h := rowAt s a
       let x := (sRead c .a b).toNat % 2 ^ 32
       (ringOk h = false → exec i s = .next (faultsAt s1 c .a 0x0B f.off)) ∧
       (ringOk h = true →
         (∀ e, RingDoes h x i e → ∃ w t h', headerAfter h e h' ∧ Writes s s1 w t a.key 64 h'.toNat ∧
           exec i s = .next (retired (if ringReads i then s1 else t) (match e.value with
             | some (d, v) => sWrite c .a d (BitVec.ofNat 64 v) | none => c) .a 4)) ∧
         (RingWaits h x i → exec i s = .next (waiting s1 c .a 9)) ∧
         (RingMisuse h x i → exec i s = .next (faultsAt s1 c .a 0x0B f.off)))) ∧
  (∀ (s s1 : State) (c : Crew) (n : BitVec 1) (g : BitVec 4) (k b : BitVec 5) (f : AccessForm) (a : Acc),
       isPoisoned s a.key = false → let x := (sRead c .a b).toNat
       (Performs s c (.barinit n g k b) f s1 a →
         (x ≠ 0 → x < 2 ^ 24 → ∃ w t, Writes s s1 w t a.key 8 (barWord 0 0 x x) ∧
           exec (.barinit n g k b) s = .next (retired t c .a 4)) ∧
         (x % 2 ^ 24 = 0 ∨ 2 ^ 24 ≤ x → exec (.barinit n g k b) s = .next (faultsAt s1 c .a 0x0B f.off))) ∧
       (Performs s c (.bararrive n g k b) f s1 a →
         (x < 2 ^ 24 → ∃ w t, Writes s s1 w t a.key 8 (arrived' (unitAt s f a) x) ∧
           exec (.bararrive n g k b) s = .next (retired t c .a 4)) ∧
         (2 ^ 24 ≤ x → exec (.bararrive n g k b) s = .next (faultsAt s1 c .a 0x0B f.off))) ∧
       (Performs s c (.barwait n g k b) f s1 a →
         (barPhase (unitAt s f a) ≠ x % 2 ^ 15 → exec (.barwait n g k b) s = .next (retired s1 c .a 4)) ∧
         (barPhase (unitAt s f a) = x % 2 ^ 15 → exec (.barwait n g k b) s = .next (waiting s1 c .a 9))))

/-- R148 to R150: COPY, COPYMC, GATHER and SCATTER. Where the descriptor is legal and the checks at issue pass, the
operation is recorded with its capabilities as they are now, its counter rises and A retires at once; no byte has moved. At
the limits, and for remote rows at the limit of outstanding requests (R381), A stalls in class 0xE. A nulled operation keeps
its place and moves nothing (R66). An illegal descriptor is 0x01. Within the crew's own partition the conditions are on the
descriptor, the capabilities and the limits alone. R136: LDV. Where every row passes its checks in order, the operation is
recorded and A retires; a register beyond v767 or beyond the footprint is 0x02, a reserved bit of the descriptor 0x01, a row
below offset 0 is 0x03, and a nulled LDV keeps its place. Within the crew's own partition, outside deterministic mode, the
conditions are on the operands alone. -/
def Obligations.CopiesAndLoadsFork : Prop :=
  (∀ (s : State) (c : Crew) (i : Instr) (kind : Nat) (n : BitVec 1) (g : BitVec 4) (d a r : BitVec 5), Copies i kind n g d a r →
       Runs s .a c → let w := sRead c .a r
       let k := fld w 16 3
       let o := copyOp s c kind d a r
       (Enabled c .a n g → OwnCopy c kind w (sRead c .a (r + 1)) (kRead c d) (kRead c a) → MayFork s c k →
         exec i s = .next (retired s (forked c o k) .a 4)) ∧
       (Disabled c .a n g → (MayFork s c k → exec i s = .next (retired s (forked c (nulled s c kind d a r) k) .a 4)) ∧
         (¬MayFork s c k → exec i s = .next (waiting s c .a 0xE))) ∧
       (Enabled c .a n g →
         (fld w 41 23 ≠ 0 ∨ (w.getLsbD 40 = true ∧ (kind = 3 ∨ kind = 5)) ∨ (kind = 3 ∧ fld o.aux 32 32 ≠ 0) ∨
             ((kind = 4 ∨ kind = 5) ∧ fld o.aux 15 49 ≠ 0) → exec i s = .next (faultsAt s c .a 0x01 0)) ∧
         (copyIllegal kind w o.aux = false →
           (∀ x, copyChecks s c o = some x → exec i s = .next (faultsAt s c .a x (aligned 64 (capCursor o.dst)))) ∧
           ∀ s1, copyChecks s c o = none → targetChecks s c o = (s1, none) → TranslationOnly s s1 ∧
             (MayFork s c k ∧ MaySend s (copyFar s1 c o = true) → exec i s = .next (retired s1 (forked c o k) .a 4)) ∧
             (¬(MayFork s c k ∧ MaySend s (copyFar s1 c o = true)) → exec i s = .next (waiting s1 c .a 0xE))))) ∧
  (∀ (s : State) (c : Crew) (n : BitVec 1) (g : BitVec 4) (r k b : BitVec 5), Runs s .a c → let w := sRead c .a r
       let rows := if fld w 10 6 = 0 then 64 else fld w 10 6
       let o := fresh s c 1 w (BitVec.ofNat 64 (atOffset c k b 64)) (kRead c k) 0 0 false
       (Disabled c .a n g → MayFork s c (fld w 16 3) →
         exec (.ldv n g r k b) s = .next (retired s (forked c { o with nulled := true, signalled := true } (fld w 16 3)) .a 4)) ∧
       (Enabled c .a n g →
         (fld w 36 28 ≠ 0 ∨ w.getLsbD 19 = true → exec (.ldv n g r k b) s = .next (faultsAt s c .a 0x01 0)) ∧
         (fld w 36 28 = 0 → w.getLsbD 19 = false →
           (768 < fld w 0 10 + rows ∨ c.nv < fld w 0 10 + rows → exec (.ldv n g r k b) s = .next (faultsAt s c .a 0x02 0)) ∧
           (fld w 0 10 + rows ≤ 768 → fld w 0 10 + rows ≤ c.nv → atOffset c k b 64 < 2 ^ 64 → underWay s c = none →
             strongPending s s.cur.core s.cur.slot = false →
             (isDet c = false → capSpace (kRead c k) = 1 → hasRights (capRights (kRead c k)) rightR = true →
               (∀ j, j < rows → (capCursor (kRead c k) : Int) ≤ ldvAt c r k b j ∧
                 ldvAt c r k b j + 64 ≤ (capLimit (kRead c k) : Int) ∧ ldvAt c r k b j + 64 ≤ 64 * ((c.ra : Int) + c.rb)) →
               MayFork s c (fld w 16 3) → exec (.ldv n g r k b) s = .next (retired s (forked c o (fld w 16 3)) .a 4)) ∧
             ∀ (m : Nat) (st : Nat → State) (pl : Nat → Acc), st 0 = s → m ≤ rows →
             (∀ j, j < m → 0 ≤ ldvAt c r k b j ∧
               access (st j) (st j).cur.core (st j).cur.slot c (kRead c k) kLdv (ldvAt c r k b j).toNat 64 = (st (j + 1), .ok (pl j)) ∧
               ((pl j).tgt = 8 → phaseOk (st (j + 1)) c .a true false (keyRow c (pl j).key) = true) ∧
               strong (pl j) = false) → TranslationOnly s (st m) ∧
             (m = rows → MayFork s c (fld w 16 3) → MaySend s (∃ j, j < rows ∧ (pl j).remote = true) →
               exec (.ldv n g r k b) s = .next (retired (st m) (forked c o (fld w 16 3)) .a 4)) ∧
             (m < rows → ldvAt c r k b m < 0 → exec (.ldv n g r k b) s = .next (faultsAt (st m) c .a 0x03 0))))))

/-- R2, R69 and R154: rows are made and read by element; an active element of a merged row is the new one, any other keeps
its bits, at every element width. -/
def Obligations.RowsByElement : Prop :=  ∀ w, w = 4 ∨ w = 8 ∨ w = 16 ∨ w = 32 ∨ w = 64 → ∀ k, k < 512 / w →
    (∀ f, rowElem (rowOf w (512 / w) f) w k = f k % 2 ^ w) ∧
    (∀ act new old, rowElem (mergeRow w act new old) w k = if act k then new k % 2 ^ w else rowElem old w k) ∧
    ∀ r r' : Row, (∀ j, j < 512 / w → rowElem r w j = rowElem r' w j) → r = r'

/-- R154, R155, R159 to R161 and R169: the lane-wise instructions of V. Every repeat reads its sources in their modes,
computes its active lanes, raises their flags and writes its destination; after the last the instruction retires, and
nothing but the vector side of the crew has changed. -/
def Obligations.VectorLanes : Prop :=  ∀ (s : State) (c c2 : Crew) (i : Instr) (w : VWord), VReady s c i →
    Repeats s i w LaneBody (FieldCheck.repOf w - c.vctx.vrep) (started c w) c2 →
    FieldCheck.vspecOf i ≠ none → (∀ sp, FieldCheck.vspecOf i = some sp → sp.1 = w) → c.vctx.vrep < FieldCheck.repOf w →
    exec i s = .next (retired s (finished c2) .v 12) ∧ OnlyVector c c2

/-- R162 to R168: compares, classes and the instructions that move elements, in the same form. R50 and R170 to R175:
conversions, packing, reductions over the pairwise tree and mask logic, in the same form. -/
def Obligations.VectorMovesAndReductions : Prop :=
  (∀ (s : State) (c c2 : Crew) (i : Instr) (w : VWord), VReady s c i →
       Repeats s i w MoveBody (FieldCheck.repOf w - c.vctx.vrep) (started c w) c2 →
       FieldCheck.vspecOf i ≠ none → (∀ sp, FieldCheck.vspecOf i = some sp → sp.1 = w) → c.vctx.vrep < FieldCheck.repOf w →
       exec i s = .next (retired s (finished c2) .v 12) ∧ OnlyVector c c2) ∧
  (∀ (s : State) (c c2 : Crew) (i : Instr) (w : VWord), VReady s c i →
       Repeats s i w ConvertBody (FieldCheck.repOf w - c.vctx.vrep) (started c w) c2 →
       FieldCheck.vspecOf i ≠ none → (∀ sp, FieldCheck.vspecOf i = some sp → sp.1 = w) → c.vctx.vrep < FieldCheck.repOf w →
       exec i s = .next (retired s (finished c2) .v 12) ∧ OnlyVector c c2)

/-- R155, R103 and R421: where a repeat stops. A row source that is empty waits in class 1, and a register that a load has
still to fill in class 7, each keeping the repeats before it; a poisoned register that the repeat reads is 0x18; a queue
whose other end is no active stream is queue misuse. -/
def Obligations.VectorRepeatsStop : Prop :=  ∀ (s : State) (c c2 : Crew) (i : Instr) (w : VWord) (k : Nat), Runs s .v c → (∃ sp, FieldCheck.vspecOf i = some (w, sp)) →
    c.vctx.vrep + k < FieldCheck.repOf w →
    (∀ q rest, vQueues i = q :: rest → peerActive c .v q = false → exec i s = .next (faultsAt s c .v 0x0B q)) ∧
    ((∀ q ∈ vQueues i, peerActive c .v q = true) →
      vWaitsForLdv s s.cur.core (started c w) (vRegsAt i c.vctx.vrep) = false →
      isReversible i = false →
      (∃ r ∈ vReads i c.vctx.vrep, unitPoisoned s s.cur.core s.cur.slot 0 r = true) →
      exec i s = .next (faultsAt s (started c w) .v 0x18 0)) ∧
    (VReady s c i → Repeats s i w LaneBody k (started c w) c2 → vWaitsForLdv s s.cur.core c2 (vRegsAt i c2.vctx.vrep) = true →
      exec i s = .next (waiting s c2 .v 7)) ∧
    (VReady s c i → (∃ f, Lane1 w i f) → Repeats s i w LaneBody k (started c w) c2 →
      vWaitsForLdv s s.cur.core c2 (vRegsAt i c2.vctx.vrep) = false →
      FieldCheck.dMode w.d1 = 1 → queueOf c2 (FieldCheck.dBase w.d1 % 16) = [] → exec i s = .next (waiting s c2 .v 1))

/-- R59, R224, R227 to R233: the reversible class. Every repeat with room on the stack, or with the rows and tags that its
undo calls for, does what its form says; after the last the instruction retires, and nothing but vector registers, FSTAT and
the stack has changed. A repeat of an undo that reads what the matching forward repeat left finds its rows, restores the
operand bit for bit, and leaves the stack as it was. An undo or an RDROP on an empty stack is remainder underflow; a forward
repeat for which the window has no room waits for the spill engine, or is remainder overflow where no space can ever hold
it, whatever its operands hold; poison that a forward repeat reads, or that an undo pops, is 0x18. -/
def Obligations.ReversibleRepeats : Prop :=  (∀ (s : State) (c c2 : Crew) (i : Instr) (w : VWord), c.vctx.vrep < FieldCheck.repOf w →
    (VReady s c i → Repeats s i w (RevBody s) (FieldCheck.repOf w - c.vctx.vrep) (started c w) c2 →
      exec i s = .next (retired s (finished c2) .v 12) ∧ OnlyVectorAndStack c c2) ∧
    (Runs s .v c → (∀ q ∈ vQueues i, peerActive c .v q = true) → isReversible i = true → FieldCheck.vspecOf i ≠ none →
      (∀ sp, FieldCheck.vspecOf i = some sp → sp.1 = w) → vWaitsForLdv s s.cur.core (started c w) (vRegsAt i c.vctx.vrep) = false →
      vWaitsForMrdrain s s.cur.core (started c w) = false →
      ((∃ o, Undo w i o) ∨ i = .rdrop w → c.rem.rdepth = 0 → exec i s = .next (faultsAt s (started c w) .v 0x0D 0)) ∧
      (∀ o, Undo w i o → let v := envOf (started c w) w
        ∀ need esc, undoCheck c o v.ty (min v.n (o.lanes v)) = .ok (need, esc) →
          (∃ k, k < (if esc then 1 else need) ∧ unitPoisoned s s.cur.core s.cur.slot 3 (c.rem.rdepth - 1 - k) = true) →
          exec i s = .next (faultsAt s (started c w) .v 0x18 0)) ∧
      ∀ o, Forward w i o → let k := if o = .fma then 3 else 2
        let free := windowRows - inWindowRows c
        let spill := spillCap s c - c.rem.rspill
        (free + spill < k → exec i s = .next (faultsAt s (started c w) .v 0x0E 0)) ∧
        (free < k → k ≤ free + spill → exec i s = .next (waiting s (started c w) .v 0xD)) ∧
        (k ≤ free → (∃ d ∈ revSources w o, unitPoisoned s s.cur.core s.cur.slot 0 (dRegNo d c.vctx.vrep) = true) →
          exec i s = .next (faultsAt s (started c w) .v 0x18 0)))) ∧
  ∀ (s t : State) (v u : VEnv) (i j : Instr) (o : RevOp) (c c1 d : Crew), Forward v.w i o → Undo u.w j o → RevTypes v o →
    RevBody s v i c c1 → c.rem.rspill ≤ c.rem.rdepth → Matches v u o c c1 d →
    (∃ r, undoCheck d o u.ty (min u.n (o.lanes u)) = .ok r) ∧
    ∀ e, RevBody t u j d e → e.rem.rdepth = c.rem.rdepth ∧
      ∀ k, k < o.lanes v → v.act (o.lanes v) k = true →
        rowElem (vRead e (dRegNo u.w.d0 u.j)) (o.slotW v) k = revX c v o k

/-- R179 to R195: the commands of M. One that may issue latches its format word and raises its counter; every boundary does
what R185 to R190 say; after the last, the flags are set, the counter falls and the command retires. An empty q9 waits, or
is format underflow once C has passed the command; an invalid word is consumed and is 0x01; a check that fails leaves the
word; at the counter's limit the command waits. A turn may serve only so many boundaries: then the command stands between
two of them, where a save may find it (R194). -/
def Obligations.MatrixCommands : Prop :=  ∀ (s : State) (c : Crew) (i : Instr) (k : MKind) (w : MWord), MatrixForm w i k → Runs s .m c →
    (∀ fw c1 t d n, s.host.poison = [] → MRuns k w fw n s c1 t d →
      (c.mctx.fw = some fw ∧ c1 = c) ∨
        (c.mctx.fw = none ∧ (k = .rdrain → mrdrainWaitsForV s s.cur.core c = false) ∧ ∃ e rest g sc, HasData c 9 e rest ∧
          fw = e.data.setWidth 64 ∧ fwValid k w c fw = true ∧ mChecks s s.cur.core c k w fw = .ok (g, sc) ∧
          dRead c .m (fwDc fw) < 1023 ∧ c1 = latched c k w rest fw g sc) →
      (n = mUnits k w fw - c1.mctx.mprog → (∀ m, s.part = some m → n ≤ m) →
        exec i s = .next (retired t (ranCommand d k w fw) .m 24)) ∧
      (n < mUnits k w fw - c1.mctx.mprog → s.part = some n → exec i s = .next (waiting t d .m 0))) ∧
    (c.mctx.fw = none → (k = .rdrain → mrdrainWaitsForV s s.cur.core c = false) →
      (queueOf c 9 = [] → (cPassed c = false → exec i s = .next (waiting s c .m 0xC)) ∧
        (cPassed c = true → exec i s = .next (faultsAt s c .m 0x0A 0))) ∧
      ∀ e rest, HasData c 9 e rest → let fw : Word := e.data.setWidth 64
        (fwValid k w c fw = false → exec i s = .next (faultsAt s (popped c 9 rest) .m 0x01 0)) ∧
        (fwValid k w c fw = true →
          (∀ x, mChecks s s.cur.core c k w fw = .error x → exec i s = .next (faultsAt s c .m x
            (if x = 0x0B then (if w.aq = true ∧ active c .a = false then 1 else 10) else 0))) ∧
          ∀ l, mChecks s s.cur.core c k w fw = .ok l → 1023 ≤ dRead c .m (fwDc fw) →
            exec i s = .next (waiting s c .m 0xE)))

/-- R198 to R203, R205 to R208, R212, R215 and R448: the instructions of S within one crew. One whose checks pass in the
order of R448 is issued and d0 rises; every step or channel does what its form says, or is skipped in its slot; after the
last the flags are set, d0 falls and the instruction retires. A check that fails, and a failed or misused q5 entry, commit
nothing; a row outside the phase sets is 0x0F at the step that accesses it (R247). A turn may serve only so many boundaries:
then the instruction stands between two of them, where a save may find it (R218). -/
def Obligations.ScanInstructions : Prop :=  ∀ (s : State) (c : Crew) (i : Instr) (k : SKind) (w : SWord), ScanForm w i k → Runs s .s c →
    (∀ c1 t d n, s.host.poison = [] → SReady s c k w c1 → SRuns k w n s c1 t d →
      (n = sUnits k c1 w - c1.sctx.sprog → (Divisible k → ∀ m, s.part = some m → n ≤ m) →
        exec i s = .next (retired t (ranScan d) .s 12)) ∧
      (n < sUnits k c1 w - c1.sctx.sprog → Divisible k → s.part = some n → exec i s = .next (waiting t d .s 0)) ∧
      (n < sUnits k c1 w - c1.sctx.sprog → s.part = none → ∀ c0, VectorRead t k w d c0 → unitPhaseOk t c0 k w = false →
        exec i s = .next (faultsAt t c0 .s 0x0F 0))) ∧
    (c.sctx.active = false →
      (w.qe = true → peerActive c .s w.q.toNat = false → exec i s = .next (faultsAt s c .s 0x0B w.q.toNat)) ∧
      ((w.qe = true → peerActive c .s w.q.toNat = true) →
        (w.xq = true → queueOf c 5 = [] → exec i s = .next (waiting s c .s 1)) ∧
        (∀ e rest, w.xq = true → HasData c 5 e rest → 2 ^ (if k = .read then 7 else 15) ≤ e.data.toNat % 2 ^ 64 →
          exec i s = .next (faultsAt s c .s 0x0B 5)) ∧
        ∀ x held c0, RowOperand c k w x held c0 →
          (∀ f, sChecks s s.cur.core c0 k w x = some f → exec i s = .next (faultsAt s c .s f 0)) ∧
          (sChecks s s.cur.core c0 k w x = none → 1023 ≤ dRead c .s 0 → exec i s = .next (waiting s c .s 0xE))))

/-- R199, R209, R213 to R216: SNET. Outside every scan group it is scan group mismatch; a group of one member lets it retire
at once. A member's first run contributes its aggregate and waits on the network; when the carry is kept for it, the tile
above its block takes the b part, channels that came poisoned with their poison (R421), and it retires; where the exchange
has failed it raises that cause. R214, R216, R217: CSEND and CRECV. In a member that does not act both retire with no
effect. The acting CRECV retires when the whole list has arrived, and raises 0x13 where packets held for it differ from its
members (R371); the acting CSEND retires when the list is acknowledged, waits until the die's carries are written, and
raises the cause of a failed exchange, or carry timeout. -/
def Obligations.NetworkAndCarries : Prop :=
  (∀ (s : State) (c c1 : Crew) (w : SWord),
       (Runs s .s c → c.sctx.active = false → SIssues s c .net w c1 → groupOf s c1 = none →
         exec (.snet w) s = .next (faultsAt s c .s 0x13 0)) ∧
       (NetReady s c .net w c1 → ∀ l g idx inst, Member s c1 l g idx inst →
         (g ≤ 1 → exec (.snet w) s = .next (retired s (ranScan { c1 with exchNo := c1.exchNo + 1 }) .s 12)) ∧
         (1 < g → c1.sctx.sprog = 0 →
           (∀ y ∈ s.fabric.exchanges, y.die = dieOf s.cur.core → y.launch = l.id → y.inst = inst → y.exch ≠ c1.exchNo → y.opened = false) →
           (∀ y, exchangeAt s (dieOf s.cur.core) l.id inst c1.exchNo = some y → y.failed = 0 ∧
             ∀ p ∈ y.held, (p.kind, p.clen) = (dKind (descOf c1 w), clenOf w) ∧ ∀ q ∈ y.params, q = (p.kind, p.clen)) →
           ∃ t d y, exec (.snet w) s = .next t ∧ crewAt t s.cur.core s.cur.slot = some d ∧ d.exchNo = c1.exchNo + 1 ∧
             (strOf d .s).wait = 0xA ∧ pcOf d .s = pcOf c .s ∧ exchangeAt t (dieOf s.cur.core) l.id inst c1.exchNo = some y ∧
             y.opened = true ∧ contributionOf s s.cur.core s.cur.slot c1 w idx ∈ y.contribs) ∧
         (1 < g → c1.sctx.sprog ≠ 0 → ∀ x, exchangeAt s (dieOf s.cur.core) l.id inst (c1.exchNo - 1) = some x →
           (x.failed ≠ 0 → exec (.snet w) s = .next (faultsAt s c1 .s x.failed 0)) ∧
           (x.failed = 0 → (∀ k ∈ x.kept, k.1 ≠ c1.rank) → exec (.snet w) s = .next (waiting s c1 .s 0xA)) ∧
           (∀ agg, x.failed = 0 → x.kept.find? (fun k => decide (k.1 = c1.rank)) = some (c1.rank, true, agg) →
             ∃ t, exec (.snet w) s = .next t ∧ ∀ ch r, ch ∈ carryBads x c1.rank → ch < 128 → r < 4 →
               unitPoisoned t s.cur.core s.cur.slot 2 (512 * (w.h.toNat + aggW (dKind (descOf c1 w))) + 4 * ch + r) = true) ∧
           (∀ write agg, x.failed = 0 → s.host.poison = [] → carryBads x c1.rank = [] → x.kept.find? (fun k => decide (k.1 = c1.rank)) = some (c1.rank, write, agg) →
             exec (.snet w) s = .next (retired (closeExchange s l { x with kept := x.kept.filter fun k => decide (k.1 ≠ c1.rank) })
               (ranScan (if write then carriedTo c1 (w.h.toNat + aggW (dKind (descOf c1 w))) agg else c1)) .s 12))))) ∧
  (∀ (s : State) (c c1 : Crew) (w : SWord) (l : Launch) (g idx inst : Nat), Member s c1 l g idx inst →
       (NetReady s c .recv w c1 →
         (idx = 0 ∨ (dieRanks s l inst (dieOf s.cur.core)).headD c1.rank ≠ c1.rank →
           exec (.crecv w) s = .next (retired s (ranScan c1) .s 12)) ∧
         (∀ x, idx ≠ 0 → (dieRanks s l inst (dieOf s.cur.core)).headD c1.rank = c1.rank →
           exchangeAt s (dieOf s.cur.core) l.id inst c1.exchNo = some x → x.opened = true →
           (x.failed ≠ 0 → exec (.crecv w) s = .next (faultsAt s c1 .s x.failed 0)) ∧
           (let y := nameParams x (dKind (descOf c1 w)) (clenOf w);
             x.failed = 0 → (incomingList x).isSome = true →
               (heldDiffers y = false → exec (.crecv w) s = .next (retired (putExchange s y) (ranScan c1) .s 12)) ∧
               (heldDiffers y = true → exec (.crecv w) s = .next (faultsAt (openExchange s l y) c1 .s 0x13 0))) ∧
           (let y := nameParams { x with recvAt := some s.cycle.toNat } (dKind (descOf c1 w)) (clenOf w);
             x.failed = 0 → incomingList x = none →
               (c1.sctx.sprog ≠ 0 → exec (.crecv w) s = .next (waiting s c1 .s 0xA)) ∧
               (c1.sctx.sprog = 0 → heldDiffers y = false → exec (.crecv w) s =
                 .next (waiting (putExchange s y) { c1 with sctx := { c1.sctx with sprog := 1 } } .s 0xA))))) ∧
       (NetReady s c .send w c1 →
         (exitLink s l inst (dieOf s.cur.core) = none ∨ (dieRanks s l inst (dieOf s.cur.core)).getLast?.getD c1.rank ≠ c1.rank →
           exec (.csend w) s = .next (retired s (ranScan c1) .s 12)) ∧
         (∀ x n, exitLink s l inst (dieOf s.cur.core) = some n →
           (dieRanks s l inst (dieOf s.cur.core)).getLast?.getD c1.rank = c1.rank →
           exchangeAt s (dieOf s.cur.core) l.id inst (c1.exchNo - 1) = some x →
           (x.failed ≠ 0 → exec (.csend w) s = .next (faultsAt s c1 .s x.failed 0)) ∧
           (x.failed = 0 → x.sent = 2 → exec (.csend w) s = .next (retired s (ranScan c1) .s 12)) ∧
           (x.failed = 0 → x.sent = 3 → exec (.csend w) s = .next (faultsAt s c1 .s 0x14 0)) ∧
           (x.failed = 0 → x.sent < 2 → x.carried = false → ∃ t d, exec (.csend w) s = .next t ∧
             crewAt t s.cur.core s.cur.slot = some d ∧ (strOf d .s).wait = 0xA ∧ pcOf d .s = pcOf c .s ∧ t.fabric = s.fabric))))

/-- R61, R63 and R82: a word that no engine can decode is illegal instruction in the stream that meets it, and a fetch
beyond the text object is capability bounds with the PC as its address. R240, R241: a crew that stopped on a fault its
tenant handles takes the trap, and one that nobody handles ends. R249, R274: a crew all of whose streams have arrived, its
stores performed and its operations complete, raises DONE and frees its slot. R256, R257: DBGCTL takes a debugger's write,
and a single step ends in a stop. R269: a crew that stalls to its limit ends. R317: a held crew starts. -/
def Obligations.CrewEvents : Prop :=  (∀ (s : State) (c : Crew), Runs s s.cur.eng c →
    exec .illegalInstruction s = .next (faultsAt s c s.cur.eng 0x01 0) ∧
    exec .fetchCapabilityBounds s = .next (faultsAt s c s.cur.eng 0x03 (pcOf c s.cur.eng))) ∧
  ∀ (s : State) (c : Crew), crewAt s s.ev.core s.ev.slot = some c →
    (∀ f h, pendingFault c = some f → handleable f.cause = true → handlerFor s c.tenant f.cause = some h →
      ∃ d, exec .trapTaken s = .next (putCrew s s.ev.core s.ev.slot d) ∧ d.trap.inHandler = true ∧
        d.trap.tcause = BitVec.ofNat 64 (causeWord f) ∧ d.trap.tpc = BitVec.ofNat 64 f.pc ∧
        d.trap.taddr = BitVec.ofNat 64 f.addr ∧ d.trap.tinfo = BitVec.ofNat 64 f.info ∧
        pcOf d .c = h.entry ∧ pcOf d .a = h.entry ∧ pendingFault d = none ∧ SameContents c d) ∧
    (∀ f, pendingFault c = some f → f.cause ≠ 0x10 → handleable f.cause = false ∨ handlerFor s c.tenant f.cause = none →
      exec .crewEndByFault s = .next (endCrew s s.ev.core s.ev.slot c f 0) ∧
      crewAt (endCrew s s.ev.core s.ev.slot c f 0) s.ev.core s.ev.slot = none) ∧
    (stallLimit s c ≤ c.ctl.stall → stallHolds c = false →
      ∃ t, exec .stallWatchdog s = .next t ∧ crewAt t s.ev.core s.ev.slot = none) ∧
    (∀ s1, debugStopped c = false → (∀ e, active c e = true → (strOf c e).status = .arrived) → releaseReady s s.ev.core s.ev.slot c = some s1 →
      opsComplete c = true → faultedOp c = none →
      ∃ t, exec .crewRetirement s = .next t ∧ crewAt t s.ev.core s.ev.slot = none ∧
        t = retireCrew (crewIncrement (putCrew s1 s.ev.core s.ev.slot { c with ops := [], strA := { c.strA with d := [] } })
          c.launch false) s.ev.core s.ev.slot) ∧
    exec .scrubHoldEnd s = .next (putCrew s s.ev.core s.ev.slot { c with ctl := { c.ctl with scrubHold := false } }) ∧
    (c.ctl.stepping = 2 → ∃ d, exec .singleStepEnd s = .next (putCrew s s.ev.core s.ev.slot d) ∧
      d.ctl.dbgstat.getLsbD 1 = true ∧ d.ctl.stepping = 0 ∧ SameContents c d) ∧
    ∃ d, exec .dbgctlWrite s = .next (putCrew s s.ev.core s.ev.slot d) ∧ SameContents c d ∧
      (∀ b, b < 64 → d.ctl.dbgctl.getLsbD b = (s.ev.v.getLsbD b && decide (b < 8) && decide (b ≠ 1))) ∧
      (s.ev.v.getLsbD 2 = true → d.ctl.dbgstat.getLsbD 1 = true) ∧
      (s.ev.v.getLsbD 2 = false → s.ev.v.getLsbD 3 = false → d.ctl.dbgstat.getLsbD 1 = false) ∧
      (s.ev.v.getLsbD 2 = false → s.ev.v.getLsbD 3 = true →
        (5 ≤ fld s.ev.v 5 3 → d.ctl.dbgstat.getLsbD 1 = true) ∧
        (fld s.ev.v 5 3 < 5 → d.ctl.dbgstat.getLsbD 1 = false ∧ d.ctl.stepping = 1))

/-- R248, R254, R256, R346, R354, R355, R356 and R358: contexts. A crew all of whose streams stand at a taken YIELD is saved
past it; one whose deadline has run out is saved whole; one that a page fault holds is saved when another can use its slot;
a migrating crew leaves its slot with the crews of its unit. Where the record can be completed the scheduler holds it as a
save of its kind; in every case the slot is free. Until the crew's accesses have ended no save begins. A crew that the
debugger stops, and the crew whose SUSPEND waits, keep their slots. A context whose header agrees, whose record is whole,
whose slot is eligible and which nothing more urgent keeps back stands again on that slot with the contents of its record,
and the scheduler holds it no longer; one whose record an error cuts short ends, with its unit. -/
def Obligations.ContextsSaveAndRestore : Prop :=  (∀ (s : State) (c : Crew) (l : Launch), let core := s.ev.core
    let slot := s.ev.slot
    crewAt s core slot = some c → launchById s c.launch = some l → slot < 2 →
    (saveReady s core slot c = false → exec .yieldSave s = .next s ∧ exec .forcedSave s = .next s ∧
      exec .pageFaultSwap s = .next s ∧ exec .migrateTrap s = .next s) ∧
    (debugStopped c = true ∨ isIssuer s core slot = true → exec .forcedSave s = .next s ∧ exec .pageFaultSwap s = .next s ∧
      exec .migrateTrap s = .next s) ∧
    (saveReady s core slot c = true →
      (debugStopped c = false → (∀ e, active c e = true → ∃ a, (strOf c e).status = .yielded a) →
        ∃ t, exec .yieldSave s = .next t ∧ crewAt t core slot = none ∧
          (RecordFits (putCrew s core slot (passAll c)) core slot (passAll c) l → ∃ k, SaveKind s 1 k ∧ Saved t core slot c l k)) ∧
      (mayStop s core slot c = true → deadlineRuns c = true → c.ctl.deadline = 0 →
        (∀ e a, active c e = true → (strOf c e).status ≠ .yielded a) →
        ∃ t, exec .forcedSave s = .next t ∧ crewAt t core slot = none ∧
          (RecordFits (tenantError s c.tenant [forcedRecord s c core]) core slot c l → ∃ k, SaveKind s 2 k ∧ Saved t core slot c l k)) ∧
      (mayStop s core slot c = true → (∃ e p u, active c e = true ∧ statusOf c e = .held p u) → s.sched.ready ≠ [] →
        ∃ t, exec .pageFaultSwap s = .next t ∧ crewAt t core slot = none ∧
          (RecordFits s core slot c l → ∃ k, SaveKind s 3 k ∧ Saved t core slot c l k))) ∧
    (migratePending c = true →
      (∀ p, Mates s l c p → mayStop s (p.1 / 2) (p.1 % 2) p.2 = true ∧ saveReady s (p.1 / 2) (p.1 % 2) p.2 = true ∧
        exchangeOpen s (p.1 / 2) p.2 = false) →
      ∃ t, exec .migrateTrap s = .next t ∧ (∀ p, Mates s l c p → crewAt t (p.1 / 2) (p.1 % 2) = none) ∧
        ((∀ p, Mates s l c p → p.1 = 2 * core + slot) → RecordFits s core slot c l → Saved t core slot c l 4 ∧
          ∃ x ∈ t.sched.saved, x.launch = l.id ∧ x.rank = c.rank ∧ x.group = some (migUnit l c.rank) ∧ x.needF = true))) ∧
  ∀ (s : State) (l : Launch) (x : SavedCtx), launchById s s.ev.launch = some l → l.scanl = none →
    s.sched.saved.find? (fun y => decide (y.launch = l.id) && decide (y.rank = s.ev.idx) && decide (y.kind ≠ 7)) = some x →
    x.group = none → s.ev.flag = false → s.ev.slots = [] → outranked s l [(s.ev.core, s.ev.slot)] false = false →
    restorable s l x s.ev.core s.ev.slot = true → headerOk s l x = true →
    (recordWhole s l x = true →
      ∃ t d, exec .contextRestore s = .next t ∧ crewAt t s.ev.core s.ev.slot = some d ∧ d.launch = l.id ∧ d.rank = x.rank ∧
        SameContents (readCrew l x s.ev.slot (recRow s l x.rank)) d ∧ x ∉ t.sched.saved) ∧
    (recordWhole s l x = false → exec .contextRestore s = .next (tornRestore s l x))

/-- R55, R57, R134, R136, R142, R148 to R151, R223, R333 and R334: the work that goes on beside the streams. A row of a
COPY, GATHER or SCATTER whose two accesses pass is written where it belongs and NEXT rises; with BE its 64 bytes count at
the barrier beside it. A row of a COPYMC stands at the same place of every receiver, and a core without one is noted. A ring
copy claims its slots as RCLAIM does, waits while the ring is full, writes each row into its slot and commits a slot with
its last row (which right it needs, and when it claims, is the model's reading, log entry 14). An LDV's row fills its
register; the answer to an LDQ fills its entry; a completed operation makes its increment and then lowers its counter; the
spill engine moves rows while the window is above or below its marks; a waiter that polls runs again. A bank unit performs
the reductions of one row that rest in a core's buffer; an update held for its key is applied when its turn comes and its
frame has been pulled, and not before; a walk that finds an entry leaves it cached and touches nothing else, a refused one
makes its record, and an absent page its page fault. -/
def Obligations.EngineAndBankEvents : Prop :=
  (∀ (s : State) (c : Crew), crewAt s s.ev.core s.ev.slot = some c → let core := s.ev.core
       let slot := s.ev.slot
       (∀ (o : EngOp) (s1 s2 : State) (a b : Acc), c.ops[s.ev.idx]? = some o → rowsDone o = false → o.heldBy = none → o.req = none →
         o.skipped = [] → debugStopped c = false → earlierPending s core slot c o = false → let x := memReadN s.mem a.key 64
         (o.kind = 2 ∨ o.kind = 4 ∨ o.kind = 5 → cpRng o.desc = false → RowRead s core slot c o s1 a → RowWritten s1 core slot c o s2 b →
           (cpBe o.desc = false → ∃ w d, Writes s s2 w d b.key 64 x ∧ exec .copyRow s = .next (putCrew d core slot (movedOn c s.ev.idx o))) ∧
           (∀ rc, cpBe o.desc = true → b.tgt = 8 → crewAt s (b.slotKey / 2) (b.slotKey % 2) = some rc → rowFormOk rc (cpBrow o.desc) = true →
             phaseOk s c .a true true (cpBrow o.desc) = true → let key := rowFormKey (b.slotKey / 2) rc (cpBrow o.desc)
             ∃ w d v, Writes s s2 w d b.key 64 x ∧ Stored d v key 8 (arrived' (memReadN d.mem key 8) 64) ∧ v = { d with mem := v.mem } ∧
               exec .copyRow s = .next (putCrew v core slot (movedOn c s.ev.idx o)))) ∧
         (o.kind = 3 → cpBe o.desc = false → RowRead s core slot c o s1 a → let u := opDst s core c o
           let cores := maskCores core (fld o.aux 0 32)
           (core ∈ cores → phaseOk s c .a false true (keyRow c (crewRowKey core c u)) = true) →
           ((∀ r ∈ cores, ∃ rc, crewAt s r slot = some rc ∧ rc.launch = c.launch) →
             ∃ w, RowAtAll s w (receiverKeys s core slot u (fld o.aux 0 32)) x ∧ w = { s1 with mem := w.mem, host := w.host } ∧
               exec .copyRow s = .next (putCrew w core slot (movedOn c s.ev.idx o))) ∧
           (∀ r ∈ cores, (∀ rc, crewAt s r slot = some rc → rc.launch ≠ c.launch) → ∃ t d q, exec .copyRow s = .next t ∧
             crewAt t core slot = some d ∧ d.ops[s.ev.idx]? = some q ∧ r ∈ q.skipped ∧ q.next = o.next + 1)) ∧
         (o.kind = 2 ∨ o.kind = 4 → cpRng o.desc = true → o.claim = none → RingAt s core slot c o s1 a →
           (a.tgt = 8 → phaseOk s c .a true true (keyRow c a.key) = true) → let h := rowAt s a
           let need := (opRows o + ringSrows h - 1) / ringSrows h
           (ringUsed h + need ≤ ringSize h → ∃ w d h',
             headerAfter h ⟨none, ringHead h, ringTail h, (ringClaimed h + need) % 2 ^ 32, ringCbits h⟩ h' ∧
             Writes s s1 w d a.key 64 h'.toNat ∧
             exec .copyRow s = .next (putOp d core slot s.ev.idx { o with claim := some (ringClaimed h) })) ∧
           (need ≤ ringSize h → ringSize h < ringUsed h + need → exec .copyRow s = .next s1)) ∧
         (∀ rc base, o.kind = 2 ∨ o.kind = 4 → cpRng o.desc = true → cpBe o.desc = false → o.claim = some base →
           RowRead s core slot c o s1 a → RingAt s1 core slot c o s2 b → b.tgt = 8 → asGet s.crews b.slotKey = some rc → let h := rowAt s b
           let n := base + o.next / ringSrows h
           let row := ringBase h + n % ringSize h * ringSrows h + o.next % ringSrows h
           let key := rowFormKey (b.slotKey / 2) rc row
           rowFormOk rc row = true → row / 2 ^ 14 = ringBase h / 2 ^ 14 → phaseOk s c .a false true row = true →
           phaseOk s c .a true true (keyRow c b.key) = true →
           ∃ w, Stored s w key 64 x ∧ w = { s2 with mem := w.mem, host := unpoisoned s key 64 } ∧
             ((o.next + 1) % ringSrows h ≠ 0 → opRows o ≠ o.next + 1 →
               exec .copyRow s = .next (putCrew w core slot (movedOn c s.ev.idx o))) ∧
             ∀ e g i k r, (o.next + 1) % ringSrows h = 0 ∨ opRows o = o.next + 1 → ringOk (rowAt w b) = true →
               RingDoes (rowAt w b) (n % 2 ^ 32) (.rcommit g i k r) e → ∃ v d h', headerAfter (rowAt w b) e h' ∧
                 Writes w w v d b.key 64 h'.toNat ∧ exec .copyRow s = .next (putCrew d core slot (movedOn c s.ev.idx o))) ∧
         (o.kind = 1 → s.ev.flag = true → access s core slot c o.src kLdv (opSrc s core c o) 64 = (s1, .ok a) →
           (a.tgt = 8 → phaseOk s c .a true false (keyRow c a.key) = true) → Local a →
           isPoisoned s a.key = false → ldvWaitsForV s1 core c o (fld o.desc 0 10 + o.next) = false →
           ∃ t d, exec .loadDataReturn s = .next t ∧ t.mem = s.mem ∧ crewAt t core slot = some d ∧
             d.ops = setNth c.ops s.ev.idx { o with next := o.next + 1 } ∧
             ∀ r, vRead d r = if r = fld o.desc 0 10 + o.next then BitVec.ofNat 512 x else vRead c r)) ∧
       (∀ (m : FabMsg) (d : Crew), s.ev.flag = false → s.fabric.msgs.find? (fun m => decide (m.id = s.ev.idx)) = some m →
         m.inbound = false → m.waiter = 2 → crewAt s m.core m.slot = some d →
         (m.phase = 2 → exec .loadDataReturn s = .next (putCrew (dropMsg s m.id) m.core m.slot
           (popped d m.widx ((queueOf d m.widx).map fun e => if e.pending ∧ e.data = BitVec.ofNat 512 m.id then
             { e with data := BitVec.ofNat 512 (m.reply.row.toNat % 2 ^ (8 * m.size)), pending := false } else e)))) ∧
         (m.phase = 3 → exec .loadDataReturn s = .next (putCrew (dropMsg s m.id) m.core m.slot
           (popped d m.widx ((queueOf d m.widx).map fun e => if e.pending ∧ e.data = BitVec.ofNat 512 m.id then
             { e with data := 0, pending := false, fail := remoteCause m } else e))))) ∧
       (∀ (o : EngOp) (s1 : State) (a : Acc), c.ops[s.ev.idx]? = some o → rowsDone o = true → opCe o = true → o.nulled = false →
         o.signalled = false → o.heldBy = none → o.req = none → s.ev.kind ≠ 1 →
         access s core slot c o.ccap kCount (unitOf 8 (capCursor o.ccap)) 8 = (s1, .ok a) → Local a →
         (a.tgt = 8 → phaseOk s c .a true true (keyRow c a.key) = true) → isPoisoned s a.key = false →
         let x := (memReadN s.mem a.key 8 % 2 ^ 63 + 1) % 2 ^ 63 +
           (if o.fault ≠ 0 ∨ 2 ^ 63 ≤ memReadN s.mem a.key 8 then 2 ^ 63 else 0)
         let t := putOp (wakeRow (writeUnit s1 a.key 8 x) (a.key / 64)) core slot s.ev.idx { o with signalled := true }
         exec .completionIncrement s = .next (doneReached t a.key)) ∧
       (∀ o, c.ops[s.ev.idx]? = some o → opDone o = true → o.fell = false →
         (∀ p ∈ c.ops.take s.ev.idx, p.fell = true ∨ opDc p ≠ opDc o) →
         ∃ d, exec .engineOperationComplete s = .next (putCrew s core slot d) ∧ dRead d .a (opDc o) = dRead c .a (opDc o) - 1 ∧
           d.ops = (if o.fault = 0 then delNth c.ops s.ev.idx else setNth c.ops s.ev.idx { o with fell := true })) ∧
       (let n := min 64 (min (inWindowRows c - highWater s c) (spillCap s c - c.rem.rspill));
         (∃ t d, exec .spillBatch s = .next t ∧ crewAt t core slot = some d ∧ d.rem.rdepth = c.rem.rdepth ∧
           c.rem.rspill ≤ d.rem.rspill ∧ d.rem.rspill ≤ c.rem.rspill + n) ∧
         ∀ k kt, n = 1 → SpillPlaces s c c.rem.rspill k kt →
           ∃ t d, exec .spillBatch s = .next t ∧ crewAt t core slot = some d ∧ d.rem.rspill = c.rem.rspill + 1 ∧
             ∀ b, memGet t.mem b =
               if kt ≤ b ∧ b < kt + 2 then BitVec.ofNat 8 ((spGet c.rem.tag c.rem.rspill).toNat / 256 ^ (b - kt))
               else if k ≤ b ∧ b < k + 64 then BitVec.ofNat 8 ((spGet c.rem.row c.rem.rspill).toNat / 256 ^ (b - k))
               else memGet s.mem b) ∧
       ((∀ i, i < c.rem.rspill → ∃ k kt, SpillPlaces s c i k kt) → c.rem.rspill ≤ c.rem.rdepth →
         ∃ t d, exec .refillBatch s = .next t ∧ crewAt t core slot = some d ∧ t.mem = s.mem ∧ d.rem.rdepth = c.rem.rdepth ∧
           d.rem.rspill = c.rem.rspill - min 64 (highWater s c / 3 / 64 * 64 - inWindowRows c) ∧
           ∀ i k kt, d.rem.rspill ≤ i → i < c.rem.rspill → SpillPlaces s c i k kt →
             spGet d.rem.row i = BitVec.ofNat 512 (memReadN s.mem k 64) ∧ spGet d.rem.tag i = BitVec.ofNat 16 (memReadN s.mem kt 2)) ∧
       (statusOf c .a = .polling → exec .waitsigPoll s = .next (putCrew s core slot (setStatus c .a .running)))) ∧
  (∀ s : State,
       (∀ r, s.resting[s.ev.idx]? = some r → restBlocked s r = false → r.size < 64 →
         (∀ x ∈ s.resting, x ≠ r → x.due = true → restMeets x r = false) →
         (s.resting.filter fun x => decide (x.core = r.core) && decide (x.key / 64 = r.key / 64)) = [r] →
         ∃ w, Stored s w r.key r.size (atomNew r.op r.size (memReadN s.mem r.key r.size) r.x.toNat 0) ∧
           w = { s with mem := w.mem, resting := s.resting.filter fun x => !(decide (x.core = r.core) && decide (x.key / 64 = r.key / 64)) } ∧
           exec .bankUpdate s = .next (doneReached w r.key)) ∧
       (∀ k, s.keyed[s.ev.idx]? = some k →
         (keyedMayApply s k = false ∨ keyPend s k.key = true → exec .keyedUpdateApply s = .next s) ∧
         (keyedMayApply s k = true → keyPend s k.key = false → (∀ r ∈ s.resting, r.due = false) → ∃ w,
           Stored s w k.key 4 (add32 (memReadN s.mem k.key 4) k.x.toNat).bits ∧
           w = { s with mem := w.mem, keyed := delNth s.keyed s.ev.idx } ∧
           let d := doneReached w k.key
           let t := if k.sig then wakeRow d (k.key / 64) else d
           exec .keyedUpdateApply s = .next (if k.atom then { t with keyedDone := t.keyedDone ++
             [{ launch := k.launch, rank := k.rank, old := BitVec.ofNat 32 (memReadN s.mem k.key 4) }] } else t))) ∧
       (4 ≤ capSpace s.ev.cap → capSpace s.ev.cap ≤ 6 → ∀ s1 r,
         portAccess s s.ev.die s.ev.tenant (capSpace s.ev.cap) (capObj s.ev.cap) (some (capGen s.ev.cap)) s.ev.off (kindOf s.ev.form) =
           (s1, r) →
         (∀ a, r = .ok a → exec .translationWalk s = .next s1 ∧ TranslationOnly s s1) ∧
         (∀ f, r = .error f → f.cause ≠ 0x06 →
           exec .translationWalk s = .next (translationRecord s1 s.ev.tenant (capObj s.ev.cap) s.ev.off f)) ∧
         (∀ f, r = .error f → f.cause = 0x06 →
           exec .translationWalk s = .next (openFault s1 s.ev.tenant f s.ev.form (capObj s.ev.cap) s.ev.off).1)))

/-- R34, R53, R213, R214, R217 and R366 to R372: the scan network and the carry channel. When the die's members have
contributed and the incoming list is there the carries are formed, or the exchange fails with 0x13; a whole packet in
sequence is acknowledged, one that is damaged, malformed or out of sequence is asked for again; an acknowledged copy is
forgotten; a credit comes back; copies are sent again from the expected SEQ on, until 64 resends in a row take the link
down; a list that is late fails its exchange with 0x14, and a port that stays down the CSEND. R32 to R34, R153, R373 to
R378, R384 and R386: messages on the rings. A receiving point takes a request of this package and reserves its reply until
STATO; without a buffer a request goes round once, then is NACKed and backs off, and it fails when its retries are spent,
while a response and an error message always drain. A message that its link has damaged, or whose row record is malformed,
is sent again and never delivered. A NACKed request whose backoff is over is sent again; an answer reaches who waits for it,
or goes back through the stub that sent the request on, one whose row record is malformed is sent again by its link, and one
that nobody awaits is counted as dropped; a reservation that runs out fails its request with 0x11. -/
def Obligations.CarryAndFabricEvents : Prop :=
  (∀ s : State,
       (∀ l x, launchById s s.ev.launch = some l → exchangeAt s s.ev.die s.ev.launch s.ev.idx s.ev.off = some x →
         (networkReady s l x = false → exec .scanNetworkCarry s = .next s) ∧
         (networkReady s l x = true → ∃ t y, exec .scanNetworkCarry s = .next t ∧
           exchangeAt t s.ev.die s.ev.launch s.ev.idx s.ev.off = some y ∧
           (x.params.length ≠ 1 → y.failed = 0x13) ∧ (y.carried = true ∨ y.failed = 0x13)) ∧
         (∀ n, x.recvAt = some n → n + l.cto ≤ s.cycle.toNat → incomingList x = none → x.failed = 0 →
           ∃ t y, exec .carryTimeout s = .next t ∧ exchangeAt t s.ev.die s.ev.launch s.ev.idx s.ev.off = some y ∧ y.failed = 0x14) ∧
         (∀ n i, x.sendAt = some n → exitLink s l x.inst x.die = some i → n + l.cto ≤ s.cycle.toNat → x.sent = 1 → linkUp s i = false →
           exec .csendPortTimeout s = .next (putExchange s { x with sent := 3 }))) ∧
       ∀ k, linkAt s s.ev.unit = some k →
         (∀ x k1, Arrives s k x k1 → k.up = true →
           (s.ev.flag = true ∨ readPacket x = none → exec .carryPacketReceive s = .next (setLink s { k1 with resend := true })) ∧
           (∀ p, s.ev.flag = false → readPacket x = some p →
             (p.seq ≠ k.expect → exec .carryPacketReceive s = .next (setLink s { k1 with resend := true })) ∧
             (p.seq = k.expect → exec .carryPacketReceive s = .next (takePacket (setLink s { k1 with
               expect := (k.expect + 1) % 2 ^ 32, resends := 0
               acks := if k.id < 7 then k.acks ++ [linkReply 3 k.expect] else k.acks }) s.ev.unit p)))) ∧
         (∀ a rest, replyIn s k 3 k.acks = some (a, rest) → ∃ t k', exec .carryAcknowledgement s = .next t ∧
           linkAt t s.ev.unit = some k' ∧ (∀ p, p ∈ k'.unacked ↔ p ∈ k.unacked ∧ p.seq ≠ headerSeq a.header) ∧ k'.acks = rest) ∧
         (∀ a rest, k.pending = [] → replyIn s k 4 k.freed = some (a, rest) → exec .carryCredit s =
           .next (setLink s { k with freed := rest, credits := min (k.credits + 1) 16 })) ∧
         (∀ l r, k.resend = true → k.id < 7 → k.resends < 64 → k.unacked = l ++ r → (∀ p ∈ l, p.seq ≠ k.expect) →
           (∀ p, r.head? = some p → p.seq = k.expect) → exec .carryResendRequest s =
             .next (setLink s { k with resend := false, resends := k.resends + 1, flight := r.map wireOf })) ∧
         (k.resend = true ∨ (s.ev.unit = 8 ∨ s.ev.unit = 9) ∧ (∃ p ∈ k.unacked, p.seq = s.ev.off) → 64 ≤ k.resends →
           ∃ t, exec .carryResendRequest s = .next t ∧ linkUp t k.id = false) ∧
         (∀ l r p, k.resend = false → s.ev.unit = 8 ∨ s.ev.unit = 9 → k.resends < 64 → k.unacked = l ++ p :: r →
           (∀ q ∈ l, q.seq ≠ s.ev.off) → p.seq = s.ev.off → exec .carryResendRequest s =
             .next (setLink s { k with resends := k.resends + 1, flight := (p :: r).map wireOf })) ∧
         (k.resend = false → (s.ev.unit ≠ 8 ∧ s.ev.unit ≠ 9) ∨ (∀ p ∈ k.unacked, p.seq ≠ s.ev.off) → exec .carryResendRequest s = .next s)) ∧
  (∀ s : State,
       (∀ m, s.ev.msg = none → s.fabric.msgs.find? (fun m => decide (m.id = s.ev.idx)) = some m → m.inbound = false → m.phase = 0 →
         (s.ev.kind = 6 ∨ m.data.row? = none → m.resends < 64 →
           exec .ringMessageReceive s = .next (updMsg s { m with resends := m.resends + 1 })) ∧
         (s.ev.kind ≠ 6 → m.data.row? ≠ none →
           (s.ev.flag = false ∨ m.cls = 1 ∨ m.cls = 4 → cidDead s m.cid = false → groupStale s m = false → m.onPackage = false →
             m.expires = none → exec .ringMessageReceive s =
               .next (updMsg s { m with refused := 0, resends := 0, expires := some (s.cycle.toNat + statoCycles s) })) ∧
           (s.ev.flag = true → m.cls ≠ 1 → m.cls ≠ 4 →
             (m.refused = 0 → exec .ringMessageReceive s = .next (updMsg s { m with refused := 1 })) ∧
             (m.refused ≠ 0 → m.retries < retryLimit s (m.cid / 256) →
               exec .ringMessageReceive s = .next (updMsg s { m with
                 refused := 0, phase := 1, due := s.cycle.toNat + backoffCycles s (m.cid / 256) m.retries })) ∧
             (m.refused ≠ 0 → retryLimit s (m.cid / 256) ≤ m.retries →
               exec .ringMessageReceive s = .next (failMsg s { m with refused := 0 } 0x11))))) ∧
       (∀ m, s.fabric.msgs.find? (fun m => decide (m.id = s.ev.idx)) = some m → m.inbound = false → m.phase = 1 → m.due ≤ s.cycle.toNat →
         exec .fabricRetry s = .next (updMsg s { m with phase := 0, retries := m.retries + 1, expires := none })) ∧
       ((∀ m ∈ s.fabric.msgs, m.id = s.ev.idx → (m.inbound = true ∧ m.forwarded = false) ∨ m.onPackage = true ∨ 1 < m.phase) →
         exec .remoteAcknowledgement s = .next (countDrop s)) ∧
       (∀ m, s.fabric.msgs.find? (fun m => decide (m.id = s.ev.idx) && (!m.inbound || m.forwarded) && !m.onPackage && decide (m.phase ≤ 1)) = some m →
         let p := s.ev.answer.getD (payloadOf m.size s.ev.row.toNat)
         (p.row? = none → m.resends < 64 → exec .remoteAcknowledgement s = .next (updMsg s { m with resends := m.resends + 1 })) ∧
         (p.row? ≠ none → m.inbound = true → exec .remoteAcknowledgement s =
           .next (updMsg s { m with phase := if s.ev.kind ≠ 0 then 3 else 2, cause := s.ev.kind, reply := p })) ∧
         (p.row? ≠ none → m.inbound = false → m.peer.testBit 62 = false →
           (s.ev.kind ≠ 0 → exec .remoteAcknowledgement s = .next (failMsg s m s.ev.kind)) ∧
           (s.ev.kind = 0 → m.waiter = 0 → exec .remoteAcknowledgement s = .next (dropMsg s m.id)) ∧
           (s.ev.kind = 0 → m.waiter = 1 → exec .remoteAcknowledgement s = .next (updMsg s { m with phase := 2, reply := p }))) ∧
         (p.row? ≠ none → m.inbound = false → m.peer.testBit 62 = true → s.ev.unit ∉ m.members →
           exec .remoteAcknowledgement s = .next (countDrop s))) ∧
       (∀ m n, s.fabric.msgs.find? (fun m => decide (m.id = s.ev.idx)) = some m → m.inbound = false → m.phase = 0 →
         m.peer.testBit 62 = false → m.expires = some n → n ≤ s.cycle.toNat → exec .voidReply s = .next (failMsg s m 0x11)))

/-- R312 to R318, R319, R321 to R324, R334, R339 and R361 to R365: the scheduler. A record whose objects the second stage
maps and that breaks no rule enters its queue, and any other makes its record and one increment with ERR; the head of a
queue is ready once its dependences are met, and leaves when one of them cancels; a crew of the next rank goes on an
eligible slot, created as R77 and R307 say over the rows that its carving leaves (log 8), and none on any other; a Clove
error stops them all (R427); the shadow becomes the calendar at a period boundary after GO, and not before; an instance of a
busy stage is added and one of an idle stage parked; a digested launch runs again or raises DONE once, and waits while a row
of its digests is behind an absent page. -/
def Obligations.SchedulerEvents : Prop :=  (∀ (s : State) (sub : Submission) (rest : List Submission), s.sched.arrivals = sub :: rest → s.ev.flag = false →
    s.host.cloveError = false →
    recordHeld s (fnTenant s sub.fn) sub.image = none →
    let s1 := recordTaken s rest
    let l := recordLaunch s sub rest
    (BreaksLimits s sub l → refuseReason s1 sub l ≠ none) ∧
    (refuseReason s1 sub l = none → ∃ t, exec .launchRecordArrival s = .next t ∧ t.sched.arrivals = rest ∧
      t.sched.launches = s.sched.launches ++ [l] ∧ t.sched.queued = s.sched.queued ++ [(sub.queue, l.id)] ∧
      t.sched.nextLaunch = s.sched.nextLaunch + 1) ∧
    ∀ r, refuseReason s1 sub l = some r →
      let t := tenantError (textRecord s1 l.tenant l.text) l.tenant
        [errRow s1 6 0 (put r 2 1 + put (sub.obj * 2 ^ 40 + sub.off) 8 8 + put l.doneObj.toNat 48 8) none]
      exec .launchRecordArrival s =
        .next (if extentFits s1 l.tenant l.doneObj.toNat 0 8 then doneIncrement t l.tenant l.doneObj 1 true else t) ∧
      t.sched = s1.sched ∧ (doneIncrement t l.tenant l.doneObj 1 true).sched.queued = s.sched.queued) ∧
  (∀ (s : State) (l : Launch), let q := s.ev.queue
    queueHead s q = some l → s.host.cloveError = false →
    (q ∉ s.sched.ready → let m := observed s l
      ((∃ d ∈ l.deps, ¬IsMet s l d) → ∃ t, exec .recordReady s = .next t ∧ t.sched.ready = s.sched.ready ∧
        t.sched.queued = s.sched.queued) ∧
      ((∀ d ∈ l.deps, IsMet s l d) → (∀ d ∈ l.deps, ¬Cancels s l d) →
        (digCheck (setLaunch s m) m 0 = (setLaunch s m, false) →
          ∃ t, exec .recordReady s = .next t ∧ t.sched.ready = s.sched.ready ++ [q] ∧ t.sched.queued = s.sched.queued) ∧
        ((digCheck (setLaunch s m) m 0).2 = true → exec .recordReady s = .next (digCheck (setLaunch s m) m 0).1)) ∧
      ((∀ d ∈ l.deps, IsMet s l d) → (∃ d ∈ l.deps, Cancels s l d) →
        ∃ t, exec .recordReady s = .next t ∧ q ∉ t.sched.ready ∧ (q, l.id) ∉ t.sched.queued)) ∧
    ∀ core slot, s.ev.slots = [(core, slot)] →
      (slotEligible s l core slot false = false → exec .crewPlacement s = .next s) ∧
      (slotEligible s l core slot false = true → q ∈ s.sched.ready → frontEndsOpen s = true →
        l.nextRank < ordinaryCrews l → placeUnit l = 1 → unitPlaceOk l [(core, slot)] = true →
        outranked s l [(core, slot)] true = false → ∃ t d, exec .crewPlacement s = .next t ∧ crewAt t core slot = some d ∧
          (let new := freshCrew l (ordinaryRank l l.nextRank) slot
           SameContents new d ∧ t.mem = (carve s core slot new).1.mem) ∧ d.launch = l.id ∧ d.tenant = l.tenant ∧
          d.rank = ordinaryRank l l.nextRank)) ∧
  (∀ s : State, let d := s.ev.die
    ((∀ e ∈ s.sched.calPending, e.1 = d → s.cycle.toNat / 1024 ≤ e.2) → exec .calendarSwitch s = .next s) ∧
    ((∃ e ∈ s.sched.calPending, e.1 = d ∧ e.2 < s.cycle.toNat / 1024) → ∃ t, exec .calendarSwitch s = .next t ∧
      (∀ e, e ∈ t.sched.calPending ↔ e ∈ s.sched.calPending ∧ e.1 ≠ d) ∧
      (∀ i, i < 64 → (spGet t.sched.calendar (64 * d + i) ^^^ 0x100#16).toNat = fld (regGet s 0 (rCALSHADOW d i)) 0 9) ∧
      ∀ k, k < 64 * d ∨ 64 * d + 64 ≤ k → spGet t.sched.calendar k = spGet s.sched.calendar k) ∧
    (s.ev.v.getLsbD 0 = false → exec .calcommit s = .next s) ∧
    (s.ev.v.getLsbD 0 = true → (∀ e ∈ s.sched.calPending, e.1 ≠ d) → d < 8 → regsAnswer s = true →
      ∃ t, exec .calcommit s = .next t ∧ t.sched.calPending = s.sched.calPending ++ [(d, s.cycle.toNat / 1024)] ∧
        t.sched.calendar = s.sched.calendar ∧ t.regs = s.regs) ∧
    exec .progressBoundMissed s = .next (tenantError s s.ev.tenant
      [errRow s 12 0 (put d 2 1 + put s.ev.unit 8 8 + put s.ev.kind 16 1) none])) ∧
  (∀ s : State, s.host.cloveError = true → s.ev.flag = false →
    exec .launchRecordArrival s = .next s ∧ exec .recordReady s = .next s ∧ exec .crewPlacement s = .next s) ∧
  ∀ (s : State) (l : Launch), launchById s s.ev.launch = some l → let stage := s.ev.kind
    (∀ core slot i, OneCrewStage l stage → l.completed = false → ordinaryCrews l ≤ l.nextRank →
      stHold (l.stages.getD stage 0) ≤ (pipeHistory s l.id stage).1 → s.ev.slots = [(core, slot)] →
      unitPlaceOk l [(core, slot)] = true → slotEligible s l core slot false = true → i < stageMax l →
      (l.placed.getD stage 0).testBit i = false → rankHere l (stageRank l stage i 0) = true → (∀ j, j < i → (l.placed.getD stage 0).testBit j = true) →
      (∀ x ∈ s.sched.saved, ¬(x.launch = l.id ∧ x.rank = stageRank l stage i 0 ∧ x.kind = 7)) →
      ∃ t d, exec .pipelineAdd s = .next t ∧ crewAt t core slot = some d ∧ d.launch = l.id ∧ d.rank = stageRank l stage i 0) ∧
    (∀ k c, OneCrewStage l stage → l.completed = false → s.ev.idx ≠ 0 → residentOf s l.id (stageRank l stage s.ev.idx 0) = some k →
      asGet s.crews k = some c → c.launch = l.id → c.rank = stageRank l stage s.ev.idx 0 →
      stHold (l.stages.getD stage 0) ≤ (spGet (pipeHistory s l.id stage).2 s.ev.idx).toNat →
      1024 * stHold (l.stages.getD stage 0) ≤ c.ctl.stall →
      (∃ key, ringHome s l stage = some key ∧ instanceIdle s l stage s.ev.idx key = true) →
      mayStop s (k / 2) (k % 2) c = true → saveReady s (k / 2) (k % 2) c = true → RecordFits s (k / 2) (k % 2) c l →
      ∃ t, exec .pipelinePark s = .next t ∧ Saved t (k / 2) (k % 2) c l 7) ∧
    (RunEnded s l → ((digCheck s l 1).2 = true → exec .launchDigest s = .next (digCheck s l 1).1) ∧
      (digCheck s l 1 = (s, false) → digCheck s l 0 = (s, false) →
      (l.flags.getLsbD 2 = true → l.run = 0 → ∃ t m, exec .launchDigest s = .next t ∧ launchById t l.id = some m ∧ m.run = 1 ∧
        m.nextRank = 0 ∧ m.held = 0 ∧ m.outDig = digests s l 1 ∧ t.sched.queued = (l.queue, l.id) :: s.sched.queued ∧
        l.queue ∈ t.sched.ready) ∧
      (l.flags.getLsbD 2 = false ∨ (l.run ≠ 0 ∧ digests s l 1 = l.outDig ∧ digests s l 0 = l.inDig) →
        exec .launchDigest s = .next (doneIncrement (if l.flags.getLsbD 7 then
          writeBytes s l.tenant (digRead l 8 8) (signatureBytes s l l.inDig (digests s l 1)) else s)
          l.tenant l.doneObj l.held l.heldErr)) ∧
      (l.flags.getLsbD 2 = true → l.run ≠ 0 → digests s l 1 ≠ l.outDig → (digests s l 1).length = l.outDig.length →
        ∃ t, t.sched = s.sched ∧ exec .launchDigest s = .next (doneIncrement t l.tenant l.doneObj l.held true))))

/-- R345, R419 and R432 to R435: the host queues. The expected entry is taken once, in order, and answered with its status:
a launch record reaches its queue unless the queue is full, a copy is accepted and moves row by row, a suspend starts, an
echo answers; an entry whose record or object stands behind an absent page is held (R339); an unknown operation is a bad
command, an entry out of order stops the fetch, and after a Clove error every entry fails. An event waits for a slot of its
ring; the doorbell and the rings' registers take their writes. -/
def Obligations.HostQueueEvents : Prop :=  (∀ (s : State) (e : Row), let fn := s.ev.fn
    let s' := advanceAck s fn
    (∀ st, regGet (answered s fn e st) fn rHSQACK = BitVec.ofNat 64 (((regGet s fn rHSQACK).toNat + 1) % 2 ^ 32) ∧
      (answered s fn e st).host.events = s.host.events ++
        (if heNote e then [{ fn := fn, hseq := heSeq e, status := st, type := 1, eseq := 0 }] else [])) ∧
    (∀ i, TakesEntries i → s.ev.flag = false →
      (HandsOver s fn e → heOp e = 0 ∨ 5 < heOp e → exec i s = .next (answered s fn e 2)) ∧
      (HandsOver s fn e → ¬IsFor i e → 1 ≤ heOp e → heOp e ≤ 5 → exec i s = .next s) ∧
      (expected s fn = some e → (heNote e = true → eventsWait s fn = false) →
        (heSeq e ≠ ((regGet s fn rHSQACK).toNat + 1) % 2 ^ 32 → ∃ t, exec i s = .next t ∧ fn ∉ t.host.fetching ∧ t.regs = s.regs ∧
          (seqAbove (regGet s fn rHSQACK).toNat (heSeq e) = true → t.host.events = s.host.events)) ∧
        (heSeq e = ((regGet s fn rHSQACK).toNat + 1) % 2 ^ 32 → s.host.cloveError = true →
          exec i s = .next (answered s fn e 7))) ∧
      (expected s fn = none → exec i s = .next s)) ∧
    (HandsOver s fn e →
      (heOp e = 5 → exec .hostEcho s = .next (answered s fn e 0)) ∧
      (heOp e = 4 → (fn ≠ 0 → exec .hostSuspend s = .next (answered s fn e 2)) ∧
        (fn = 0 → ∃ t, exec .hostSuspend s = .next t ∧ t.power = .suspending 0 none ∧
          t.host.suspendNote = (if heNote e then some (heSeq e) else none))) ∧
      (heOp e = 1 → (¬SubmitNamed s' fn e ∨ ¬SubmitFits s' fn e ∧ recordMiss s' fn e = none →
          exec .hostSubmitLaunch s = .next (answered s fn e 2)) ∧
        (∀ f, SubmitNamed s' fn e → recordMiss s' fn e = some f → HeldAt s fn e f .hostSubmitLaunch) ∧
        (SubmitFits s' fn e → recordMiss s' fn e = none → 32 ≤ queueLoad s' (heLq e) → exec .hostSubmitLaunch s = .next s) ∧
        (SubmitFits s' fn e → recordMiss s' fn e = none → queueLoad s' (heLq e) < 32 → ∀ rows,
          extentRows s' (fnTenant s' fn) (refObj (heObj e)) (refOff (heObj e)) 8 = some rows →
          ∃ t, exec .hostSubmitLaunch s = .next t ∧ t.sched.arrivals = s.sched.arrivals ++
            [{ fn := fn, clove := false, queue := heLq e, obj := refObj (heObj e), off := refOff (heObj e),
               image := imageOf rows }])) ∧
      ∀ toHost i, i = (if toHost then .hostCopyToHost else .hostCopyToDevice) → heOp e = (if toHost then 3 else 2) →
        s.ev.flag = false →
        let entry := lookupObj s' (fnTenant s' fn) (refObj (heObj e))
        ((∀ o, ¬CopyFits s' fn e o) → (CopyNamed s' fn e → ∀ f, entry = .error f → f.cause ≠ 0x06) →
          exec i s = .next (answered s fn e 2)) ∧
        (∀ f, CopyNamed s' fn e → entry = .error f → f.cause = 0x06 → HeldAt s fn e f i) ∧
        ((∃ o, CopyFits s' fn e o) → ∃ t h, exec i s = .next t ∧ t.host.copies = s.host.copies ++ [h] ∧ h.fn = fn ∧
          h.toHost = toHost ∧ h.rows = heRows e ∧ h.next = 0 ∧ h.haddr = heHaddr e ∧ h.hseq = heSeq e ∧ h.req = none ∧
          h.heldBy = none))) ∧
  (∀ (s : State) (h : HostCopy) (s1 : State) (a : Acc), let tenant := fnTenant s h.fn
    s.ev.flag = true → s.ev.fn = h.fn →
    s.host.copies.find? (fun x => decide (x.fn = h.fn) && decide (x.hseq = s.ev.idx) && decide (x.toHost = h.toHost)) = some h →
    h.heldBy = none → h.req = none →
    portAccess s (agentDie s tenant) tenant 4 (refObj h.obj.toNat) none (refOff h.obj.toNat + 64 * h.next)
      (if h.toHost then kCopyR else kCopyW) true = (s1, .ok a) → a.tgt ≠ 10 → a.remote = false → s.host.linkUp = true →
    givenAway s1 tenant (if a.tgt = 0 then some a.key else none) = none →
    (h.toHost = false → exec .hostCopyToDevice s =
      .next (copyMoved (doneReachedRow (writeUnit s1 a.key 64 (hostRow s1 (h.haddr + 64 * h.next)).toNat) a.key 64) h)) ∧
    (h.toHost = true → isPoisoned s1 a.key = false → exec .hostCopyToHost s =
      .next (copyMoved (hostWrite s1 (h.haddr + 64 * h.next) (readUnit s1 a.key 64) 64) h))) ∧
  (∀ s : State, let fn := s.ev.fn
    (deqRoom s fn = false → exec .deviceEvent s = .next s) ∧
    (∀ e l, deqRoom s fn = true → takeEvent fn s.host.events = some (e, l) →
      let d := ((regGet s fn rDEQSEQ).toNat + 1) % 2 ^ 32
      ∃ t, exec .deviceEvent s = .next t ∧ t.host.events = l ∧ regGet t fn rDEQSEQ = BitVec.ofNat 64 d ∧
        t.mem = memWriteN s.mem (hostKey (ringSlot s fn rDEQBASE rDEQCFG d)) (eventRow e d).toNat 64)) ∧
  (∀ s : State, regsAnswer s = false → ∀ i, WritesRegister i → exec i s = .next s) ∧
  ∀ s : State, regsAnswer s = true → let fn := s.ev.fn
    let v := s.ev.v
    (seqAbove (regGet s fn rHSQACK).toNat (fld v 0 32) = true → ∃ t, exec .hsqdb s = .next t ∧
      regGet t fn rHSQDB = BitVec.ofNat 64 (fld v 0 32) ∧ fn ∈ t.host.fetching ∧ t.mem = s.mem) ∧
    (∃ t, exec .hsqbase s = .next t ∧ regGet t fn rHSQBASE = v &&& 0xFFFF_FFFF_FFFF_F000#64 ∧ fn ∉ t.host.fetching ∧
      t.mem = s.mem) ∧
    (∃ t, exec .hsqcfg s = .next t ∧ regGet t fn rHSQCFG = v &&& 0x8000_000F#64 ∧ fn ∉ t.host.fetching ∧ t.mem = s.mem) ∧
    (∃ t, exec .deqbase s = .next t ∧ regGet t fn rDEQBASE = v &&& 0xFFFF_FFFF_FFFF_F000#64 ∧
      (s.host.written = [] → t.mem = s.mem) ∧
      ∀ d r, s.host.written = [(fn, d, r)] → seqAbove (regGet s fn rDEQACK).toNat d = true →
        t.mem = memWriteN s.mem (hostKey (ringSlot t fn rDEQBASE rDEQCFG d)) r.toNat 64) ∧
    (∃ t, exec .eqcfg s = .next t ∧ RingSet s t fn rEQCFG rEQTAIL rEQLOST v) ∧
    (s.xlat.faults = [] → ∃ t, exec .fqcfg s = .next t ∧ RingSet s t fn rFQCFG rFQTAIL rFQLOST v) ∧
    (s.xlat.faults = [] → ∃ t, exec .fqhead s = .next t ∧ regGet t fn rFQHEAD = v &&& 0xFFFF_FFFF#64 ∧ t.mem = s.mem) ∧
    ∀ p, s.xlat.faults = [p] → p.pager = fn → p.written = false → p.pull = false →
      let s1 := regSet s fn rFQHEAD (v &&& 0xFFFF_FFFF#64)
      regEn s1 fn rFQCFG = true → fqRoom s1 fn = true → ∃ t, exec .fqhead s = .next t ∧ t.mem = (fqWrite s1 fn p).mem ∧
        t.xlat.faults = [{ p with written := true }] ∧
        regGet t fn rFQTAIL = BitVec.ofNat 64 (((regGet s1 fn rFQTAIL).toNat % 2 ^ 32 + 1) % 2 ^ 32)

/-- R329, R330, R346, R404 to R406, R413 and R431: the update ports and the scrubbers. SET writes an image that passes the
port's checks, with GEN and TEXTUSE as the table has them, and holds the second-stage entries of its extents; of a valid
entry it changes SIZE upward and RIGHTS alone. INVAL clears V and advances GEN, and is busy while a launch or handler names
the object; RESOLVE answers the fault that holds the tag. ASSIGN, FREE, PULLMARK and QUERY act on all of their frames or on
none; a freed block ends zeroed and clean, with its stamp advanced. -/
def Obligations.UpdatePortsAndFrames : Prop :=  (∀ (s : State) (r : Row) (host : Bool), let fn := s.ev.fn
    let tenant := fnTenant s fn
    let i := cmdIndex r
    let space := if host then 6 else 4
    (∀ old, (keepRO old (cmdImage r)).gen = old.gen ∧ (keepRO old (cmdImage r)).textuse = old.textuse ∧
      (invalidated old).valid = false ∧ (invalidated old).gen = (old.gen + 1) % 2 ^ 11) ∧
    (Commands s fn (if host then 3 else 1) r →
      (fnState s fn = 0 ∨ tableCount s tenant host ≤ i → exec (setInstr host) s = .next (portDone s fn 2)) ∧
      ∀ old, fnState s fn ≠ 0 → i < tableCount s tenant host → rdEntry s tenant (entryAddr s tenant host i) = .ok old →
        (host = false → (cmdImage r).paged = false → listMiss s tenant (cmdImage r).xlist (cmdImage r).count = none) →
        let new := keepRO old (cmdImage r)
        let code := setCode s tenant host old (cmdImage r)
        (old.valid = true → new.size < old.size ∨ new.paged ≠ old.paged ∨ new.xlist ≠ old.xlist → code = 2) ∧
        (old.valid = true → (cmdImage r).gen ≠ old.gen ∨ (cmdImage r).textuse ≠ old.textuse → code = 2) ∧
        (old.textuse ≠ 0 → hasRights new.rights rightW = true → code ≠ 0) ∧
        (host = false → new.paged = true → 2 ^ 48 < new.vbase * 16384 + new.size → code = 2) ∧
        (host = false → new.paged = false → extentsGood s tenant new = false → code ≠ 0) ∧
        (code ≠ 0 → exec (setInstr host) s = .next (portDone s fn code)) ∧
        (code = 0 → let s1 := dropDerived (writeEntry s tenant (entryAddr s tenant host i) new) tenant space i
          exec (setInstr host) s = .next (portDone (if host then s1 else markHeld s1 tenant i new) fn 0))) ∧
    (∀ new l, new.paged = false → ssEnabled s tenant = true → extentList s tenant new.xlist new.count = some l →
      ∀ x ∈ l, ∀ j, j < x.2 → (tenant, i, x.1 + 16384 * j) ∈ (markHeld s tenant i new).xlat.heldSS) ∧
    (Commands s fn (if host then 4 else 2) r →
      (fnState s fn = 0 ∨ tableCount s tenant host ≤ i → exec (invalInstr host) s = .next (portDone s fn 2)) ∧
      ∀ old, fnState s fn ≠ 0 → i < tableCount s tenant host → rdEntry s tenant (entryAddr s tenant host i) = .ok old →
        (old.valid = false → exec (invalInstr host) s = .next (portDone s fn 2)) ∧
        (old.valid = true → host = false → (∃ l ∈ s.sched.launches, l.tenant = tenant ∧ l.completed = false ∧
            (l.text = i ∨ refObj l.doneObj.toNat = i ∨ ∃ d ∈ l.deps, refObj d.1.toNat = i)) ∨
            (∃ h ∈ s.xlat.handlers, h.tenant = tenant ∧ h.text = i) →
          exec (invalInstr host) s = .next (portDone s fn 1)) ∧
        (old.valid = true → host = true ∨ objectBusy s tenant i = false →
          let s1 := dropDerived (writeEntry s tenant (entryAddr s tenant host i) (invalidated old)) tenant space i
          exec (invalInstr host) s = .next (portDone (if host then s1 else releaseHeld s1 tenant fun o => decide (o = i)) fn 0))) ∧
    (Commands s fn 5 r →
      ((∀ p ∈ s.xlat.faults, p.tag = fld r 48 16 → p.pager ≠ fn ∨ p.written = false ∨ p.pull = true) →
        exec .resolve s = .next (portDone s fn 2)) ∧
      ∀ p, s.xlat.faults.find? (fun p => decide (p.tag = fld r 48 16) && decide (p.pager = fn) && p.written && !p.pull) = some p →
        (rowByte r 32 = 0 → exec .resolve s = .next (portDone (answerFault s p 0) fn 0)) ∧
        (rowByte r 32 = 1 → exec .resolve s = .next (portDone (answerFault s p 0x06) fn 0)) ∧
        (1 < (rowByte r 32).toNat → exec .resolve s = .next (portDone s fn 2)))) ∧
  (∀ (s : State) (r : Row) (op : Nat), 1 ≤ op → op ≤ 4 → s.ev.idx < 4 → Commands s (33 + s.ev.idx) op r →
    cmdFrames s s.ev.idx (scAddr r) (scCount r) = none →
    exec (scrubInstr op) s = .next (portDone s (33 + s.ev.idx) 2)) ∧
  (∀ (s : State) (r : Row) (l : List (Nat × List (Nat × Nat))), let id := 33 + s.ev.idx
    let bs := (l.map (·.2)).flatten
    (OnFrames s 1 r l →
      ((∃ b ∈ bs, blkState s b ≠ 0) → exec .assign s = .next (portDone s id 3)) ∧
      ((∀ b ∈ bs, blkState s b = 0) → ∃ t, exec .assign s = .next t ∧ EndsWith t id 0 ∧ t.mem = s.mem ∧
        ∀ b ∈ bs, blkState t b = 1 ∧ blkOwner t b = scOwner r)) ∧
    (OnFrames s 2 r l →
      ((∃ b ∈ bs, blkState s b ≠ 1) → exec .free s = .next (portDone s id 3)) ∧
      ((∀ b ∈ bs, blkState s b = 1 ∧ ∀ w ∈ s.host.withdrawn, ¬(w.1 = b.1 ∧ w.2.1 = b.2)) →
        ((∃ x ∈ l, ∃ b ∈ x.2, frameInExtent s (blkOwner s b) x.1 = true) → exec .free s = .next (portDone s id 1)) ∧
        ((∀ x ∈ l, ∀ b ∈ x.2, frameInExtent s (blkOwner s b) x.1 = false) →
          exec .free s = .next (portDone (bs.foldl freeBlock s) id 0)))) ∧
    (OnFrames s 3 r l →
      ((∃ b ∈ bs, blkState s b ≠ 1) → exec .pullmark s = .next (portDone s id 2)) ∧
      ((∀ b ∈ bs, blkState s b = 1) → ∃ t, exec .pullmark s = .next t ∧ EndsWith t id 0 ∧ t.mem = s.mem ∧
        ∀ b ∈ bs, (frameRec t b.1 b.2).getLsbD 2 = true ∧ blkState t b = 1)) ∧
    (∀ x rest, OnFrames s 4 r l → l = x :: rest →
      ∃ t, exec .query s = .next t ∧ EndsWith t id 0 ∧ t.xlat = s.xlat ∧ t.mem = s.mem ∧
        fld (portOf t id).latched 256 256 =
          (mapNth (fun i b => (frameRec s b.1 b.2).toNat * 2 ^ (32 * i)) 0 x.2).sum % 2 ^ 256)) ∧
  ∀ s : State, let b := (s.ev.kind, s.ev.unit)
    (blkState s b = 0 ∨ blkState s b = 1 → exec .blockScrub s = .next s) ∧
    (blkState s b = 2 → s.keyed = [] → ∃ t, exec .blockScrub s = .next t ∧ blkState t b = 3 ∧ t.mem = s.mem) ∧
    (blkState s b = 3 → ∃ t, exec .blockScrub s = .next t ∧ blkState t b = 0 ∧
      fld (frameRec t b.1 b.2) 16 16 = (fld (frameRec s b.1 b.2) 16 16 + 1) % 2 ^ 16 ∧
      (∀ i, i < 4096 → memGet t.mem (hbmKey b.1 (4096 * b.2) + i) = 0) ∧
      ∀ k, k < hbmKey b.1 (4096 * b.2) ∨ hbmKey b.1 (4096 * b.2) + 4096 ≤ k → memGet t.mem k = memGet s.mem k)

/-- R384, R385, R398 to R400, R408 to R415, R428 and R438: the tenant port, the group port and live moves. ACTIVATE makes a
free function active; RESET and TEARDOWN drain it, and end with its generation advanced; FREEZE and THAW go to frozen and
back; ADMIT takes a moved function in, its contexts and frames are sent and arrive once, in the order of the pull list but
for frames that something waits for, and RELEASE lets the source go when nothing is left. GALLOC binds the lowest free
number and GRELEASE ends it; a member that does not return is withdrawn; an attestation report stands in the window of the
function that asked. Which argument bytes name a peer or a group is left open (log entry 39). -/
def Obligations.TenantPortAndMoves : Prop :=  (∀ (s : State) (f : Nat) (r : Row), let tenant := fnTenant s f
    (TenantCommand s 1 f r →
      (mayActivate s f = true → ∃ t, exec .activate s = .next t ∧ fnState t f = 1 ∧ EndsWith t 32 0) ∧
      (mayActivate s f = false → exec .activate s = .next (portDone s 32 2)) ∧
      (fnState s f ≠ 0 ∨ (∃ g, g < 32 ∧ g ≠ f ∧ fnState s g ≠ 0 ∧ fnTenant s g = tenant) → mayActivate s f = false)) ∧
    (∀ op i, (op = 2 ∧ i = .reset) ∨ (op = 3 ∧ i = .teardown) → TenantCommand s op f r →
      (fnState s f = 0 ∨ fnState s f = 2 → exec i s = .next (portDone s 32 2)) ∧
      (fnState s f = 1 ∨ fnState s f = 3 → ∃ t, exec i s = .next t ∧ t = beginReset (portBegin s 32) f ∧
        ∀ p ∈ t.crews, p.2.tenant ≠ tenant)) ∧
    (fnGen (advanceGen s f) f = (fnGen s f + 1) % 256 ∧ ∀ e ∈ (advanceGen s f).xlat.tlb, e.tenant ≠ tenant) ∧
    (TenantCommand s 4 f r →
      (fnState s f ≠ 1 → exec .freeze s = .next (portDone s 32 2)) ∧
      (fnState s f = 1 → ∀ v, moveOf s f true = some v → allPulled v = false → exec .freeze s = .next (portDone s 32 1)) ∧
      (fnState s f = 1 → (∀ v, moveOf s f true = some v → allPulled v = true) →
        ((∀ p ∈ s.crews, p.2.tenant ≠ tenant) → ∃ t v, exec .freeze s = .next t ∧ fnState t f = 3 ∧ EndsWith t 32 0 ∧
          moveOf t f false = some v ∧ v.stubs = [cidOf s tenant] ∧ v.transferred = false) ∧
        ((∃ p ∈ s.crews, p.2.tenant = tenant) → exchangesClosed s tenant = false → ∃ t, exec .freeze s = .next t ∧
          fnState t f = 3 ∧ t.crews = s.crews ∧ (portOf t 32).run = true ∧ (portOf t 32).begun = true))) ∧
    (TenantCommand s 5 f r →
      (mayActivate s f = true → ∃ t v, exec .admitMove s = .next t ∧ fnState t f = 1 ∧ (portOf t 32).run = true ∧
        moveOf t f true = some v ∧ v.transferred = false ∧ v.newCid = cidOf t tenant) ∧
      (mayActivate s f = false → exec .admitMove s = .next (portDone s 32 2))) ∧
    (TenantCommand s 6 f r →
      (fnState s f ≠ 3 → exec .release s = .next (portDone s 32 2)) ∧
      (fnState s f = 3 → (∀ v, moveOf s f false = some v → v.transferred = false ∨ allPulled v = false ∨ v.stubs ≠ []) →
        exec .release s = .next (portDone s 32 1)) ∧
      (fnState s f = 3 → ∀ v, moveOf s f false = some v → v.transferred = true → allPulled v = true → v.stubs = [] →
        exec .release s = .next (startDrain (discardWork (setFnState (portBegin s 32) f 2) tenant) f))) ∧
    (TenantCommand s 7 f r →
      (fnState s f ≠ 3 ∨ (∃ v, moveOf s f false = some v ∧ v.resumed = true) → exec .thaw s = .next (portDone s 32 2)) ∧
      (fnState s f = 3 → (∀ v, moveOf s f false = some v → v.resumed = false) → ∃ t, exec .thaw s = .next t ∧ fnState t f = 1 ∧
        t.sched.saved = s.sched.saved ∧ (∀ v ∈ t.host.moves, v.fn ≠ f) ∧
        (frozenLeft s tenant = false → EndsWith t 32 0) ∧ (frozenLeft s tenant = true → (portOf t 32).run = true)))) ∧
  (∀ s : State, let f := s.ev.fn
    (fnState s f ≠ 2 ∨ drained s (cidOf s (fnTenant s f)) = false → exec .cidDrainComplete s = .next s) ∧
    (fnState s f = 2 → drained s (cidOf s (fnTenant s f)) = true → ∃ t, exec .cidDrainComplete s = .next t ∧
      fnState t f = (if portOpFor s f = 3 ∨ portOpFor s f = 6 then 0 else 1) ∧
      (portOpFor s f ≠ 0 → (portOf t 32).run = false)) ∧
    (∀ v, moveOf s f true = none → moveOf s f false = some v →
      (∀ x, s.ev.flag = false → s.ev.image = some x → v.transferred = false → (∀ p ∈ s.crews, p.2.tenant ≠ fnTenant s f) →
        exec .liveMoveTransfer s = .next
          (setMove s { v with transferred := true, pulls := x.pulls.map (fun p => (p.1, p.2, false)), newCid := x.newCid
                              image := some (moveImage s f x.pulls x.newCid) })) ∧
      (s.ev.flag = true → v.transferred = true → v.resumed = false → ∃ t, exec .liveMoveTransfer s = .next t ∧
        moveOf t f false = some { v with resumed := true } ∧ ∀ l ∈ t.sched.launches, l.tenant ≠ fnTenant s f) ∧
      (∀ a b g, v.pulls[s.ev.idx]? = some (a, b, g) →
        (v.transferred = false ∨ g = true → exec .pullFrame s = .next s) ∧
        (v.transferred = true → g = false → (∀ x ∈ s.resting, ∀ y ∈ (frameBlocks s b).getD [], inBlock y x.key = false) →
          ∃ rows marks, exec .pullFrame s = .next
              (setMove s { v with pulls := setNth v.pulls s.ev.idx (a, b, true), sent := v.sent ++ [(a, rows, marks)] }) ∧
            ∀ k, k < 256 → rows[k]? = some (BitVec.ofNat 512 (memReadN s.mem (physKey s (b + 64 * k)) 64)) ∧
              (k ∈ marks ↔ isPoisoned s (physKey s (b + 64 * k)) = true))) ∧
      exec .stubClear s = .next (setMove s { v with stubs := [] })) ∧
    ∀ v, moveOf s f true = some v →
      (∀ x, s.ev.image = some x → v.transferred = false → ∃ t, exec .liveMoveTransfer s = .next t ∧
        t.sched.launches = s.sched.launches ++
          x.launches.map (fun l => { l with id := s.sched.nextLaunch + l.id, fn := f, tenant := fnTenant s f }) ∧
        t.sched.saved.map (fun c : SavedCtx => { c with group := none }) = (s.sched.saved ++ mapNth (fun i (c : SavedCtx) => { c with
          launch := s.sched.nextLaunch + c.launch, order := s.sched.nextOrder + i }) 0 x.saved).map (fun c : SavedCtx => { c with group := none }) ∧
        (∀ y ∈ t.sched.saved, ∀ l, launchById t y.launch = some l → l.tenant = fnTenant s f → 1 < levelUnit l l.migl →
          y.group = some (migUnit l y.rank)) ∧
        t.keyed = s.keyed ++ x.keyed.map fun k => { k with launch := s.sched.nextLaunch + k.launch, key := physKey s k.key }) ∧
      ∀ a b, v.pulls[s.ev.idx]? = some (a, b, false) →
        (frameWanted s a = false → (∃ p ∈ v.pulls.take s.ev.idx, p.2.2 = false) → exec .pullFrame s = .next s) ∧
        (frameWanted s a = true ∨ (∀ p ∈ v.pulls.take s.ev.idx, p.2.2 = true) →
        (s.ev.flag = true → exec .pullFrame s = .next ((pullFaults s a).foldl (fun s p => answerFault s p 0x11) (loseLate s a))) ∧
        (s.ev.flag = false → s.xlat.faults = [] → s.sched.late = [] → s.sched.textLate = [] → s.keyed = [] → v.image = none → ∃ t, exec .pullFrame s = .next t ∧
          t.mem = ((List.range 256).foldl (fun s k => writeUnit s (physKey s (a + 64 * k)) 64 (s.ev.rows.getD k 0).toNat) s).mem ∧
          (∀ b ∈ (frameBlocks s a).getD [], (frameRec t b.1 b.2).getLsbD 2 = false)))) ∧
  (∀ (s : State) (r : Row),
    (Commands s 37 1 r → ∃ t, exec .galloc s = .next t ∧ (portOf t 37).run = false ∧
      ∀ tenant kind members dones n, Config.groupImage r = some (tenant, kind, members, dones) → members ≠ [] →
        members.length ≤ 64 → dones.length = members.length → kind < 2 → n < 4096 →
        (∀ g ∈ s.fabric.groups, g.num = n → g.live = false) →
        (∀ m, m < n → ∃ g ∈ s.fabric.groups, g.num = m ∧ g.live = true) →
        ∃ g ∈ t.fabric.groups, g.num = n ∧ g.live = true ∧ g.tenant = tenant ∧ g.members = members ∧ g.dones = dones) ∧
    (Commands s 37 2 r →
      ((∀ g ∈ s.fabric.groups, g.num = cmdIndex r → g.live = false) → exec .grelease s = .next (portDone s 37 2)) ∧
      ∀ g, s.fabric.groups.find? (fun g => decide (g.num = cmdIndex r) && g.live) = some g →
        ((∃ m ∈ s.fabric.msgs, m.peer.testBit 62 = true ∧ bitsOf m.peer 4 12 = g.num) →
          exec .grelease s = .next (portDone s 37 1)) ∧
        ((∀ m ∈ s.fabric.msgs, ¬(m.peer.testBit 62 = true ∧ bitsOf m.peer 4 12 = g.num)) → g.kept = [] →
          let released := portDone (setGroup s { g with live := false, gen := (g.gen + 1) % 16 }) 37 0
          ((∀ d ∈ g.members, d = Config.deviceNumber) → exec .grelease s = .next released) ∧
          ((∃ d ∈ g.members, d ≠ Config.deviceNumber) → exec .grelease s =
            .next (if Config.memberOutstanding s.freeCtr then portDone { s with freeCtr := s.freeCtr + 1 } 37 1 else released))))) ∧
  (∀ s : State, (∀ g ∈ s.fabric.groups, ¬(g.live = true ∧ s.ev.idx ∈ g.resting ∧ s.ev.idx ∈ g.members)) →
    exec .memberReturnTimeout s = .next (endExchange s)) ∧
  (∀ (s : State) (g : Group), g.live = true → s.ev.idx ∈ g.resting → s.ev.idx ∈ g.members →
    s.fabric.groups.filter (fun g => g.live && g.resting.contains s.ev.idx && g.members.contains s.ev.idx) = [g] →
    exec .memberReturnTimeout s = .next (endExchange (withdrawMember s g s.ev.idx))) ∧
  ∀ s : State, s.ev.fn < 32 → (portOf s (40 + s.ev.fn)).run = true → regsAnswer s = true →
    ∃ t, exec .attestationRequest s = .next t ∧ EndsWith t (40 + s.ev.fn) 0 ∧ t.mem = s.mem ∧ t.regs = s.regs ∧
      (asGet t.host.reports s.ev.fn).isSome = true

/-- R279, R312, R319, R327, R378, R394, R398, R401, R403, R430, R431, R435 and R439: writes of the register block. A plain
register takes its writable bits and keeps the rest at zero; a command row is staged, and its first eight bytes start the
command or mark it lost; STATO is at least 16, PWRCAP stays in its range, EN of a queue waits for valid retention, TENCFG
changes only what its state lets it; a slice group that stops admitting a tenant, and a changed Commons share, read zero. -/
def Obligations.RegisterWrites : Prop :=  (∀ s : State, let fn := s.ev.fn
    let off := s.ev.off
    let v := s.ev.v
    let boot := fn = 0 ∧ (off = rBOOTADDR ∨ off = rBOOTLEN)
    (off % 8 ≠ 0 ∨ 32 ≤ fn ∨ (regsAnswer s = false ∧ ¬(s.power = .bootstrap ∧ boot)) → exec .registerWrite s = .next s) ∧
    (off % 8 = 0 → fn < 32 → regsAnswer s = true ∨ (s.power = .bootstrap ∧ boot) → portAt fn off = none → off ≠ rDEQACK →
      (plainMask fn off = none → exec .registerWrite s = .next s) ∧
      ∀ m, plainMask fn off = some m → ∃ t, exec .registerWrite s = .next t ∧ regGet t fn off = v &&& m ∧ t.mem = s.mem ∧
        ∀ f o, o < 2 ^ 16 → off < 2 ^ 16 → (f ≠ fn ∨ o ≠ off) → regGet t f o = regGet s f o) ∧
    (off = rDEQACK → fn < 32 → regsAnswer s = true → ∃ t, exec .registerWrite s = .next t ∧
      regGet t fn rDEQACK = v &&& 0xFFFF_FFFF#64) ∧
    ∀ id b, off % 8 = 0 → fn < 32 → regsAnswer s = true → portAt fn off = some (id, b) → ∃ t, exec .registerWrite s = .next t ∧
      let p := portOf s id
      let q := portOf t id
      let row := setFld p.staged 0 64 v.toNat
      (b ≠ 0 → q.staged = setFld p.staged (8 * b) 64 v.toNat ∧ q.run = p.run ∧ q.latched = p.latched) ∧
      (b = 0 → p.run = true → q.lost = true ∧ q.run = true ∧ q.latched = p.latched) ∧
      (b = 0 → p.run = false → q.latched = row ∧ q.lost = false ∧ q.tag = fld row 48 16 ∧ q.staged = 0 ∧
        (portEvent id (cmdOp row) = none → q.run = false ∧ q.code = 2) ∧
        ∀ i a, portEvent id (cmdOp row) = some (i, a) → q.run = true ∧ t.agenda = s.agenda ++ [.event i a])) ∧
  (∀ s : State, regsAnswer s = true → let v := s.ev.v
    (∃ t, exec .statoWrite s = .next t ∧ (regGet t 0 rSTATO).toNat = max (v.toNat % 2 ^ 16) 16) ∧
    (let w := v.toNat % 2 ^ 16
     (w = 0 ∨ (600 ≤ w ∧ w ≤ 2800) → ∃ t, exec .pwrcapWrite s = .next t ∧ (regGet t 0 rPWRCAP).toNat = w) ∧
     (w ≠ 0 ∧ (w < 600 ∨ 2800 < w) → exec .pwrcapWrite s = .next s)) ∧
    (s.ev.queue < 64 → ∃ t, exec .lqcfgWrite s = .next t ∧ let x := regGet t 0 (rLQCFG s.ev.queue)
      (∀ b, 1 ≤ b → x.getLsbD b = (v &&& 0xF0_FF0F#64).getLsbD b) ∧
      x.getLsbD 0 = (if s.host.retValid = 15 then v.getLsbD 0
        else v.getLsbD 0 && (regGet s 0 (rLQCFG s.ev.queue)).getLsbD 0)) ∧
    (s.ev.idx < 4 → ∃ t, exec .retcfgWrite s = .next t ∧
      regGet t 0 (rRETCFG s.ev.idx) = v &&& 0x80FF_FFFF_FFFF_C000#64 ∧ t.host.retValid.getLsbD s.ev.idx = retJudge t s.ev.idx ∧
      ∀ q, q ≠ s.ev.idx → t.host.retValid.getLsbD q = s.host.retValid.getLsbD q) ∧
    (s.ev.core < 256 → ∃ t, exec .spcoreWrite s = .next t ∧ regGet t 0 (rSPCORE s.ev.core) = v &&& 0x3_FFFF#64 ∧
      t.crews = s.crews) ∧
    (s.ev.die < 8 → s.ev.idx < 8 → ∃ t, exec .spsliceWrite s = .next t ∧ let old := regGet s 0 (rSPSLICE s.ev.die s.ev.idx)
      regGet t 0 (rSPSLICE s.ev.die s.ev.idx) = v &&& 0x1FF#64 ∧
      (v.getLsbD 8 = true ∨ (old.getLsbD 8 = false ∧ fld old 0 8 = fld v 0 8) → t.mem = s.mem) ∧
      (v.getLsbD 8 = false → old.getLsbD 8 = true ∨ fld old 0 8 ≠ fld v 0 8 → ∀ o, o < 2 ^ 25 →
        memGet t.mem (commonsKey s.ev.die o) =
          if commonsSlice s s.ev.die o / 16 = s.ev.idx then 0 else memGet s.mem (commonsKey s.ev.die o))) ∧
    (∀ off, s.ev.off = off → off = rOTBASE ∨ off = rFSROOT ∨ off = rRMBASE ∨ off = rHTBASE ∨ off = rBDBASE → s.ev.fn < 32 →
      ∃ t, exec .translationRegisterWrite s = .next t ∧ regGet t s.ev.fn off = v &&& xlatMask off ∧ t.mem = s.mem ∧
        ∀ e ∈ t.xlat.tlb, e.tenant ≠ fnTenant s s.ev.fn) ∧
    (∀ g, g < 32 → s.ev.fn = 0 → s.ev.off = rSSROOTf g → ∃ t, exec .translationRegisterWrite s = .next t ∧
      regGet t 0 (rSSROOTf g) = v &&& 0x8000_00FF_FFFF_0000#64 ∧ ∀ e ∈ t.xlat.tlb, e.tenant ≠ fnTenant s g) ∧
    (let f := s.ev.fn
     f < 32 → ∃ t, exec .tencfgWrite s = .next t ∧ fnState t f = fnState s f ∧ fnGen t f = fnGen s f ∧
      fld (tencfg t f) 25 2 = fld v 25 2 ∧ fnTenant t f = (if fnState s f = 0 then fld v 8 8 else fnTenant s f) ∧
      fnPart t f = (if fnState s f = 0 ∧ f ≠ 0 ∧ partMask (fld v 32 4) = true then fld v 32 4 else fnPart s f))) ∧
  ∀ s : State, s.ev.die < 8 → s.ev.kind < 3 →
    ((∃ p ∈ s.crews, dieOf (p.1 / 2) = s.ev.die) → exec .commonsShareChange s = .next s) ∧
    ((∀ p ∈ s.crews, dieOf (p.1 / 2) ≠ s.ev.die) → ∃ t, exec .commonsShareChange s = .next t ∧
      commonsBytes t s.ev.die =
        (presentSlices s s.ev.die).length * (if s.ev.kind = 0 then 0 else if s.ev.kind = 1 then 2 ^ 17 else 2 ^ 18) ∧
      ∀ o, o < 2 ^ 25 → memGet t.mem (commonsKey s.ev.die o) = 0)

/-- R421 to R426, R429 and R435 to R440: power, errors and repairs. A cold start leaves every register at reset and host
memory as it is, with the repair list and the fused minimum; an image that passes is measured and started, and the repair
list is applied (the order of the checks and the minimum at reset are the model's, log 103; what R426 leaves of the image is
free); a warning starts a suspend, whose end is retention, from which a resume goes on and a loss of power does not; a
critical temperature stops the device. A corrected error changes nothing; an uncorrectable one poisons its unit, ends its
crew, drops its entry or closes placement; a lasting one takes its unit away. -/
def Obligations.PowerAndErrors : Prop :=  (∀ s : State, (∃ t, exec .coldStart s = .next t ∧ t.power = .bootstrap ∧ t.regs = [] ∧ t.crews = [] ∧
      t.sched = State.reset.sched ∧ t.xlat = State.reset.xlat ∧ t.host.hostsel = s.ev.flag ∧ t.host.repairs = s.host.repairs ∧
      t.host.minVersion = s.host.minVersion ∧
      ∀ k, memGet t.mem k = if hostKey 0 ≤ k then memGet s.mem k else 0) ∧
    (s.power ≠ .bootstrap ∨ regGet s 0 rBOOTLEN = 0 → exec .bootImageLoad s = .next s) ∧
    (s.power = .bootstrap → regGet s 0 rBOOTLEN ≠ 0 → ∃ t, exec .bootImageLoad s = .next t ∧
      let img := bootImage s
      let h := Config.bootHeader img
      let code :=
        if s.ev.flag then 5
        else if h.magic ≠ 0x4E594431 ∨ h.length ≠ img.length then 1
        else if Config.fusedKey h.keyIndex ≠ some (BitVec.ofNat 384 (leNat (sha384 h.publicKey))) then 2
        else if h.version.toNat < s.host.minVersion.toNat then 3
        else if Config.bootSigned img h.publicKey (sha384 (Config.bootBody img)) = false then 4
        else 0
      (code ≠ 0 ∨ s.crews = [] → regGet t 0 rBOOTSTAT = BitVec.ofNat 64 code) ∧ (code ≠ 0 → t.power = .bootstrap ∧ t.mem = s.mem) ∧
      (code = 0 → s.crews = [] → t.power = .run ∧ t.host.measurement = BitVec.ofNat 384 (leNat (sha384 (Config.bootBody img))) ∧
        (s.host.repairs = [] → s.host.retiring = [] → t.mem = s.mem) ∧
        ∀ r ∈ s.host.repairs, r.kind = 3 → r.spent = true → corePresent t r.core = false)) ∧
    (s.power ≠ .run → exec .pwrwarn s = .next s) ∧
    (s.power = .run → ∃ t, exec .pwrwarn s = .next t ∧ t.power = .suspending 0 none ∧ ∀ p ∈ t.crews, p.2.ctl.preq = true) ∧
    (∀ p w, s.power = .suspending p w →
      (s.crews ≠ [] ∨ fabricQuiet s = false → exec .suspendSequence s = .next s) ∧
      (s.crews = [] → fabricQuiet s = true → ∃ t, exec .suspendSequence s = .next t ∧ t.power = .retention ∧ t.tags = [] ∧
        t.monitors = [] ∧ t.xlat.tlb = [] ∧ t.xlat.pins = [])) ∧
    (s.power ≠ .retention → exec .resumeRequest s = .next s ∧ exec .powerLost s = .next s) ∧
    (s.power = .retention → (∃ t, exec .resumeRequest s = .next t ∧ t.power = .run ∧ t.mem = s.mem ∧ t.regs = s.regs ∧
        t.sched = s.sched ∧ t.xlat = s.xlat ∧
        (t.host.exchange = true ↔ ∃ g ∈ s.fabric.groups, g.live = true ∧ g.withdrawn = false ∧ g.resting ≠ []) ∧
        (t.host.exchange = true → frontEndsOpen t = false ∧ ∀ (l : Launch) c sl, slotEligible t l c sl false = false)) ∧
      ∃ t, exec .powerLost s = .next t ∧ t.power = .off ∧ t.regs = [] ∧ t.crews = [] ∧ t.sched = State.reset.sched) ∧
    (s.power = .off → exec .criticalTemperature s = .next s) ∧
    (s.power ≠ .off → ∃ t, exec .criticalTemperature s = .next t ∧ t.power = .thermal ∧ t.crews = [] ∧
      t.sched = State.reset.sched)) ∧
  (∀ s : State, let f := s.ev.fn
    (regsAnswer s = false ∨ 32 ≤ f → exec .functionLevelReset s = .next s) ∧
    (regsAnswer s = true → f < 32 → f ≠ 0 →
      (fnState s f = 1 ∨ fnState s f = 3 → exec .functionLevelReset s = .next (beginReset (stopFetch s f) f)) ∧
      (fnState s f = 0 ∨ fnState s f = 2 → exec .functionLevelReset s = .next (stopFetch s f))) ∧
    (regsAnswer s = true → f = 0 → exec .functionLevelReset s =
      .next (((List.range 32).filter fun g => decide (fnState s g = 1)).foldl beginReset (stopFetch s 0)))) ∧
  (∀ s : State, let core := s.ev.core
    let slot := s.ev.slot
    exec .patrolScrub s = .next s ∧
    (s.ev.flag = true ∨ regsAnswer s = false → exec .hardwareError s = .next s) ∧
    (s.ev.flag = false → regsAnswer s = true →
      (s.ev.kind = 1 → ∃ t, exec .hardwareError s = .next t ∧ isPoisoned t s.ev.off = true) ∧
      (s.ev.kind = 2 → ∃ t, exec .hardwareError s = .next t ∧ isPoisoned t (s.ev.off / 128 * 128) = true ∧
        isPoisoned t (s.ev.off / 128 * 128 + 64) = true) ∧
      (s.ev.kind = 3 → s.ev.idx = 0 → ∃ t, exec .hardwareError s = .next t ∧ isPoisoned t s.ev.off = true) ∧
      (∀ k c, s.ev.kind = 3 → s.ev.idx = k + 1 → crewAt s core slot = some c → ∃ t, exec .hardwareError s = .next t ∧
        unitPoisoned t core slot k s.ev.unit = true) ∧
      (∀ c, s.ev.kind = 4 → crewAt s core slot = some c →
        exec .hardwareError s = .next (endCrew s core slot c (faultInfo c (engOfCode s.ev.unit) 0x18 0) 0) ∧
        crewAt (endCrew s core slot c (faultInfo c (engOfCode s.ev.unit) 0x18 0) 0) core slot = none) ∧
      (s.ev.kind = 5 → ∃ t, exec .hardwareError s = .next t ∧ t.xlat.tlb = delNth s.xlat.tlb s.ev.idx ∧ t.mem = s.mem) ∧
      (s.ev.kind = 7 → ∃ t, exec .hardwareError s = .next t ∧ t.host.cloveError = true ∧ t.mem = s.mem ∧
        ∀ (l : Launch) c sl, slotEligible t l c sl false = false)) ∧
    (regsAnswer s = true → ∃ t, exec .linkDown s = .next t ∧ (∀ k ∈ t.fabric.links, k.id = s.ev.unit → k.up = false) ∧
      (7 ≤ s.ev.unit → s.ev.unit ≤ 10 → (regGet t 0 rPRESPORT).getLsbD (s.ev.unit - 7) = false) ∧
      (16 ≤ s.ev.unit → s.ev.unit ≤ 19 → (regGet t 0 rPRESPORT).getLsbD (s.ev.unit - 12) = false)) ∧
    (regsAnswer s = true → s.ev.flag = false → s.ev.idx = 1 → exec .selfTestVerdict s = .next s) ∧
    (regsAnswer s = true → s.ev.flag = true →
      (s.ev.kind = 1 ∨ s.ev.kind = 2 ∨ s.ev.kind = 3 → s.ev.v.getLsbD 0 = false → ∃ t, exec .selfTestVerdict s = .next t ∧
        t.host.repairs = s.host.repairs ++ [⟨s.ev.kind, s.ev.off, s.ev.die, s.ev.unit, core, false, s.ev.slots⟩] ∧ t.regs = s.regs ∧ t.mem = s.mem) ∧
      (s.ev.kind = 1 → s.ev.v.getLsbD 0 = true → ∃ t, exec .selfTestVerdict s = .next t ∧
        ∀ b ∈ s.ev.slots, ∃ o, (b.1, b.2, o) ∈ t.host.withdrawn) ∧
      (s.ev.kind = 2 → s.ev.v.getLsbD 0 = true → ∃ t, exec .selfTestVerdict s = .next t ∧
        (s.ev.die, s.ev.unit) ∈ t.host.retiring) ∧
      (s.ev.kind = 3 → s.ev.v.getLsbD 0 = true → crewAt s core 0 = none → crewAt s core 1 = none →
        ∃ t, exec .selfTestVerdict s = .next t ∧ corePresent t core = false) ∧
      (s.ev.kind = 7 → ∃ t, exec .selfTestVerdict s = .next t ∧
        (regGet t 0 rPRESPORT).getLsbD (8 + s.ev.unit % 32) = false)) ∧
    ((s.ev.die, s.ev.unit) ∉ s.host.retiring → exec .sliceRetirement s = .next s) ∧
    ((s.ev.die, s.ev.unit) ∈ s.host.retiring → s.sched.quiesce.getLsbD (s.ev.die / 2) = true → crewsIn s (s.ev.die / 2) = [] →
      s.ev.unit < 128 → ∃ t, exec .sliceRetirement s = .next t ∧ (s.ev.die, s.ev.unit) ∉ t.host.retiring ∧
        (regGet t 0 (if s.ev.unit < 64 then rPRESSLICE s.ev.die else rPRESSLICEH s.ev.die)).getLsbD (s.ev.unit % 64) = false))
end

