-- ==== Sys2Proof/Laws/State.lean ====
section
/-!
SUPPORT. Laws/State.lean: one lemma per field per update of a state, a crew and a stream, so that no proof unfolds a
record update.
-/
namespace Sys2Proof.Machine

/-! ### putCrew -/

@[simp] theorem putCrew_cycle (s : State) (core slot : Nat) (c : Crew) : (putCrew s core slot c).cycle = s.cycle := rfl
@[simp] theorem putCrew_agenda (s : State) (core slot : Nat) (c : Crew) : (putCrew s core slot c).agenda = s.agenda := rfl
@[simp] theorem putCrew_freeCtr (s : State) (core slot : Nat) (c : Crew) : (putCrew s core slot c).freeCtr = s.freeCtr := rfl
@[simp] theorem putCrew_cur (s : State) (core slot : Nat) (c : Crew) : (putCrew s core slot c).cur = s.cur := rfl
@[simp] theorem putCrew_ev (s : State) (core slot : Nat) (c : Crew) : (putCrew s core slot c).ev = s.ev := rfl
@[simp] theorem putCrew_part (s : State) (core slot : Nat) (c : Crew) : (putCrew s core slot c).part = s.part := rfl
@[simp] theorem putCrew_mem (s : State) (core slot : Nat) (c : Crew) : (putCrew s core slot c).mem = s.mem := rfl
@[simp] theorem putCrew_tags (s : State) (core slot : Nat) (c : Crew) : (putCrew s core slot c).tags = s.tags := rfl
@[simp] theorem putCrew_left (s : State) (core slot : Nat) (c : Crew) : (putCrew s core slot c).left = s.left := rfl
@[simp] theorem putCrew_turns (s : State) (core slot : Nat) (c : Crew) : (putCrew s core slot c).turns = s.turns := rfl
@[simp] theorem putCrew_regs (s : State) (core slot : Nat) (c : Crew) : (putCrew s core slot c).regs = s.regs := rfl
@[simp] theorem putCrew_resting (s : State) (core slot : Nat) (c : Crew) : (putCrew s core slot c).resting = s.resting := rfl
@[simp] theorem putCrew_keyed (s : State) (core slot : Nat) (c : Crew) : (putCrew s core slot c).keyed = s.keyed := rfl
@[simp] theorem putCrew_keyedDone (s : State) (core slot : Nat) (c : Crew) : (putCrew s core slot c).keyedDone = s.keyedDone := rfl
@[simp] theorem putCrew_monitors (s : State) (core slot : Nat) (c : Crew) : (putCrew s core slot c).monitors = s.monitors := rfl
@[simp] theorem putCrew_sched (s : State) (core slot : Nat) (c : Crew) : (putCrew s core slot c).sched = s.sched := rfl
@[simp] theorem putCrew_fabric (s : State) (core slot : Nat) (c : Crew) : (putCrew s core slot c).fabric = s.fabric := rfl
@[simp] theorem putCrew_xlat (s : State) (core slot : Nat) (c : Crew) : (putCrew s core slot c).xlat = s.xlat := rfl
@[simp] theorem putCrew_host (s : State) (core slot : Nat) (c : Crew) : (putCrew s core slot c).host = s.host := rfl
@[simp] theorem putCrew_power (s : State) (core slot : Nat) (c : Crew) : (putCrew s core slot c).power = s.power := rfl
@[simp] theorem putCrew_crews (s : State) (core slot : Nat) (c : Crew) :
    (putCrew s core slot c).crews = asSet s.crews (2 * core + slot) c := rfl

/-! ### dropCrew -/

@[simp] theorem dropCrew_cycle (s : State) (core slot : Nat) : (dropCrew s core slot).cycle = s.cycle := rfl
@[simp] theorem dropCrew_agenda (s : State) (core slot : Nat) : (dropCrew s core slot).agenda = s.agenda := rfl
@[simp] theorem dropCrew_freeCtr (s : State) (core slot : Nat) : (dropCrew s core slot).freeCtr = s.freeCtr := rfl
@[simp] theorem dropCrew_cur (s : State) (core slot : Nat) : (dropCrew s core slot).cur = s.cur := rfl
@[simp] theorem dropCrew_ev (s : State) (core slot : Nat) : (dropCrew s core slot).ev = s.ev := rfl
@[simp] theorem dropCrew_part (s : State) (core slot : Nat) : (dropCrew s core slot).part = s.part := rfl
@[simp] theorem dropCrew_mem (s : State) (core slot : Nat) : (dropCrew s core slot).mem = s.mem := rfl
@[simp] theorem dropCrew_tags (s : State) (core slot : Nat) : (dropCrew s core slot).tags = s.tags := rfl
@[simp] theorem dropCrew_left (s : State) (core slot : Nat) : (dropCrew s core slot).left = s.left := rfl
@[simp] theorem dropCrew_turns (s : State) (core slot : Nat) : (dropCrew s core slot).turns = s.turns := rfl
@[simp] theorem dropCrew_regs (s : State) (core slot : Nat) : (dropCrew s core slot).regs = s.regs := rfl
@[simp] theorem dropCrew_resting (s : State) (core slot : Nat) : (dropCrew s core slot).resting = s.resting := rfl
@[simp] theorem dropCrew_keyed (s : State) (core slot : Nat) : (dropCrew s core slot).keyed = s.keyed := rfl
@[simp] theorem dropCrew_keyedDone (s : State) (core slot : Nat) : (dropCrew s core slot).keyedDone = s.keyedDone := rfl
@[simp] theorem dropCrew_monitors (s : State) (core slot : Nat) : (dropCrew s core slot).monitors = s.monitors := rfl
@[simp] theorem dropCrew_sched (s : State) (core slot : Nat) : (dropCrew s core slot).sched = s.sched := rfl
@[simp] theorem dropCrew_fabric (s : State) (core slot : Nat) : (dropCrew s core slot).fabric = s.fabric := rfl
@[simp] theorem dropCrew_xlat (s : State) (core slot : Nat) : (dropCrew s core slot).xlat = s.xlat := rfl
@[simp] theorem dropCrew_host (s : State) (core slot : Nat) : (dropCrew s core slot).host = s.host := rfl
@[simp] theorem dropCrew_power (s : State) (core slot : Nat) : (dropCrew s core slot).power = s.power := rfl
@[simp] theorem dropCrew_crews (s : State) (core slot : Nat) :
    (dropCrew s core slot).crews = asDel s.crews (2 * core + slot) := rfl

/-! ### regSet -/

@[simp] theorem regSet_cycle (s : State) (fn off : Nat) (v : Word) : (regSet s fn off v).cycle = s.cycle := rfl
@[simp] theorem regSet_agenda (s : State) (fn off : Nat) (v : Word) : (regSet s fn off v).agenda = s.agenda := rfl
@[simp] theorem regSet_freeCtr (s : State) (fn off : Nat) (v : Word) : (regSet s fn off v).freeCtr = s.freeCtr := rfl
@[simp] theorem regSet_cur (s : State) (fn off : Nat) (v : Word) : (regSet s fn off v).cur = s.cur := rfl
@[simp] theorem regSet_ev (s : State) (fn off : Nat) (v : Word) : (regSet s fn off v).ev = s.ev := rfl
@[simp] theorem regSet_part (s : State) (fn off : Nat) (v : Word) : (regSet s fn off v).part = s.part := rfl
@[simp] theorem regSet_mem (s : State) (fn off : Nat) (v : Word) : (regSet s fn off v).mem = s.mem := rfl
@[simp] theorem regSet_crews (s : State) (fn off : Nat) (v : Word) : (regSet s fn off v).crews = s.crews := rfl
@[simp] theorem regSet_tags (s : State) (fn off : Nat) (v : Word) : (regSet s fn off v).tags = s.tags := rfl
@[simp] theorem regSet_left (s : State) (fn off : Nat) (v : Word) : (regSet s fn off v).left = s.left := rfl
@[simp] theorem regSet_turns (s : State) (fn off : Nat) (v : Word) : (regSet s fn off v).turns = s.turns := rfl
@[simp] theorem regSet_resting (s : State) (fn off : Nat) (v : Word) : (regSet s fn off v).resting = s.resting := rfl
@[simp] theorem regSet_keyed (s : State) (fn off : Nat) (v : Word) : (regSet s fn off v).keyed = s.keyed := rfl
@[simp] theorem regSet_keyedDone (s : State) (fn off : Nat) (v : Word) : (regSet s fn off v).keyedDone = s.keyedDone := rfl
@[simp] theorem regSet_monitors (s : State) (fn off : Nat) (v : Word) : (regSet s fn off v).monitors = s.monitors := rfl
@[simp] theorem regSet_sched (s : State) (fn off : Nat) (v : Word) : (regSet s fn off v).sched = s.sched := rfl
@[simp] theorem regSet_fabric (s : State) (fn off : Nat) (v : Word) : (regSet s fn off v).fabric = s.fabric := rfl
@[simp] theorem regSet_xlat (s : State) (fn off : Nat) (v : Word) : (regSet s fn off v).xlat = s.xlat := rfl
@[simp] theorem regSet_host (s : State) (fn off : Nat) (v : Word) : (regSet s fn off v).host = s.host := rfl
@[simp] theorem regSet_power (s : State) (fn off : Nat) (v : Word) : (regSet s fn off v).power = s.power := rfl

/-! ### setFrameRec -/

@[simp] theorem setFrameRec_cycle (s : State) (stack block : Nat) (v : BitVec 32) : (setFrameRec s stack block v).cycle = s.cycle := rfl
@[simp] theorem setFrameRec_agenda (s : State) (stack block : Nat) (v : BitVec 32) : (setFrameRec s stack block v).agenda = s.agenda := rfl
@[simp] theorem setFrameRec_freeCtr (s : State) (stack block : Nat) (v : BitVec 32) : (setFrameRec s stack block v).freeCtr = s.freeCtr := rfl
@[simp] theorem setFrameRec_cur (s : State) (stack block : Nat) (v : BitVec 32) : (setFrameRec s stack block v).cur = s.cur := rfl
@[simp] theorem setFrameRec_ev (s : State) (stack block : Nat) (v : BitVec 32) : (setFrameRec s stack block v).ev = s.ev := rfl
@[simp] theorem setFrameRec_part (s : State) (stack block : Nat) (v : BitVec 32) : (setFrameRec s stack block v).part = s.part := rfl
@[simp] theorem setFrameRec_mem (s : State) (stack block : Nat) (v : BitVec 32) : (setFrameRec s stack block v).mem = s.mem := rfl
@[simp] theorem setFrameRec_crews (s : State) (stack block : Nat) (v : BitVec 32) : (setFrameRec s stack block v).crews = s.crews := rfl
@[simp] theorem setFrameRec_tags (s : State) (stack block : Nat) (v : BitVec 32) : (setFrameRec s stack block v).tags = s.tags := rfl
@[simp] theorem setFrameRec_left (s : State) (stack block : Nat) (v : BitVec 32) : (setFrameRec s stack block v).left = s.left := rfl
@[simp] theorem setFrameRec_turns (s : State) (stack block : Nat) (v : BitVec 32) : (setFrameRec s stack block v).turns = s.turns := rfl
@[simp] theorem setFrameRec_regs (s : State) (stack block : Nat) (v : BitVec 32) : (setFrameRec s stack block v).regs = s.regs := rfl
@[simp] theorem setFrameRec_resting (s : State) (stack block : Nat) (v : BitVec 32) : (setFrameRec s stack block v).resting = s.resting := rfl
@[simp] theorem setFrameRec_keyed (s : State) (stack block : Nat) (v : BitVec 32) : (setFrameRec s stack block v).keyed = s.keyed := rfl
@[simp] theorem setFrameRec_keyedDone (s : State) (stack block : Nat) (v : BitVec 32) : (setFrameRec s stack block v).keyedDone = s.keyedDone := rfl
@[simp] theorem setFrameRec_monitors (s : State) (stack block : Nat) (v : BitVec 32) : (setFrameRec s stack block v).monitors = s.monitors := rfl
@[simp] theorem setFrameRec_sched (s : State) (stack block : Nat) (v : BitVec 32) : (setFrameRec s stack block v).sched = s.sched := rfl
@[simp] theorem setFrameRec_fabric (s : State) (stack block : Nat) (v : BitVec 32) : (setFrameRec s stack block v).fabric = s.fabric := rfl
@[simp] theorem setFrameRec_host (s : State) (stack block : Nat) (v : BitVec 32) : (setFrameRec s stack block v).host = s.host := rfl
@[simp] theorem setFrameRec_power (s : State) (stack block : Nat) (v : BitVec 32) : (setFrameRec s stack block v).power = s.power := rfl

/-! ### writeUnit -/

@[simp] theorem writeUnit_cycle (s : State) (key n x : Nat) : (writeUnit s key n x).cycle = s.cycle := by unfold writeUnit; split <;> rfl
@[simp] theorem writeUnit_agenda (s : State) (key n x : Nat) : (writeUnit s key n x).agenda = s.agenda := by unfold writeUnit; split <;> rfl
@[simp] theorem writeUnit_freeCtr (s : State) (key n x : Nat) : (writeUnit s key n x).freeCtr = s.freeCtr := by unfold writeUnit; split <;> rfl
@[simp] theorem writeUnit_cur (s : State) (key n x : Nat) : (writeUnit s key n x).cur = s.cur := by unfold writeUnit; split <;> rfl
@[simp] theorem writeUnit_ev (s : State) (key n x : Nat) : (writeUnit s key n x).ev = s.ev := by unfold writeUnit; split <;> rfl
@[simp] theorem writeUnit_part (s : State) (key n x : Nat) : (writeUnit s key n x).part = s.part := by unfold writeUnit; split <;> rfl
@[simp] theorem writeUnit_crews (s : State) (key n x : Nat) : (writeUnit s key n x).crews = s.crews := by unfold writeUnit; split <;> rfl
@[simp] theorem writeUnit_tags (s : State) (key n x : Nat) : (writeUnit s key n x).tags = s.tags := by unfold writeUnit; split <;> rfl
@[simp] theorem writeUnit_left (s : State) (key n x : Nat) : (writeUnit s key n x).left = s.left := by unfold writeUnit; split <;> rfl
@[simp] theorem writeUnit_turns (s : State) (key n x : Nat) : (writeUnit s key n x).turns = s.turns := by unfold writeUnit; split <;> rfl
@[simp] theorem writeUnit_regs (s : State) (key n x : Nat) : (writeUnit s key n x).regs = s.regs := by unfold writeUnit; split <;> rfl
@[simp] theorem writeUnit_resting (s : State) (key n x : Nat) : (writeUnit s key n x).resting = s.resting := by unfold writeUnit; split <;> rfl
@[simp] theorem writeUnit_keyed (s : State) (key n x : Nat) : (writeUnit s key n x).keyed = s.keyed := by unfold writeUnit; split <;> rfl
@[simp] theorem writeUnit_keyedDone (s : State) (key n x : Nat) : (writeUnit s key n x).keyedDone = s.keyedDone := by unfold writeUnit; split <;> rfl
@[simp] theorem writeUnit_monitors (s : State) (key n x : Nat) : (writeUnit s key n x).monitors = s.monitors := by unfold writeUnit; split <;> rfl
@[simp] theorem writeUnit_sched (s : State) (key n x : Nat) : (writeUnit s key n x).sched = s.sched := by unfold writeUnit; split <;> rfl
@[simp] theorem writeUnit_fabric (s : State) (key n x : Nat) : (writeUnit s key n x).fabric = s.fabric := by unfold writeUnit; split <;> rfl
@[simp] theorem writeUnit_xlat (s : State) (key n x : Nat) : (writeUnit s key n x).xlat = s.xlat := by unfold writeUnit; split <;> rfl
@[simp] theorem writeUnit_power (s : State) (key n x : Nat) : (writeUnit s key n x).power = s.power := by unfold writeUnit; split <;> rfl
@[simp] theorem writeUnit_mem (s : State) (key n x : Nat) : (writeUnit s key n x).mem = memWriteN s.mem key x n := by
  unfold writeUnit; split <;> rfl

/-! ### hostWrite -/

@[simp] theorem hostWrite_cycle (s : State) (a x n : Nat) : (hostWrite s a x n).cycle = s.cycle := rfl
@[simp] theorem hostWrite_agenda (s : State) (a x n : Nat) : (hostWrite s a x n).agenda = s.agenda := rfl
@[simp] theorem hostWrite_freeCtr (s : State) (a x n : Nat) : (hostWrite s a x n).freeCtr = s.freeCtr := rfl
@[simp] theorem hostWrite_cur (s : State) (a x n : Nat) : (hostWrite s a x n).cur = s.cur := rfl
@[simp] theorem hostWrite_ev (s : State) (a x n : Nat) : (hostWrite s a x n).ev = s.ev := rfl
@[simp] theorem hostWrite_part (s : State) (a x n : Nat) : (hostWrite s a x n).part = s.part := rfl
@[simp] theorem hostWrite_crews (s : State) (a x n : Nat) : (hostWrite s a x n).crews = s.crews := rfl
@[simp] theorem hostWrite_tags (s : State) (a x n : Nat) : (hostWrite s a x n).tags = s.tags := rfl
@[simp] theorem hostWrite_left (s : State) (a x n : Nat) : (hostWrite s a x n).left = s.left := rfl
@[simp] theorem hostWrite_turns (s : State) (a x n : Nat) : (hostWrite s a x n).turns = s.turns := rfl
@[simp] theorem hostWrite_regs (s : State) (a x n : Nat) : (hostWrite s a x n).regs = s.regs := rfl
@[simp] theorem hostWrite_resting (s : State) (a x n : Nat) : (hostWrite s a x n).resting = s.resting := rfl
@[simp] theorem hostWrite_keyed (s : State) (a x n : Nat) : (hostWrite s a x n).keyed = s.keyed := rfl
@[simp] theorem hostWrite_keyedDone (s : State) (a x n : Nat) : (hostWrite s a x n).keyedDone = s.keyedDone := rfl
@[simp] theorem hostWrite_monitors (s : State) (a x n : Nat) : (hostWrite s a x n).monitors = s.monitors := rfl
@[simp] theorem hostWrite_sched (s : State) (a x n : Nat) : (hostWrite s a x n).sched = s.sched := rfl
@[simp] theorem hostWrite_fabric (s : State) (a x n : Nat) : (hostWrite s a x n).fabric = s.fabric := rfl
@[simp] theorem hostWrite_xlat (s : State) (a x n : Nat) : (hostWrite s a x n).xlat = s.xlat := rfl
@[simp] theorem hostWrite_host (s : State) (a x n : Nat) : (hostWrite s a x n).host = s.host := rfl
@[simp] theorem hostWrite_power (s : State) (a x n : Nat) : (hostWrite s a x n).power = s.power := rfl
@[simp] theorem hostWrite_mem (s : State) (a x n : Nat) :
    (hostWrite s a x n).mem = memWriteN s.mem (hostKey a) x n := rfl

/-! ### setLaunch -/

@[simp] theorem setLaunch_cycle (s : State) (l : Launch) : (setLaunch s l).cycle = s.cycle := rfl
@[simp] theorem setLaunch_agenda (s : State) (l : Launch) : (setLaunch s l).agenda = s.agenda := rfl
@[simp] theorem setLaunch_freeCtr (s : State) (l : Launch) : (setLaunch s l).freeCtr = s.freeCtr := rfl
@[simp] theorem setLaunch_cur (s : State) (l : Launch) : (setLaunch s l).cur = s.cur := rfl
@[simp] theorem setLaunch_ev (s : State) (l : Launch) : (setLaunch s l).ev = s.ev := rfl
@[simp] theorem setLaunch_part (s : State) (l : Launch) : (setLaunch s l).part = s.part := rfl
@[simp] theorem setLaunch_mem (s : State) (l : Launch) : (setLaunch s l).mem = s.mem := rfl
@[simp] theorem setLaunch_crews (s : State) (l : Launch) : (setLaunch s l).crews = s.crews := rfl
@[simp] theorem setLaunch_tags (s : State) (l : Launch) : (setLaunch s l).tags = s.tags := rfl
@[simp] theorem setLaunch_left (s : State) (l : Launch) : (setLaunch s l).left = s.left := rfl
@[simp] theorem setLaunch_turns (s : State) (l : Launch) : (setLaunch s l).turns = s.turns := rfl
@[simp] theorem setLaunch_regs (s : State) (l : Launch) : (setLaunch s l).regs = s.regs := rfl
@[simp] theorem setLaunch_resting (s : State) (l : Launch) : (setLaunch s l).resting = s.resting := rfl
@[simp] theorem setLaunch_keyed (s : State) (l : Launch) : (setLaunch s l).keyed = s.keyed := rfl
@[simp] theorem setLaunch_keyedDone (s : State) (l : Launch) : (setLaunch s l).keyedDone = s.keyedDone := rfl
@[simp] theorem setLaunch_monitors (s : State) (l : Launch) : (setLaunch s l).monitors = s.monitors := rfl
@[simp] theorem setLaunch_fabric (s : State) (l : Launch) : (setLaunch s l).fabric = s.fabric := rfl
@[simp] theorem setLaunch_xlat (s : State) (l : Launch) : (setLaunch s l).xlat = s.xlat := rfl
@[simp] theorem setLaunch_host (s : State) (l : Launch) : (setLaunch s l).host = s.host := rfl
@[simp] theorem setLaunch_power (s : State) (l : Launch) : (setLaunch s l).power = s.power := rfl

/-! ### postEvent -/

@[simp] theorem postEvent_cycle (s : State) (e : DevEvent) : (postEvent s e).cycle = s.cycle := rfl
@[simp] theorem postEvent_freeCtr (s : State) (e : DevEvent) : (postEvent s e).freeCtr = s.freeCtr := rfl
@[simp] theorem postEvent_cur (s : State) (e : DevEvent) : (postEvent s e).cur = s.cur := rfl
@[simp] theorem postEvent_ev (s : State) (e : DevEvent) : (postEvent s e).ev = s.ev := rfl
@[simp] theorem postEvent_part (s : State) (e : DevEvent) : (postEvent s e).part = s.part := rfl
@[simp] theorem postEvent_mem (s : State) (e : DevEvent) : (postEvent s e).mem = s.mem := rfl
@[simp] theorem postEvent_crews (s : State) (e : DevEvent) : (postEvent s e).crews = s.crews := rfl
@[simp] theorem postEvent_tags (s : State) (e : DevEvent) : (postEvent s e).tags = s.tags := rfl
@[simp] theorem postEvent_left (s : State) (e : DevEvent) : (postEvent s e).left = s.left := rfl
@[simp] theorem postEvent_turns (s : State) (e : DevEvent) : (postEvent s e).turns = s.turns := rfl
@[simp] theorem postEvent_regs (s : State) (e : DevEvent) : (postEvent s e).regs = s.regs := rfl
@[simp] theorem postEvent_resting (s : State) (e : DevEvent) : (postEvent s e).resting = s.resting := rfl
@[simp] theorem postEvent_keyed (s : State) (e : DevEvent) : (postEvent s e).keyed = s.keyed := rfl
@[simp] theorem postEvent_keyedDone (s : State) (e : DevEvent) : (postEvent s e).keyedDone = s.keyedDone := rfl
@[simp] theorem postEvent_monitors (s : State) (e : DevEvent) : (postEvent s e).monitors = s.monitors := rfl
@[simp] theorem postEvent_sched (s : State) (e : DevEvent) : (postEvent s e).sched = s.sched := rfl
@[simp] theorem postEvent_fabric (s : State) (e : DevEvent) : (postEvent s e).fabric = s.fabric := rfl
@[simp] theorem postEvent_xlat (s : State) (e : DevEvent) : (postEvent s e).xlat = s.xlat := rfl
@[simp] theorem postEvent_power (s : State) (e : DevEvent) : (postEvent s e).power = s.power := rfl

/-! ### setFlags -/

@[simp] theorem setFlags_launch (c : Crew) (f : BitVec 6) : (setFlags c f).launch = c.launch := rfl
@[simp] theorem setFlags_rank (c : Crew) (f : BitVec 6) : (setFlags c f).rank = c.rank := rfl
@[simp] theorem setFlags_tenant (c : Crew) (f : BitVec 6) : (setFlags c f).tenant = c.tenant := rfl
@[simp] theorem setFlags_flags (c : Crew) (f : BitVec 6) : (setFlags c f).flags = c.flags := rfl
@[simp] theorem setFlags_text (c : Crew) (f : BitVec 6) : (setFlags c f).text = c.text := rfl
@[simp] theorem setFlags_ra (c : Crew) (f : BitVec 6) : (setFlags c f).ra = c.ra := rfl
@[simp] theorem setFlags_rb (c : Crew) (f : BitVec 6) : (setFlags c f).rb = c.rb := rfl
@[simp] theorem setFlags_nt (c : Crew) (f : BitVec 6) : (setFlags c f).nt = c.nt := rfl
@[simp] theorem setFlags_nh (c : Crew) (f : BitVec 6) : (setFlags c f).nh = c.nh := rfl
@[simp] theorem setFlags_nv (c : Crew) (f : BitVec 6) : (setFlags c f).nv = c.nv := rfl
@[simp] theorem setFlags_baseA (c : Crew) (f : BitVec 6) : (setFlags c f).baseA = c.baseA := rfl
@[simp] theorem setFlags_baseB (c : Crew) (f : BitVec 6) : (setFlags c f).baseB = c.baseB := rfl
@[simp] theorem setFlags_eng (c : Crew) (f : BitVec 6) : (setFlags c f).eng = c.eng := rfl
@[simp] theorem setFlags_strC (c : Crew) (f : BitVec 6) : (setFlags c f).strC = c.strC := rfl
@[simp] theorem setFlags_strA (c : Crew) (f : BitVec 6) : (setFlags c f).strA = c.strA := rfl
@[simp] theorem setFlags_strV (c : Crew) (f : BitVec 6) : (setFlags c f).strV = c.strV := rfl
@[simp] theorem setFlags_strM (c : Crew) (f : BitVec 6) : (setFlags c f).strM = c.strM := rfl
@[simp] theorem setFlags_strS (c : Crew) (f : BitVec 6) : (setFlags c f).strS = c.strS := rfl
@[simp] theorem setFlags_cs (c : Crew) (f : BitVec 6) : (setFlags c f).cs = c.cs := rfl
@[simp] theorem setFlags_as (c : Crew) (f : BitVec 6) : (setFlags c f).as = c.as := rfl
@[simp] theorem setFlags_cp (c : Crew) (f : BitVec 6) : (setFlags c f).cp = c.cp := rfl
@[simp] theorem setFlags_ap (c : Crew) (f : BitVec 6) : (setFlags c f).ap = c.ap := rfl
@[simp] theorem setFlags_k (c : Crew) (f : BitVec 6) : (setFlags c f).k = c.k := rfl
@[simp] theorem setFlags_mask (c : Crew) (f : BitVec 6) : (setFlags c f).mask = c.mask := rfl
@[simp] theorem setFlags_v (c : Crew) (f : BitVec 6) : (setFlags c f).v = c.v := rfl
@[simp] theorem setFlags_acc (c : Crew) (f : BitVec 6) : (setFlags c f).acc = c.acc := rfl
@[simp] theorem setFlags_st (c : Crew) (f : BitVec 6) : (setFlags c f).st = c.st := rfl
@[simp] theorem setFlags_o (c : Crew) (f : BitVec 6) : (setFlags c f).o = c.o := rfl
@[simp] theorem setFlags_queues (c : Crew) (f : BitVec 6) : (setFlags c f).queues = c.queues := rfl
@[simp] theorem setFlags_slipw (c : Crew) (f : BitVec 6) : (setFlags c f).slipw = c.slipw := rfl
@[simp] theorem setFlags_demote (c : Crew) (f : BitVec 6) : (setFlags c f).demote = c.demote := rfl
@[simp] theorem setFlags_cd (c : Crew) (f : BitVec 6) : (setFlags c f).cd = c.cd := rfl
@[simp] theorem setFlags_ors (c : Crew) (f : BitVec 6) : (setFlags c f).ors = c.ors := rfl
@[simp] theorem setFlags_issueNo (c : Crew) (f : BitVec 6) : (setFlags c f).issueNo = c.issueNo := rfl
@[simp] theorem setFlags_exchNo (c : Crew) (f : BitVec 6) : (setFlags c f).exchNo = c.exchNo := rfl
@[simp] theorem setFlags_born (c : Crew) (f : BitVec 6) : (setFlags c f).born = c.born := rfl
@[simp] theorem setFlags_phase (c : Crew) (f : BitVec 6) : (setFlags c f).phase = c.phase := rfl
@[simp] theorem setFlags_vctx (c : Crew) (f : BitVec 6) : (setFlags c f).vctx = c.vctx := rfl
@[simp] theorem setFlags_mctx (c : Crew) (f : BitVec 6) : (setFlags c f).mctx = c.mctx := rfl
@[simp] theorem setFlags_sctx (c : Crew) (f : BitVec 6) : (setFlags c f).sctx = c.sctx := rfl
@[simp] theorem setFlags_trap (c : Crew) (f : BitVec 6) : (setFlags c f).trap = c.trap := rfl
@[simp] theorem setFlags_ctl (c : Crew) (f : BitVec 6) : (setFlags c f).ctl = c.ctl := rfl
@[simp] theorem setFlags_rem (c : Crew) (f : BitVec 6) : (setFlags c f).rem = c.rem := rfl
@[simp] theorem setFlags_ops (c : Crew) (f : BitVec 6) : (setFlags c f).ops = c.ops := rfl
@[simp] theorem setFlags_errs (c : Crew) (f : BitVec 6) : (setFlags c f).errs = c.errs := rfl
@[simp] theorem setFlags_fstat (c : Crew) (f : BitVec 6) : (setFlags c f).fstat = c.fstat ||| f := rfl

/-! ### setQueue -/

@[simp] theorem setQueue_launch (c : Crew) (q : Nat) (l : List QEntry) : (setQueue c q l).launch = c.launch := rfl
@[simp] theorem setQueue_rank (c : Crew) (q : Nat) (l : List QEntry) : (setQueue c q l).rank = c.rank := rfl
@[simp] theorem setQueue_tenant (c : Crew) (q : Nat) (l : List QEntry) : (setQueue c q l).tenant = c.tenant := rfl
@[simp] theorem setQueue_flags (c : Crew) (q : Nat) (l : List QEntry) : (setQueue c q l).flags = c.flags := rfl
@[simp] theorem setQueue_text (c : Crew) (q : Nat) (l : List QEntry) : (setQueue c q l).text = c.text := rfl
@[simp] theorem setQueue_ra (c : Crew) (q : Nat) (l : List QEntry) : (setQueue c q l).ra = c.ra := rfl
@[simp] theorem setQueue_rb (c : Crew) (q : Nat) (l : List QEntry) : (setQueue c q l).rb = c.rb := rfl
@[simp] theorem setQueue_nt (c : Crew) (q : Nat) (l : List QEntry) : (setQueue c q l).nt = c.nt := rfl
@[simp] theorem setQueue_nh (c : Crew) (q : Nat) (l : List QEntry) : (setQueue c q l).nh = c.nh := rfl
@[simp] theorem setQueue_nv (c : Crew) (q : Nat) (l : List QEntry) : (setQueue c q l).nv = c.nv := rfl
@[simp] theorem setQueue_baseA (c : Crew) (q : Nat) (l : List QEntry) : (setQueue c q l).baseA = c.baseA := rfl
@[simp] theorem setQueue_baseB (c : Crew) (q : Nat) (l : List QEntry) : (setQueue c q l).baseB = c.baseB := rfl
@[simp] theorem setQueue_eng (c : Crew) (q : Nat) (l : List QEntry) : (setQueue c q l).eng = c.eng := rfl
@[simp] theorem setQueue_strC (c : Crew) (q : Nat) (l : List QEntry) : (setQueue c q l).strC = c.strC := rfl
@[simp] theorem setQueue_strA (c : Crew) (q : Nat) (l : List QEntry) : (setQueue c q l).strA = c.strA := rfl
@[simp] theorem setQueue_strV (c : Crew) (q : Nat) (l : List QEntry) : (setQueue c q l).strV = c.strV := rfl
@[simp] theorem setQueue_strM (c : Crew) (q : Nat) (l : List QEntry) : (setQueue c q l).strM = c.strM := rfl
@[simp] theorem setQueue_strS (c : Crew) (q : Nat) (l : List QEntry) : (setQueue c q l).strS = c.strS := rfl
@[simp] theorem setQueue_cs (c : Crew) (q : Nat) (l : List QEntry) : (setQueue c q l).cs = c.cs := rfl
@[simp] theorem setQueue_as (c : Crew) (q : Nat) (l : List QEntry) : (setQueue c q l).as = c.as := rfl
@[simp] theorem setQueue_cp (c : Crew) (q : Nat) (l : List QEntry) : (setQueue c q l).cp = c.cp := rfl
@[simp] theorem setQueue_ap (c : Crew) (q : Nat) (l : List QEntry) : (setQueue c q l).ap = c.ap := rfl
@[simp] theorem setQueue_k (c : Crew) (q : Nat) (l : List QEntry) : (setQueue c q l).k = c.k := rfl
@[simp] theorem setQueue_mask (c : Crew) (q : Nat) (l : List QEntry) : (setQueue c q l).mask = c.mask := rfl
@[simp] theorem setQueue_v (c : Crew) (q : Nat) (l : List QEntry) : (setQueue c q l).v = c.v := rfl
@[simp] theorem setQueue_acc (c : Crew) (q : Nat) (l : List QEntry) : (setQueue c q l).acc = c.acc := rfl
@[simp] theorem setQueue_st (c : Crew) (q : Nat) (l : List QEntry) : (setQueue c q l).st = c.st := rfl
@[simp] theorem setQueue_o (c : Crew) (q : Nat) (l : List QEntry) : (setQueue c q l).o = c.o := rfl
@[simp] theorem setQueue_fstat (c : Crew) (q : Nat) (l : List QEntry) : (setQueue c q l).fstat = c.fstat := rfl
@[simp] theorem setQueue_slipw (c : Crew) (q : Nat) (l : List QEntry) : (setQueue c q l).slipw = c.slipw := rfl
@[simp] theorem setQueue_demote (c : Crew) (q : Nat) (l : List QEntry) : (setQueue c q l).demote = c.demote := rfl
@[simp] theorem setQueue_cd (c : Crew) (q : Nat) (l : List QEntry) : (setQueue c q l).cd = c.cd := rfl
@[simp] theorem setQueue_ors (c : Crew) (q : Nat) (l : List QEntry) : (setQueue c q l).ors = c.ors := rfl
@[simp] theorem setQueue_issueNo (c : Crew) (q : Nat) (l : List QEntry) : (setQueue c q l).issueNo = c.issueNo := rfl
@[simp] theorem setQueue_exchNo (c : Crew) (q : Nat) (l : List QEntry) : (setQueue c q l).exchNo = c.exchNo := rfl
@[simp] theorem setQueue_born (c : Crew) (q : Nat) (l : List QEntry) : (setQueue c q l).born = c.born := rfl
@[simp] theorem setQueue_phase (c : Crew) (q : Nat) (l : List QEntry) : (setQueue c q l).phase = c.phase := rfl
@[simp] theorem setQueue_vctx (c : Crew) (q : Nat) (l : List QEntry) : (setQueue c q l).vctx = c.vctx := rfl
@[simp] theorem setQueue_mctx (c : Crew) (q : Nat) (l : List QEntry) : (setQueue c q l).mctx = c.mctx := rfl
@[simp] theorem setQueue_sctx (c : Crew) (q : Nat) (l : List QEntry) : (setQueue c q l).sctx = c.sctx := rfl
@[simp] theorem setQueue_trap (c : Crew) (q : Nat) (l : List QEntry) : (setQueue c q l).trap = c.trap := rfl
@[simp] theorem setQueue_ctl (c : Crew) (q : Nat) (l : List QEntry) : (setQueue c q l).ctl = c.ctl := rfl
@[simp] theorem setQueue_rem (c : Crew) (q : Nat) (l : List QEntry) : (setQueue c q l).rem = c.rem := rfl
@[simp] theorem setQueue_ops (c : Crew) (q : Nat) (l : List QEntry) : (setQueue c q l).ops = c.ops := rfl
@[simp] theorem setQueue_errs (c : Crew) (q : Nat) (l : List QEntry) : (setQueue c q l).errs = c.errs := rfl
@[simp] theorem setQueue_queues (c : Crew) (q : Nat) (l : List QEntry) : (setQueue c q l).queues = setNth c.queues q l := rfl

/-! ### vWrite -/

@[simp] theorem vWrite_launch (c : Crew) (i : Nat) (x : Row) : (vWrite c i x).launch = c.launch := rfl
@[simp] theorem vWrite_rank (c : Crew) (i : Nat) (x : Row) : (vWrite c i x).rank = c.rank := rfl
@[simp] theorem vWrite_tenant (c : Crew) (i : Nat) (x : Row) : (vWrite c i x).tenant = c.tenant := rfl
@[simp] theorem vWrite_flags (c : Crew) (i : Nat) (x : Row) : (vWrite c i x).flags = c.flags := rfl
@[simp] theorem vWrite_text (c : Crew) (i : Nat) (x : Row) : (vWrite c i x).text = c.text := rfl
@[simp] theorem vWrite_ra (c : Crew) (i : Nat) (x : Row) : (vWrite c i x).ra = c.ra := rfl
@[simp] theorem vWrite_rb (c : Crew) (i : Nat) (x : Row) : (vWrite c i x).rb = c.rb := rfl
@[simp] theorem vWrite_nt (c : Crew) (i : Nat) (x : Row) : (vWrite c i x).nt = c.nt := rfl
@[simp] theorem vWrite_nh (c : Crew) (i : Nat) (x : Row) : (vWrite c i x).nh = c.nh := rfl
@[simp] theorem vWrite_nv (c : Crew) (i : Nat) (x : Row) : (vWrite c i x).nv = c.nv := rfl
@[simp] theorem vWrite_baseA (c : Crew) (i : Nat) (x : Row) : (vWrite c i x).baseA = c.baseA := rfl
@[simp] theorem vWrite_baseB (c : Crew) (i : Nat) (x : Row) : (vWrite c i x).baseB = c.baseB := rfl
@[simp] theorem vWrite_eng (c : Crew) (i : Nat) (x : Row) : (vWrite c i x).eng = c.eng := rfl
@[simp] theorem vWrite_strC (c : Crew) (i : Nat) (x : Row) : (vWrite c i x).strC = c.strC := rfl
@[simp] theorem vWrite_strA (c : Crew) (i : Nat) (x : Row) : (vWrite c i x).strA = c.strA := rfl
@[simp] theorem vWrite_strV (c : Crew) (i : Nat) (x : Row) : (vWrite c i x).strV = c.strV := rfl
@[simp] theorem vWrite_strM (c : Crew) (i : Nat) (x : Row) : (vWrite c i x).strM = c.strM := rfl
@[simp] theorem vWrite_strS (c : Crew) (i : Nat) (x : Row) : (vWrite c i x).strS = c.strS := rfl
@[simp] theorem vWrite_cs (c : Crew) (i : Nat) (x : Row) : (vWrite c i x).cs = c.cs := rfl
@[simp] theorem vWrite_as (c : Crew) (i : Nat) (x : Row) : (vWrite c i x).as = c.as := rfl
@[simp] theorem vWrite_cp (c : Crew) (i : Nat) (x : Row) : (vWrite c i x).cp = c.cp := rfl
@[simp] theorem vWrite_ap (c : Crew) (i : Nat) (x : Row) : (vWrite c i x).ap = c.ap := rfl
@[simp] theorem vWrite_k (c : Crew) (i : Nat) (x : Row) : (vWrite c i x).k = c.k := rfl
@[simp] theorem vWrite_mask (c : Crew) (i : Nat) (x : Row) : (vWrite c i x).mask = c.mask := rfl
@[simp] theorem vWrite_acc (c : Crew) (i : Nat) (x : Row) : (vWrite c i x).acc = c.acc := rfl
@[simp] theorem vWrite_st (c : Crew) (i : Nat) (x : Row) : (vWrite c i x).st = c.st := rfl
@[simp] theorem vWrite_o (c : Crew) (i : Nat) (x : Row) : (vWrite c i x).o = c.o := rfl
@[simp] theorem vWrite_queues (c : Crew) (i : Nat) (x : Row) : (vWrite c i x).queues = c.queues := rfl
@[simp] theorem vWrite_fstat (c : Crew) (i : Nat) (x : Row) : (vWrite c i x).fstat = c.fstat := rfl
@[simp] theorem vWrite_slipw (c : Crew) (i : Nat) (x : Row) : (vWrite c i x).slipw = c.slipw := rfl
@[simp] theorem vWrite_demote (c : Crew) (i : Nat) (x : Row) : (vWrite c i x).demote = c.demote := rfl
@[simp] theorem vWrite_cd (c : Crew) (i : Nat) (x : Row) : (vWrite c i x).cd = c.cd := rfl
@[simp] theorem vWrite_ors (c : Crew) (i : Nat) (x : Row) : (vWrite c i x).ors = c.ors := rfl
@[simp] theorem vWrite_issueNo (c : Crew) (i : Nat) (x : Row) : (vWrite c i x).issueNo = c.issueNo := rfl
@[simp] theorem vWrite_exchNo (c : Crew) (i : Nat) (x : Row) : (vWrite c i x).exchNo = c.exchNo := rfl
@[simp] theorem vWrite_born (c : Crew) (i : Nat) (x : Row) : (vWrite c i x).born = c.born := rfl
@[simp] theorem vWrite_phase (c : Crew) (i : Nat) (x : Row) : (vWrite c i x).phase = c.phase := rfl
@[simp] theorem vWrite_vctx (c : Crew) (i : Nat) (x : Row) : (vWrite c i x).vctx = c.vctx := rfl
@[simp] theorem vWrite_mctx (c : Crew) (i : Nat) (x : Row) : (vWrite c i x).mctx = c.mctx := rfl
@[simp] theorem vWrite_sctx (c : Crew) (i : Nat) (x : Row) : (vWrite c i x).sctx = c.sctx := rfl
@[simp] theorem vWrite_trap (c : Crew) (i : Nat) (x : Row) : (vWrite c i x).trap = c.trap := rfl
@[simp] theorem vWrite_ctl (c : Crew) (i : Nat) (x : Row) : (vWrite c i x).ctl = c.ctl := rfl
@[simp] theorem vWrite_rem (c : Crew) (i : Nat) (x : Row) : (vWrite c i x).rem = c.rem := rfl
@[simp] theorem vWrite_ops (c : Crew) (i : Nat) (x : Row) : (vWrite c i x).ops = c.ops := rfl
@[simp] theorem vWrite_errs (c : Crew) (i : Nat) (x : Row) : (vWrite c i x).errs = c.errs := rfl
@[simp] theorem vWrite_v (c : Crew) (i : Nat) (x : Row) : (vWrite c i x).v = spSet c.v i x := rfl

/-! ### clearStall -/

@[simp] theorem clearStall_launch (c : Crew) : (clearStall c).launch = c.launch := rfl
@[simp] theorem clearStall_rank (c : Crew) : (clearStall c).rank = c.rank := rfl
@[simp] theorem clearStall_tenant (c : Crew) : (clearStall c).tenant = c.tenant := rfl
@[simp] theorem clearStall_flags (c : Crew) : (clearStall c).flags = c.flags := rfl
@[simp] theorem clearStall_text (c : Crew) : (clearStall c).text = c.text := rfl
@[simp] theorem clearStall_ra (c : Crew) : (clearStall c).ra = c.ra := rfl
@[simp] theorem clearStall_rb (c : Crew) : (clearStall c).rb = c.rb := rfl
@[simp] theorem clearStall_nt (c : Crew) : (clearStall c).nt = c.nt := rfl
@[simp] theorem clearStall_nh (c : Crew) : (clearStall c).nh = c.nh := rfl
@[simp] theorem clearStall_nv (c : Crew) : (clearStall c).nv = c.nv := rfl
@[simp] theorem clearStall_baseA (c : Crew) : (clearStall c).baseA = c.baseA := rfl
@[simp] theorem clearStall_baseB (c : Crew) : (clearStall c).baseB = c.baseB := rfl
@[simp] theorem clearStall_eng (c : Crew) : (clearStall c).eng = c.eng := rfl
@[simp] theorem clearStall_strC (c : Crew) : (clearStall c).strC = c.strC := rfl
@[simp] theorem clearStall_strA (c : Crew) : (clearStall c).strA = c.strA := rfl
@[simp] theorem clearStall_strV (c : Crew) : (clearStall c).strV = c.strV := rfl
@[simp] theorem clearStall_strM (c : Crew) : (clearStall c).strM = c.strM := rfl
@[simp] theorem clearStall_strS (c : Crew) : (clearStall c).strS = c.strS := rfl
@[simp] theorem clearStall_cs (c : Crew) : (clearStall c).cs = c.cs := rfl
@[simp] theorem clearStall_as (c : Crew) : (clearStall c).as = c.as := rfl
@[simp] theorem clearStall_cp (c : Crew) : (clearStall c).cp = c.cp := rfl
@[simp] theorem clearStall_ap (c : Crew) : (clearStall c).ap = c.ap := rfl
@[simp] theorem clearStall_k (c : Crew) : (clearStall c).k = c.k := rfl
@[simp] theorem clearStall_mask (c : Crew) : (clearStall c).mask = c.mask := rfl
@[simp] theorem clearStall_v (c : Crew) : (clearStall c).v = c.v := rfl
@[simp] theorem clearStall_acc (c : Crew) : (clearStall c).acc = c.acc := rfl
@[simp] theorem clearStall_st (c : Crew) : (clearStall c).st = c.st := rfl
@[simp] theorem clearStall_o (c : Crew) : (clearStall c).o = c.o := rfl
@[simp] theorem clearStall_queues (c : Crew) : (clearStall c).queues = c.queues := rfl
@[simp] theorem clearStall_fstat (c : Crew) : (clearStall c).fstat = c.fstat := rfl
@[simp] theorem clearStall_slipw (c : Crew) : (clearStall c).slipw = c.slipw := rfl
@[simp] theorem clearStall_demote (c : Crew) : (clearStall c).demote = c.demote := rfl
@[simp] theorem clearStall_cd (c : Crew) : (clearStall c).cd = c.cd := rfl
@[simp] theorem clearStall_ors (c : Crew) : (clearStall c).ors = c.ors := rfl
@[simp] theorem clearStall_issueNo (c : Crew) : (clearStall c).issueNo = c.issueNo := rfl
@[simp] theorem clearStall_exchNo (c : Crew) : (clearStall c).exchNo = c.exchNo := rfl
@[simp] theorem clearStall_born (c : Crew) : (clearStall c).born = c.born := rfl
@[simp] theorem clearStall_phase (c : Crew) : (clearStall c).phase = c.phase := rfl
@[simp] theorem clearStall_vctx (c : Crew) : (clearStall c).vctx = c.vctx := rfl
@[simp] theorem clearStall_mctx (c : Crew) : (clearStall c).mctx = c.mctx := rfl
@[simp] theorem clearStall_sctx (c : Crew) : (clearStall c).sctx = c.sctx := rfl
@[simp] theorem clearStall_trap (c : Crew) : (clearStall c).trap = c.trap := rfl
@[simp] theorem clearStall_rem (c : Crew) : (clearStall c).rem = c.rem := rfl
@[simp] theorem clearStall_ops (c : Crew) : (clearStall c).ops = c.ops := rfl
@[simp] theorem clearStall_errs (c : Crew) : (clearStall c).errs = c.errs := rfl

end Sys2Proof.Machine
end

