-- ==== Sys2Proof/Laws/Store.lean ====
section
/-!
SUPPORT. Laws/Store.lean: read-after-write of sparse stores, association lists and memory, and that every operation over
them keeps the canonical form.
-/
namespace Sys2Proof.Machine

/-! ### Sparse stores: reading -/

theorem spGet_append {w : Nat} (m l : Sp w) (j : Nat) (h : ∀ p ∈ m, p.1 ≠ j) : spGet (m ++ l) j = spGet l j := by
  induction m with
  | nil => rfl
  | cons p m ih =>
    have hp := h p (by simp)
    obtain ⟨k, x⟩ := p
    simp only [List.cons_append, spGet]
    rw [if_neg hp]
    exact ih fun q hq => h q (by simp [hq])

theorem spGet_filter {w : Nat} (m : Sp w) (p : Nat → Bool) (j : Nat) :
    spGet (m.filter fun x => p x.1) j = if p j then spGet m j else 0#w := by
  induction m with
  | nil => simp [spGet]
  | cons q m ih =>
    obtain ⟨k, x⟩ := q
    simp only [List.filter_cons, spGet]
    by_cases hk : k = j
    · subst hk
      cases hp : p k <;> simp [hp, spGet, ih]
    · cases hp : p k <;> simp [hk, spGet, ih]

theorem spGet_append_filter {w : Nat} (m l : Sp w) (p : Nat → Bool) (j : Nat) :
    spGet ((m.filter fun x => p x.1) ++ l) j = if p j ∧ (∃ x ∈ m, x.1 = j) then spGet m j else spGet l j := by
  induction m with
  | nil => simp
  | cons q m ih =>
    obtain ⟨k, x⟩ := q
    simp only [List.filter_cons, spGet]
    by_cases hk : k = j
    · subst hk
      cases hp : p k <;> simp [hp, spGet, ih]
    · cases hp : p k <;> simp [hk, spGet, ih]

theorem spGet_absent {w : Nat} (m : Sp w) (j : Nat) (h : ¬∃ x ∈ m, x.1 = j) : spGet m j = 0#w := by
  induction m with
  | nil => rfl
  | cons q m ih =>
    obtain ⟨k, x⟩ := q
    simp only [List.mem_cons, exists_eq_or_imp, not_or] at h
    simp [spGet, h.1, ih h.2]

/-- Read after write. -/
theorem spGet_spSet {w : Nat} (m : Sp w) (n j : Nat) (x : BitVec w) :
    spGet (spSet m n x) j = if n = j then x else spGet m j := by
  unfold spSet
  rw [List.append_assoc, spGet_append_filter m _ (fun k => decide (k < n)) j]
  by_cases hn : n = j
  · subst hn
    by_cases hx : x = 0#w
    · simp only [lt_irrefl, decide_false, Bool.false_eq_true, false_and, if_false, hx, if_true, List.nil_append]
      rw [spGet_filter m (fun k => decide (n < k)) n]
      simp
    · simp [hx, spGet]
  · have hr : spGet ((if x = 0#w then [] else [(n, x)]) ++ m.filter fun p => decide (n < p.1)) j =
        if n < j then spGet m j else 0#w := by
      have := spGet_filter m (fun k => decide (n < k)) j
      by_cases hx : x = 0#w
      · simpa [hx] using this
      · simpa [hx, spGet, hn] using this
    rw [hr, if_neg hn]
    by_cases hl : j < n
    · by_cases he : ∃ x ∈ m, x.1 = j
      · simp [hl, he]
      · simp [he, show ¬n < j by omega, spGet_absent m j he]
    · simp [hl, show n < j by omega]

/-! ### Association lists -/

theorem asGet_asSet {α : Type} (m : List (Nat × α)) (n j : Nat) (x : α) :
    asGet (asSet m n x) j = if n = j then some x else asGet m j := by
  induction m with
  | nil => simp [asSet, asGet]
  | cons p m ih =>
    obtain ⟨k, y⟩ := p
    by_cases hk : k = n
    · subst hk
      by_cases hj : k = j <;> simp [asSet, asGet, hj]
    · by_cases hl : n < k
      · by_cases hj : n = j
        · subst hj; simp [asSet, asGet, hk, hl]
        · simp [asSet, asGet, hk, hl, hj]
      · simp only [asSet, if_neg hk, if_neg hl, asGet, ih]
        by_cases hj : n = j
        · subst hj; simp [hk]
        · simp [hj]

/-! ### Memory: reading -/

theorem memGet_memSet (m : Memory) (a b : Nat) (x : Byte) : memGet (memSet m a x) b = if a = b then x else memGet m b :=
  spGet_spSet m a b x

theorem memGet_memWriteN (m : Memory) (a x n b : Nat) :
    memGet (memWriteN m a x n) b =
      if a ≤ b ∧ b < a + n then BitVec.ofNat 8 (x / 256 ^ (b - a)) else memGet m b := by
  induction n generalizing m a x with
  | zero => simp [memWriteN, show ¬(a ≤ b ∧ b < a) by omega]
  | succ n ih =>
    simp only [memWriteN, ih, memGet_memSet]
    by_cases hb : a = b
    · subst hb
      simp [show ¬(a + 1 ≤ a) by omega]
    · by_cases h1 : a + 1 ≤ b ∧ b < a + 1 + n
      · rw [if_pos h1, if_pos (by omega), Nat.div_div_eq_div_mul, ← pow_succ']
        rw [show b - (a + 1) + 1 = b - a by omega]
      · rw [if_neg h1, if_neg hb, if_neg (by omega)]

theorem memReadN_congr (m m' : Memory) (a n : Nat) (h : ∀ b, a ≤ b → b < a + n → memGet m b = memGet m' b) :
    memReadN m a n = memReadN m' a n := by
  induction n generalizing a with
  | zero => rfl
  | succ n ih =>
    simp only [memReadN]
    rw [h a (le_refl _) (by omega), ih (a + 1) fun b h1 h2 => h b (by omega) (by omega)]

/-- Reading what was written gives its low bytes. -/
theorem memReadN_memWriteN (m : Memory) (a x n : Nat) : memReadN (memWriteN m a x n) a n = x % 256 ^ n := by
  induction n generalizing m a x with
  | zero => simp [memReadN, Nat.mod_one]
  | succ n ih =>
    simp only [memReadN]
    rw [memGet_memWriteN]
    simp only [le_refl, true_and, Nat.sub_self, pow_zero, Nat.div_one]
    rw [if_pos (by omega)]
    have : memReadN (memWriteN m a x (n + 1)) (a + 1) n = x / 256 % 256 ^ n := by
      simp only [memWriteN]; exact ih _ _ _
    rw [this, pow_succ', Nat.mod_mul, BitVec.toNat_ofNat]

/-- Bytes outside a write read as before. -/
theorem memReadN_memWriteN_disjoint (m : Memory) (a x n b k : Nat) (h : b + k ≤ a ∨ a + n ≤ b) :
    memReadN (memWriteN m a x n) b k = memReadN m b k :=
  memReadN_congr _ _ _ _ fun c h1 h2 => by rw [memGet_memWriteN, if_neg (by omega)]

/-! ### The canonical form -/

/-- The canonical form as a property: rising keys, no zero. -/
theorem spWf_iff {w : Nat} (m : Sp w) :
    spWf m = true ↔ (m.map Prod.fst).Pairwise (· < ·) ∧ ∀ p ∈ m, p.2 ≠ 0#w := by
  induction m with
  | nil => simp [spWf]
  | cons p m ih =>
    obtain ⟨k, x⟩ := p
    cases m with
    | nil => simp [spWf]
    | cons q m =>
      obtain ⟨k', x'⟩ := q
      simp only [spWf, Bool.and_eq_true, decide_eq_true_eq, ih, List.map_cons, List.pairwise_cons, List.mem_cons]
      constructor
      · rintro ⟨⟨hx, hk⟩, ⟨h1, h2⟩, h3⟩
        refine ⟨⟨?_, h1, h2⟩, ?_⟩
        · rintro a (rfl | ha)
          · exact hk
          · exact lt_trans hk (h1 a ha)
        · rintro p (rfl | hp)
          · exact hx
          · exact h3 p hp
      · rintro ⟨⟨h0, h1, h2⟩, h3⟩
        exact ⟨⟨h3 _ (Or.inl rfl), h0 _ (Or.inl rfl)⟩, ⟨h1, h2⟩, fun p hp => h3 p (Or.inr hp)⟩

theorem spWf_filter {w : Nat} (m : Sp w) (p : Nat × BitVec w → Bool) (h : spWf m = true) : spWf (m.filter p) = true := by
  rw [spWf_iff] at *
  exact ⟨h.1.sublist (List.filter_sublist.map _), fun q hq => h.2 q (List.mem_of_mem_filter hq)⟩

/-- Writing keeps the canonical form. -/
theorem spWf_spSet {w : Nat} (m : Sp w) (n : Nat) (x : BitVec w) (h : spWf m = true) : spWf (spSet m n x) = true := by
  rw [spWf_iff] at *
  have hf : ∀ p : Nat × BitVec w → Bool, ((m.filter p).map Prod.fst).Pairwise (· < ·) := fun p =>
    h.1.sublist (List.filter_sublist.map _)
  refine ⟨?_, ?_⟩
  · unfold spSet
    by_cases hx : x = 0#w
    · simp only [hx, if_true, List.append_nil, List.map_append]
      refine List.pairwise_append.2 ⟨hf _, hf _, ?_⟩
      simp only [List.mem_map, List.mem_filter, decide_eq_true_eq]
      rintro a ⟨p, ⟨_, h1⟩, rfl⟩ b ⟨q, ⟨_, h2⟩, rfl⟩
      omega
    · simp only [hx, if_false, List.map_append, List.map_cons, List.map_nil, List.append_assoc]
      refine List.pairwise_append.2 ⟨hf _, ?_, ?_⟩
      · simp only [List.singleton_append, List.pairwise_cons, List.mem_map, List.mem_filter, decide_eq_true_eq]
        exact ⟨fun b ⟨q, ⟨_, h2⟩, e⟩ => e ▸ h2, hf _⟩
      · simp only [List.mem_append, List.mem_singleton, List.mem_map, List.mem_filter, decide_eq_true_eq]
        rintro a ⟨p, ⟨_, h1⟩, rfl⟩ b (rfl | ⟨q, ⟨_, h2⟩, rfl⟩) <;> omega
  · intro p hp
    unfold spSet at hp
    simp only [List.mem_append, List.mem_filter] at hp
    rcases hp with (⟨hp, _⟩ | hp) | ⟨hp, _⟩
    · exact h.2 p hp
    · split at hp
      · simp at hp
      · next hx => simp only [List.mem_singleton] at hp; subst hp; exact hx
    · exact h.2 p hp

theorem memWf_memSet (m : Memory) (a : Nat) (b : Byte) (h : Memory.wf m = true) : Memory.wf (memSet m a b) = true :=
  spWf_spSet m a b h

theorem memWf_memWriteN (m : Memory) (a x n : Nat) (h : Memory.wf m = true) : Memory.wf (memWriteN m a x n) = true := by
  induction n generalizing m a x with
  | zero => exact h
  | succ n ih => exact ih _ _ _ (memWf_memSet m a _ h)

theorem memWf_filter (m : Memory) (p : Nat × Byte → Bool) (h : Memory.wf m = true) : Memory.wf (m.filter p) = true :=
  spWf_filter m p h

end Sys2Proof.Machine
end

