-- ==== Sys2Proof/Laws/Crew.lean ====
section
/-!
SUPPORT. Laws/Crew.lean: crews on their slots, streams, registers and queues: read after write, and everything that
retiring and waiting do.
-/
namespace Sys2Proof.Machine

/-! ### Crews on slots -/

@[simp] theorem crewAt_putCrew (s : State) (core slot : Nat) (c : Crew) : crewAt (putCrew s core slot c) core slot = some c := by
  simp [crewAt, putCrew, asGet_asSet]

theorem crewAt_putCrew_other (s : State) (core slot core' slot' : Nat) (c : Crew) (h : 2 * core + slot ≠ 2 * core' + slot') :
    crewAt (putCrew s core slot c) core' slot' = crewAt s core' slot' := by
  simp [crewAt, putCrew, asGet_asSet, h]

theorem asSet_asSet {α : Type} (m : List (Nat × α)) (n : Nat) (x y : α) : asSet (asSet m n x) n y = asSet m n y := by
  induction m with
  | nil => simp [asSet]
  | cons p m ih =>
    obtain ⟨k, z⟩ := p
    by_cases hk : k = n
    · simp [asSet, hk]
    · by_cases hl : n < k
      · simp [asSet, hk, hl]
      · simp [asSet, hk, hl, ih]

@[simp] theorem putCrew_putCrew (s : State) (core slot : Nat) (c d : Crew) :
    putCrew (putCrew s core slot c) core slot d = putCrew s core slot d := by
  simp [putCrew, asSet_asSet]

theorem onCrew_eq {s : State} {e : Eng} {c : Crew} (f : Crew → Out) (h : crewAt s s.cur.core s.cur.slot = some c)
    (ha : active c e = true) : onCrew s e f = f c := by simp [onCrew, h, ha]

theorem guarded_eq {s : State} {e : Eng} {c : Crew} (n : BitVec 1) (g : BitVec 4) (act : Crew → Out)
    (h : crewAt s s.cur.core s.cur.slot = some c) (ha : active c e = true) :
    guarded s e n g act = if guard c e n g then act c else done s c e 4 := by simp [guarded, onCrew, h, ha]

theorem privileged_eq {s : State} {c : Crew} (n : BitVec 1) (g : BitVec 4) (act : Crew → Out)
    (h : crewAt s s.cur.core s.cur.slot = some c) (ha : active c .c = true) :
    privileged s n g act = if !isPriv c then raiseHere s c .c 0x01 0
      else if guard c .c n g then act c else done s c .c 4 := by simp [privileged, onCrew, h, ha]

/-! ### Streams -/

theorem strOf_setStr (c : Crew) (e o : Eng) (x : Stream) : strOf (setStr c e x) o = if e = o then x else strOf c o := by
  cases e <;> cases o <;> rfl

@[simp] theorem strOf_setStr_same (c : Crew) (e : Eng) (x : Stream) : strOf (setStr c e x) e = x := by cases e <;> rfl
@[simp] theorem setStr_strOf (c : Crew) (e : Eng) : setStr c e (strOf c e) = c := by cases e <;> rfl
@[simp] theorem setStr_setStr (c : Crew) (e : Eng) (x y : Stream) : setStr (setStr c e x) e y = setStr c e y := by
  cases e <;> rfl

@[simp] theorem setStr_launch (c : Crew) (e : Eng) (x : Stream) : (setStr c e x).launch = c.launch := by cases e <;> rfl
@[simp] theorem setStr_rank (c : Crew) (e : Eng) (x : Stream) : (setStr c e x).rank = c.rank := by cases e <;> rfl
@[simp] theorem setStr_tenant (c : Crew) (e : Eng) (x : Stream) : (setStr c e x).tenant = c.tenant := by cases e <;> rfl
@[simp] theorem setStr_flags (c : Crew) (e : Eng) (x : Stream) : (setStr c e x).flags = c.flags := by cases e <;> rfl
@[simp] theorem setStr_text (c : Crew) (e : Eng) (x : Stream) : (setStr c e x).text = c.text := by cases e <;> rfl
@[simp] theorem setStr_ra (c : Crew) (e : Eng) (x : Stream) : (setStr c e x).ra = c.ra := by cases e <;> rfl
@[simp] theorem setStr_rb (c : Crew) (e : Eng) (x : Stream) : (setStr c e x).rb = c.rb := by cases e <;> rfl
@[simp] theorem setStr_nt (c : Crew) (e : Eng) (x : Stream) : (setStr c e x).nt = c.nt := by cases e <;> rfl
@[simp] theorem setStr_nh (c : Crew) (e : Eng) (x : Stream) : (setStr c e x).nh = c.nh := by cases e <;> rfl
@[simp] theorem setStr_nv (c : Crew) (e : Eng) (x : Stream) : (setStr c e x).nv = c.nv := by cases e <;> rfl
@[simp] theorem setStr_baseA (c : Crew) (e : Eng) (x : Stream) : (setStr c e x).baseA = c.baseA := by cases e <;> rfl
@[simp] theorem setStr_baseB (c : Crew) (e : Eng) (x : Stream) : (setStr c e x).baseB = c.baseB := by cases e <;> rfl
@[simp] theorem setStr_eng (c : Crew) (e : Eng) (x : Stream) : (setStr c e x).eng = c.eng := by cases e <;> rfl
@[simp] theorem setStr_cs (c : Crew) (e : Eng) (x : Stream) : (setStr c e x).cs = c.cs := by cases e <;> rfl
@[simp] theorem setStr_as (c : Crew) (e : Eng) (x : Stream) : (setStr c e x).as = c.as := by cases e <;> rfl
@[simp] theorem setStr_cp (c : Crew) (e : Eng) (x : Stream) : (setStr c e x).cp = c.cp := by cases e <;> rfl
@[simp] theorem setStr_ap (c : Crew) (e : Eng) (x : Stream) : (setStr c e x).ap = c.ap := by cases e <;> rfl
@[simp] theorem setStr_k (c : Crew) (e : Eng) (x : Stream) : (setStr c e x).k = c.k := by cases e <;> rfl
@[simp] theorem setStr_mask (c : Crew) (e : Eng) (x : Stream) : (setStr c e x).mask = c.mask := by cases e <;> rfl
@[simp] theorem setStr_v (c : Crew) (e : Eng) (x : Stream) : (setStr c e x).v = c.v := by cases e <;> rfl
@[simp] theorem setStr_acc (c : Crew) (e : Eng) (x : Stream) : (setStr c e x).acc = c.acc := by cases e <;> rfl
@[simp] theorem setStr_st (c : Crew) (e : Eng) (x : Stream) : (setStr c e x).st = c.st := by cases e <;> rfl
@[simp] theorem setStr_o (c : Crew) (e : Eng) (x : Stream) : (setStr c e x).o = c.o := by cases e <;> rfl
@[simp] theorem setStr_queues (c : Crew) (e : Eng) (x : Stream) : (setStr c e x).queues = c.queues := by cases e <;> rfl
@[simp] theorem setStr_fstat (c : Crew) (e : Eng) (x : Stream) : (setStr c e x).fstat = c.fstat := by cases e <;> rfl
@[simp] theorem setStr_slipw (c : Crew) (e : Eng) (x : Stream) : (setStr c e x).slipw = c.slipw := by cases e <;> rfl
@[simp] theorem setStr_demote (c : Crew) (e : Eng) (x : Stream) : (setStr c e x).demote = c.demote := by cases e <;> rfl
@[simp] theorem setStr_cd (c : Crew) (e : Eng) (x : Stream) : (setStr c e x).cd = c.cd := by cases e <;> rfl
@[simp] theorem setStr_ors (c : Crew) (e : Eng) (x : Stream) : (setStr c e x).ors = c.ors := by cases e <;> rfl
@[simp] theorem setStr_issueNo (c : Crew) (e : Eng) (x : Stream) : (setStr c e x).issueNo = c.issueNo := by cases e <;> rfl
@[simp] theorem setStr_exchNo (c : Crew) (e : Eng) (x : Stream) : (setStr c e x).exchNo = c.exchNo := by cases e <;> rfl
@[simp] theorem setStr_born (c : Crew) (e : Eng) (x : Stream) : (setStr c e x).born = c.born := by cases e <;> rfl
@[simp] theorem setStr_phase (c : Crew) (e : Eng) (x : Stream) : (setStr c e x).phase = c.phase := by cases e <;> rfl
@[simp] theorem setStr_vctx (c : Crew) (e : Eng) (x : Stream) : (setStr c e x).vctx = c.vctx := by cases e <;> rfl
@[simp] theorem setStr_mctx (c : Crew) (e : Eng) (x : Stream) : (setStr c e x).mctx = c.mctx := by cases e <;> rfl
@[simp] theorem setStr_sctx (c : Crew) (e : Eng) (x : Stream) : (setStr c e x).sctx = c.sctx := by cases e <;> rfl
@[simp] theorem setStr_trap (c : Crew) (e : Eng) (x : Stream) : (setStr c e x).trap = c.trap := by cases e <;> rfl
@[simp] theorem setStr_ctl (c : Crew) (e : Eng) (x : Stream) : (setStr c e x).ctl = c.ctl := by cases e <;> rfl
@[simp] theorem setStr_rem (c : Crew) (e : Eng) (x : Stream) : (setStr c e x).rem = c.rem := by cases e <;> rfl
@[simp] theorem setStr_ops (c : Crew) (e : Eng) (x : Stream) : (setStr c e x).ops = c.ops := by cases e <;> rfl
@[simp] theorem setStr_errs (c : Crew) (e : Eng) (x : Stream) : (setStr c e x).errs = c.errs := by cases e <;> rfl
/-! ### Register writes: what they leave -/

@[simp] theorem sWrite_launch (c : Crew) (e : Eng) (i : BitVec 5) (x : Word) : (sWrite c e i x).launch = c.launch := by
  unfold sWrite; split
  · rfl
  · cases e <;> dsimp only <;> split <;> rfl
@[simp] theorem sWrite_rank (c : Crew) (e : Eng) (i : BitVec 5) (x : Word) : (sWrite c e i x).rank = c.rank := by
  unfold sWrite; split
  · rfl
  · cases e <;> dsimp only <;> split <;> rfl
@[simp] theorem sWrite_tenant (c : Crew) (e : Eng) (i : BitVec 5) (x : Word) : (sWrite c e i x).tenant = c.tenant := by
  unfold sWrite; split
  · rfl
  · cases e <;> dsimp only <;> split <;> rfl
@[simp] theorem sWrite_flags (c : Crew) (e : Eng) (i : BitVec 5) (x : Word) : (sWrite c e i x).flags = c.flags := by
  unfold sWrite; split
  · rfl
  · cases e <;> dsimp only <;> split <;> rfl
@[simp] theorem sWrite_text (c : Crew) (e : Eng) (i : BitVec 5) (x : Word) : (sWrite c e i x).text = c.text := by
  unfold sWrite; split
  · rfl
  · cases e <;> dsimp only <;> split <;> rfl
@[simp] theorem sWrite_ra (c : Crew) (e : Eng) (i : BitVec 5) (x : Word) : (sWrite c e i x).ra = c.ra := by
  unfold sWrite; split
  · rfl
  · cases e <;> dsimp only <;> split <;> rfl
@[simp] theorem sWrite_rb (c : Crew) (e : Eng) (i : BitVec 5) (x : Word) : (sWrite c e i x).rb = c.rb := by
  unfold sWrite; split
  · rfl
  · cases e <;> dsimp only <;> split <;> rfl
@[simp] theorem sWrite_nt (c : Crew) (e : Eng) (i : BitVec 5) (x : Word) : (sWrite c e i x).nt = c.nt := by
  unfold sWrite; split
  · rfl
  · cases e <;> dsimp only <;> split <;> rfl
@[simp] theorem sWrite_nh (c : Crew) (e : Eng) (i : BitVec 5) (x : Word) : (sWrite c e i x).nh = c.nh := by
  unfold sWrite; split
  · rfl
  · cases e <;> dsimp only <;> split <;> rfl
@[simp] theorem sWrite_nv (c : Crew) (e : Eng) (i : BitVec 5) (x : Word) : (sWrite c e i x).nv = c.nv := by
  unfold sWrite; split
  · rfl
  · cases e <;> dsimp only <;> split <;> rfl
@[simp] theorem sWrite_baseA (c : Crew) (e : Eng) (i : BitVec 5) (x : Word) : (sWrite c e i x).baseA = c.baseA := by
  unfold sWrite; split
  · rfl
  · cases e <;> dsimp only <;> split <;> rfl
@[simp] theorem sWrite_baseB (c : Crew) (e : Eng) (i : BitVec 5) (x : Word) : (sWrite c e i x).baseB = c.baseB := by
  unfold sWrite; split
  · rfl
  · cases e <;> dsimp only <;> split <;> rfl
@[simp] theorem sWrite_eng (c : Crew) (e : Eng) (i : BitVec 5) (x : Word) : (sWrite c e i x).eng = c.eng := by
  unfold sWrite; split
  · rfl
  · cases e <;> dsimp only <;> split <;> rfl
@[simp] theorem sWrite_strC (c : Crew) (e : Eng) (i : BitVec 5) (x : Word) : (sWrite c e i x).strC = c.strC := by
  unfold sWrite; split
  · rfl
  · cases e <;> dsimp only <;> split <;> rfl
@[simp] theorem sWrite_strA (c : Crew) (e : Eng) (i : BitVec 5) (x : Word) : (sWrite c e i x).strA = c.strA := by
  unfold sWrite; split
  · rfl
  · cases e <;> dsimp only <;> split <;> rfl
@[simp] theorem sWrite_strV (c : Crew) (e : Eng) (i : BitVec 5) (x : Word) : (sWrite c e i x).strV = c.strV := by
  unfold sWrite; split
  · rfl
  · cases e <;> dsimp only <;> split <;> rfl
@[simp] theorem sWrite_strM (c : Crew) (e : Eng) (i : BitVec 5) (x : Word) : (sWrite c e i x).strM = c.strM := by
  unfold sWrite; split
  · rfl
  · cases e <;> dsimp only <;> split <;> rfl
@[simp] theorem sWrite_strS (c : Crew) (e : Eng) (i : BitVec 5) (x : Word) : (sWrite c e i x).strS = c.strS := by
  unfold sWrite; split
  · rfl
  · cases e <;> dsimp only <;> split <;> rfl
@[simp] theorem sWrite_cp (c : Crew) (e : Eng) (i : BitVec 5) (x : Word) : (sWrite c e i x).cp = c.cp := by
  unfold sWrite; split
  · rfl
  · cases e <;> dsimp only <;> split <;> rfl
@[simp] theorem sWrite_ap (c : Crew) (e : Eng) (i : BitVec 5) (x : Word) : (sWrite c e i x).ap = c.ap := by
  unfold sWrite; split
  · rfl
  · cases e <;> dsimp only <;> split <;> rfl
@[simp] theorem sWrite_k (c : Crew) (e : Eng) (i : BitVec 5) (x : Word) : (sWrite c e i x).k = c.k := by
  unfold sWrite; split
  · rfl
  · cases e <;> dsimp only <;> split <;> rfl
@[simp] theorem sWrite_mask (c : Crew) (e : Eng) (i : BitVec 5) (x : Word) : (sWrite c e i x).mask = c.mask := by
  unfold sWrite; split
  · rfl
  · cases e <;> dsimp only <;> split <;> rfl
@[simp] theorem sWrite_v (c : Crew) (e : Eng) (i : BitVec 5) (x : Word) : (sWrite c e i x).v = c.v := by
  unfold sWrite; split
  · rfl
  · cases e <;> dsimp only <;> split <;> rfl
@[simp] theorem sWrite_acc (c : Crew) (e : Eng) (i : BitVec 5) (x : Word) : (sWrite c e i x).acc = c.acc := by
  unfold sWrite; split
  · rfl
  · cases e <;> dsimp only <;> split <;> rfl
@[simp] theorem sWrite_st (c : Crew) (e : Eng) (i : BitVec 5) (x : Word) : (sWrite c e i x).st = c.st := by
  unfold sWrite; split
  · rfl
  · cases e <;> dsimp only <;> split <;> rfl
@[simp] theorem sWrite_o (c : Crew) (e : Eng) (i : BitVec 5) (x : Word) : (sWrite c e i x).o = c.o := by
  unfold sWrite; split
  · rfl
  · cases e <;> dsimp only <;> split <;> rfl
@[simp] theorem sWrite_queues (c : Crew) (e : Eng) (i : BitVec 5) (x : Word) : (sWrite c e i x).queues = c.queues := by
  unfold sWrite; split
  · rfl
  · cases e <;> dsimp only <;> split <;> rfl
@[simp] theorem sWrite_fstat (c : Crew) (e : Eng) (i : BitVec 5) (x : Word) : (sWrite c e i x).fstat = c.fstat := by
  unfold sWrite; split
  · rfl
  · cases e <;> dsimp only <;> split <;> rfl
@[simp] theorem sWrite_slipw (c : Crew) (e : Eng) (i : BitVec 5) (x : Word) : (sWrite c e i x).slipw = c.slipw := by
  unfold sWrite; split
  · rfl
  · cases e <;> dsimp only <;> split <;> rfl
@[simp] theorem sWrite_demote (c : Crew) (e : Eng) (i : BitVec 5) (x : Word) : (sWrite c e i x).demote = c.demote := by
  unfold sWrite; split
  · rfl
  · cases e <;> dsimp only <;> split <;> rfl
@[simp] theorem sWrite_cd (c : Crew) (e : Eng) (i : BitVec 5) (x : Word) : (sWrite c e i x).cd = c.cd := by
  unfold sWrite; split
  · rfl
  · cases e <;> dsimp only <;> split <;> rfl
@[simp] theorem sWrite_ors (c : Crew) (e : Eng) (i : BitVec 5) (x : Word) : (sWrite c e i x).ors = c.ors := by
  unfold sWrite; split
  · rfl
  · cases e <;> dsimp only <;> split <;> rfl
@[simp] theorem sWrite_issueNo (c : Crew) (e : Eng) (i : BitVec 5) (x : Word) : (sWrite c e i x).issueNo = c.issueNo := by
  unfold sWrite; split
  · rfl
  · cases e <;> dsimp only <;> split <;> rfl
@[simp] theorem sWrite_exchNo (c : Crew) (e : Eng) (i : BitVec 5) (x : Word) : (sWrite c e i x).exchNo = c.exchNo := by
  unfold sWrite; split
  · rfl
  · cases e <;> dsimp only <;> split <;> rfl
@[simp] theorem sWrite_born (c : Crew) (e : Eng) (i : BitVec 5) (x : Word) : (sWrite c e i x).born = c.born := by
  unfold sWrite; split
  · rfl
  · cases e <;> dsimp only <;> split <;> rfl
@[simp] theorem sWrite_phase (c : Crew) (e : Eng) (i : BitVec 5) (x : Word) : (sWrite c e i x).phase = c.phase := by
  unfold sWrite; split
  · rfl
  · cases e <;> dsimp only <;> split <;> rfl
@[simp] theorem sWrite_vctx (c : Crew) (e : Eng) (i : BitVec 5) (x : Word) : (sWrite c e i x).vctx = c.vctx := by
  unfold sWrite; split
  · rfl
  · cases e <;> dsimp only <;> split <;> rfl
@[simp] theorem sWrite_mctx (c : Crew) (e : Eng) (i : BitVec 5) (x : Word) : (sWrite c e i x).mctx = c.mctx := by
  unfold sWrite; split
  · rfl
  · cases e <;> dsimp only <;> split <;> rfl
@[simp] theorem sWrite_sctx (c : Crew) (e : Eng) (i : BitVec 5) (x : Word) : (sWrite c e i x).sctx = c.sctx := by
  unfold sWrite; split
  · rfl
  · cases e <;> dsimp only <;> split <;> rfl
@[simp] theorem sWrite_ctl (c : Crew) (e : Eng) (i : BitVec 5) (x : Word) : (sWrite c e i x).ctl = c.ctl := by
  unfold sWrite; split
  · rfl
  · cases e <;> dsimp only <;> split <;> rfl
@[simp] theorem sWrite_rem (c : Crew) (e : Eng) (i : BitVec 5) (x : Word) : (sWrite c e i x).rem = c.rem := by
  unfold sWrite; split
  · rfl
  · cases e <;> dsimp only <;> split <;> rfl
@[simp] theorem sWrite_ops (c : Crew) (e : Eng) (i : BitVec 5) (x : Word) : (sWrite c e i x).ops = c.ops := by
  unfold sWrite; split
  · rfl
  · cases e <;> dsimp only <;> split <;> rfl
@[simp] theorem sWrite_errs (c : Crew) (e : Eng) (i : BitVec 5) (x : Word) : (sWrite c e i x).errs = c.errs := by
  unfold sWrite; split
  · rfl
  · cases e <;> dsimp only <;> split <;> rfl

@[simp] theorem pWrite_launch (c : Crew) (e : Eng) (i : BitVec 4) (b : Bool) : (pWrite c e i b).launch = c.launch := by
  unfold pWrite; split
  · rfl
  · cases e <;> dsimp only <;> split <;> rfl
@[simp] theorem pWrite_rank (c : Crew) (e : Eng) (i : BitVec 4) (b : Bool) : (pWrite c e i b).rank = c.rank := by
  unfold pWrite; split
  · rfl
  · cases e <;> dsimp only <;> split <;> rfl
@[simp] theorem pWrite_tenant (c : Crew) (e : Eng) (i : BitVec 4) (b : Bool) : (pWrite c e i b).tenant = c.tenant := by
  unfold pWrite; split
  · rfl
  · cases e <;> dsimp only <;> split <;> rfl
@[simp] theorem pWrite_flags (c : Crew) (e : Eng) (i : BitVec 4) (b : Bool) : (pWrite c e i b).flags = c.flags := by
  unfold pWrite; split
  · rfl
  · cases e <;> dsimp only <;> split <;> rfl
@[simp] theorem pWrite_text (c : Crew) (e : Eng) (i : BitVec 4) (b : Bool) : (pWrite c e i b).text = c.text := by
  unfold pWrite; split
  · rfl
  · cases e <;> dsimp only <;> split <;> rfl
@[simp] theorem pWrite_ra (c : Crew) (e : Eng) (i : BitVec 4) (b : Bool) : (pWrite c e i b).ra = c.ra := by
  unfold pWrite; split
  · rfl
  · cases e <;> dsimp only <;> split <;> rfl
@[simp] theorem pWrite_rb (c : Crew) (e : Eng) (i : BitVec 4) (b : Bool) : (pWrite c e i b).rb = c.rb := by
  unfold pWrite; split
  · rfl
  · cases e <;> dsimp only <;> split <;> rfl
@[simp] theorem pWrite_nt (c : Crew) (e : Eng) (i : BitVec 4) (b : Bool) : (pWrite c e i b).nt = c.nt := by
  unfold pWrite; split
  · rfl
  · cases e <;> dsimp only <;> split <;> rfl
@[simp] theorem pWrite_nh (c : Crew) (e : Eng) (i : BitVec 4) (b : Bool) : (pWrite c e i b).nh = c.nh := by
  unfold pWrite; split
  · rfl
  · cases e <;> dsimp only <;> split <;> rfl
@[simp] theorem pWrite_nv (c : Crew) (e : Eng) (i : BitVec 4) (b : Bool) : (pWrite c e i b).nv = c.nv := by
  unfold pWrite; split
  · rfl
  · cases e <;> dsimp only <;> split <;> rfl
@[simp] theorem pWrite_baseA (c : Crew) (e : Eng) (i : BitVec 4) (b : Bool) : (pWrite c e i b).baseA = c.baseA := by
  unfold pWrite; split
  · rfl
  · cases e <;> dsimp only <;> split <;> rfl
@[simp] theorem pWrite_baseB (c : Crew) (e : Eng) (i : BitVec 4) (b : Bool) : (pWrite c e i b).baseB = c.baseB := by
  unfold pWrite; split
  · rfl
  · cases e <;> dsimp only <;> split <;> rfl
@[simp] theorem pWrite_eng (c : Crew) (e : Eng) (i : BitVec 4) (b : Bool) : (pWrite c e i b).eng = c.eng := by
  unfold pWrite; split
  · rfl
  · cases e <;> dsimp only <;> split <;> rfl
@[simp] theorem pWrite_strC (c : Crew) (e : Eng) (i : BitVec 4) (b : Bool) : (pWrite c e i b).strC = c.strC := by
  unfold pWrite; split
  · rfl
  · cases e <;> dsimp only <;> split <;> rfl
@[simp] theorem pWrite_strA (c : Crew) (e : Eng) (i : BitVec 4) (b : Bool) : (pWrite c e i b).strA = c.strA := by
  unfold pWrite; split
  · rfl
  · cases e <;> dsimp only <;> split <;> rfl
@[simp] theorem pWrite_strV (c : Crew) (e : Eng) (i : BitVec 4) (b : Bool) : (pWrite c e i b).strV = c.strV := by
  unfold pWrite; split
  · rfl
  · cases e <;> dsimp only <;> split <;> rfl
@[simp] theorem pWrite_strM (c : Crew) (e : Eng) (i : BitVec 4) (b : Bool) : (pWrite c e i b).strM = c.strM := by
  unfold pWrite; split
  · rfl
  · cases e <;> dsimp only <;> split <;> rfl
@[simp] theorem pWrite_strS (c : Crew) (e : Eng) (i : BitVec 4) (b : Bool) : (pWrite c e i b).strS = c.strS := by
  unfold pWrite; split
  · rfl
  · cases e <;> dsimp only <;> split <;> rfl
@[simp] theorem pWrite_cs (c : Crew) (e : Eng) (i : BitVec 4) (b : Bool) : (pWrite c e i b).cs = c.cs := by
  unfold pWrite; split
  · rfl
  · cases e <;> dsimp only <;> split <;> rfl
@[simp] theorem pWrite_as (c : Crew) (e : Eng) (i : BitVec 4) (b : Bool) : (pWrite c e i b).as = c.as := by
  unfold pWrite; split
  · rfl
  · cases e <;> dsimp only <;> split <;> rfl
@[simp] theorem pWrite_k (c : Crew) (e : Eng) (i : BitVec 4) (b : Bool) : (pWrite c e i b).k = c.k := by
  unfold pWrite; split
  · rfl
  · cases e <;> dsimp only <;> split <;> rfl
@[simp] theorem pWrite_mask (c : Crew) (e : Eng) (i : BitVec 4) (b : Bool) : (pWrite c e i b).mask = c.mask := by
  unfold pWrite; split
  · rfl
  · cases e <;> dsimp only <;> split <;> rfl
@[simp] theorem pWrite_v (c : Crew) (e : Eng) (i : BitVec 4) (b : Bool) : (pWrite c e i b).v = c.v := by
  unfold pWrite; split
  · rfl
  · cases e <;> dsimp only <;> split <;> rfl
@[simp] theorem pWrite_acc (c : Crew) (e : Eng) (i : BitVec 4) (b : Bool) : (pWrite c e i b).acc = c.acc := by
  unfold pWrite; split
  · rfl
  · cases e <;> dsimp only <;> split <;> rfl
@[simp] theorem pWrite_st (c : Crew) (e : Eng) (i : BitVec 4) (b : Bool) : (pWrite c e i b).st = c.st := by
  unfold pWrite; split
  · rfl
  · cases e <;> dsimp only <;> split <;> rfl
@[simp] theorem pWrite_o (c : Crew) (e : Eng) (i : BitVec 4) (b : Bool) : (pWrite c e i b).o = c.o := by
  unfold pWrite; split
  · rfl
  · cases e <;> dsimp only <;> split <;> rfl
@[simp] theorem pWrite_queues (c : Crew) (e : Eng) (i : BitVec 4) (b : Bool) : (pWrite c e i b).queues = c.queues := by
  unfold pWrite; split
  · rfl
  · cases e <;> dsimp only <;> split <;> rfl
@[simp] theorem pWrite_fstat (c : Crew) (e : Eng) (i : BitVec 4) (b : Bool) : (pWrite c e i b).fstat = c.fstat := by
  unfold pWrite; split
  · rfl
  · cases e <;> dsimp only <;> split <;> rfl
@[simp] theorem pWrite_slipw (c : Crew) (e : Eng) (i : BitVec 4) (b : Bool) : (pWrite c e i b).slipw = c.slipw := by
  unfold pWrite; split
  · rfl
  · cases e <;> dsimp only <;> split <;> rfl
@[simp] theorem pWrite_demote (c : Crew) (e : Eng) (i : BitVec 4) (b : Bool) : (pWrite c e i b).demote = c.demote := by
  unfold pWrite; split
  · rfl
  · cases e <;> dsimp only <;> split <;> rfl
@[simp] theorem pWrite_cd (c : Crew) (e : Eng) (i : BitVec 4) (b : Bool) : (pWrite c e i b).cd = c.cd := by
  unfold pWrite; split
  · rfl
  · cases e <;> dsimp only <;> split <;> rfl
@[simp] theorem pWrite_ors (c : Crew) (e : Eng) (i : BitVec 4) (b : Bool) : (pWrite c e i b).ors = c.ors := by
  unfold pWrite; split
  · rfl
  · cases e <;> dsimp only <;> split <;> rfl
@[simp] theorem pWrite_issueNo (c : Crew) (e : Eng) (i : BitVec 4) (b : Bool) : (pWrite c e i b).issueNo = c.issueNo := by
  unfold pWrite; split
  · rfl
  · cases e <;> dsimp only <;> split <;> rfl
@[simp] theorem pWrite_exchNo (c : Crew) (e : Eng) (i : BitVec 4) (b : Bool) : (pWrite c e i b).exchNo = c.exchNo := by
  unfold pWrite; split
  · rfl
  · cases e <;> dsimp only <;> split <;> rfl
@[simp] theorem pWrite_born (c : Crew) (e : Eng) (i : BitVec 4) (b : Bool) : (pWrite c e i b).born = c.born := by
  unfold pWrite; split
  · rfl
  · cases e <;> dsimp only <;> split <;> rfl
@[simp] theorem pWrite_phase (c : Crew) (e : Eng) (i : BitVec 4) (b : Bool) : (pWrite c e i b).phase = c.phase := by
  unfold pWrite; split
  · rfl
  · cases e <;> dsimp only <;> split <;> rfl
@[simp] theorem pWrite_vctx (c : Crew) (e : Eng) (i : BitVec 4) (b : Bool) : (pWrite c e i b).vctx = c.vctx := by
  unfold pWrite; split
  · rfl
  · cases e <;> dsimp only <;> split <;> rfl
@[simp] theorem pWrite_mctx (c : Crew) (e : Eng) (i : BitVec 4) (b : Bool) : (pWrite c e i b).mctx = c.mctx := by
  unfold pWrite; split
  · rfl
  · cases e <;> dsimp only <;> split <;> rfl
@[simp] theorem pWrite_sctx (c : Crew) (e : Eng) (i : BitVec 4) (b : Bool) : (pWrite c e i b).sctx = c.sctx := by
  unfold pWrite; split
  · rfl
  · cases e <;> dsimp only <;> split <;> rfl
@[simp] theorem pWrite_ctl (c : Crew) (e : Eng) (i : BitVec 4) (b : Bool) : (pWrite c e i b).ctl = c.ctl := by
  unfold pWrite; split
  · rfl
  · cases e <;> dsimp only <;> split <;> rfl
@[simp] theorem pWrite_rem (c : Crew) (e : Eng) (i : BitVec 4) (b : Bool) : (pWrite c e i b).rem = c.rem := by
  unfold pWrite; split
  · rfl
  · cases e <;> dsimp only <;> split <;> rfl
@[simp] theorem pWrite_ops (c : Crew) (e : Eng) (i : BitVec 4) (b : Bool) : (pWrite c e i b).ops = c.ops := by
  unfold pWrite; split
  · rfl
  · cases e <;> dsimp only <;> split <;> rfl
@[simp] theorem pWrite_errs (c : Crew) (e : Eng) (i : BitVec 4) (b : Bool) : (pWrite c e i b).errs = c.errs := by
  unfold pWrite; split
  · rfl
  · cases e <;> dsimp only <;> split <;> rfl

@[simp] theorem kWrite_launch (c : Crew) (i : BitVec 5) (x : Cap) : (kWrite c i x).launch = c.launch := by
  unfold kWrite; split
  · rfl
  · split <;> rfl
@[simp] theorem kWrite_rank (c : Crew) (i : BitVec 5) (x : Cap) : (kWrite c i x).rank = c.rank := by
  unfold kWrite; split
  · rfl
  · split <;> rfl
@[simp] theorem kWrite_tenant (c : Crew) (i : BitVec 5) (x : Cap) : (kWrite c i x).tenant = c.tenant := by
  unfold kWrite; split
  · rfl
  · split <;> rfl
@[simp] theorem kWrite_flags (c : Crew) (i : BitVec 5) (x : Cap) : (kWrite c i x).flags = c.flags := by
  unfold kWrite; split
  · rfl
  · split <;> rfl
@[simp] theorem kWrite_text (c : Crew) (i : BitVec 5) (x : Cap) : (kWrite c i x).text = c.text := by
  unfold kWrite; split
  · rfl
  · split <;> rfl
@[simp] theorem kWrite_ra (c : Crew) (i : BitVec 5) (x : Cap) : (kWrite c i x).ra = c.ra := by
  unfold kWrite; split
  · rfl
  · split <;> rfl
@[simp] theorem kWrite_rb (c : Crew) (i : BitVec 5) (x : Cap) : (kWrite c i x).rb = c.rb := by
  unfold kWrite; split
  · rfl
  · split <;> rfl
@[simp] theorem kWrite_nt (c : Crew) (i : BitVec 5) (x : Cap) : (kWrite c i x).nt = c.nt := by
  unfold kWrite; split
  · rfl
  · split <;> rfl
@[simp] theorem kWrite_nh (c : Crew) (i : BitVec 5) (x : Cap) : (kWrite c i x).nh = c.nh := by
  unfold kWrite; split
  · rfl
  · split <;> rfl
@[simp] theorem kWrite_nv (c : Crew) (i : BitVec 5) (x : Cap) : (kWrite c i x).nv = c.nv := by
  unfold kWrite; split
  · rfl
  · split <;> rfl
@[simp] theorem kWrite_baseA (c : Crew) (i : BitVec 5) (x : Cap) : (kWrite c i x).baseA = c.baseA := by
  unfold kWrite; split
  · rfl
  · split <;> rfl
@[simp] theorem kWrite_baseB (c : Crew) (i : BitVec 5) (x : Cap) : (kWrite c i x).baseB = c.baseB := by
  unfold kWrite; split
  · rfl
  · split <;> rfl
@[simp] theorem kWrite_eng (c : Crew) (i : BitVec 5) (x : Cap) : (kWrite c i x).eng = c.eng := by
  unfold kWrite; split
  · rfl
  · split <;> rfl
@[simp] theorem kWrite_strC (c : Crew) (i : BitVec 5) (x : Cap) : (kWrite c i x).strC = c.strC := by
  unfold kWrite; split
  · rfl
  · split <;> rfl
@[simp] theorem kWrite_strA (c : Crew) (i : BitVec 5) (x : Cap) : (kWrite c i x).strA = c.strA := by
  unfold kWrite; split
  · rfl
  · split <;> rfl
@[simp] theorem kWrite_strV (c : Crew) (i : BitVec 5) (x : Cap) : (kWrite c i x).strV = c.strV := by
  unfold kWrite; split
  · rfl
  · split <;> rfl
@[simp] theorem kWrite_strM (c : Crew) (i : BitVec 5) (x : Cap) : (kWrite c i x).strM = c.strM := by
  unfold kWrite; split
  · rfl
  · split <;> rfl
@[simp] theorem kWrite_strS (c : Crew) (i : BitVec 5) (x : Cap) : (kWrite c i x).strS = c.strS := by
  unfold kWrite; split
  · rfl
  · split <;> rfl
@[simp] theorem kWrite_cs (c : Crew) (i : BitVec 5) (x : Cap) : (kWrite c i x).cs = c.cs := by
  unfold kWrite; split
  · rfl
  · split <;> rfl
@[simp] theorem kWrite_as (c : Crew) (i : BitVec 5) (x : Cap) : (kWrite c i x).as = c.as := by
  unfold kWrite; split
  · rfl
  · split <;> rfl
@[simp] theorem kWrite_cp (c : Crew) (i : BitVec 5) (x : Cap) : (kWrite c i x).cp = c.cp := by
  unfold kWrite; split
  · rfl
  · split <;> rfl
@[simp] theorem kWrite_ap (c : Crew) (i : BitVec 5) (x : Cap) : (kWrite c i x).ap = c.ap := by
  unfold kWrite; split
  · rfl
  · split <;> rfl
@[simp] theorem kWrite_mask (c : Crew) (i : BitVec 5) (x : Cap) : (kWrite c i x).mask = c.mask := by
  unfold kWrite; split
  · rfl
  · split <;> rfl
@[simp] theorem kWrite_v (c : Crew) (i : BitVec 5) (x : Cap) : (kWrite c i x).v = c.v := by
  unfold kWrite; split
  · rfl
  · split <;> rfl
@[simp] theorem kWrite_acc (c : Crew) (i : BitVec 5) (x : Cap) : (kWrite c i x).acc = c.acc := by
  unfold kWrite; split
  · rfl
  · split <;> rfl
@[simp] theorem kWrite_st (c : Crew) (i : BitVec 5) (x : Cap) : (kWrite c i x).st = c.st := by
  unfold kWrite; split
  · rfl
  · split <;> rfl
@[simp] theorem kWrite_o (c : Crew) (i : BitVec 5) (x : Cap) : (kWrite c i x).o = c.o := by
  unfold kWrite; split
  · rfl
  · split <;> rfl
@[simp] theorem kWrite_queues (c : Crew) (i : BitVec 5) (x : Cap) : (kWrite c i x).queues = c.queues := by
  unfold kWrite; split
  · rfl
  · split <;> rfl
@[simp] theorem kWrite_fstat (c : Crew) (i : BitVec 5) (x : Cap) : (kWrite c i x).fstat = c.fstat := by
  unfold kWrite; split
  · rfl
  · split <;> rfl
@[simp] theorem kWrite_slipw (c : Crew) (i : BitVec 5) (x : Cap) : (kWrite c i x).slipw = c.slipw := by
  unfold kWrite; split
  · rfl
  · split <;> rfl
@[simp] theorem kWrite_demote (c : Crew) (i : BitVec 5) (x : Cap) : (kWrite c i x).demote = c.demote := by
  unfold kWrite; split
  · rfl
  · split <;> rfl
@[simp] theorem kWrite_cd (c : Crew) (i : BitVec 5) (x : Cap) : (kWrite c i x).cd = c.cd := by
  unfold kWrite; split
  · rfl
  · split <;> rfl
@[simp] theorem kWrite_ors (c : Crew) (i : BitVec 5) (x : Cap) : (kWrite c i x).ors = c.ors := by
  unfold kWrite; split
  · rfl
  · split <;> rfl
@[simp] theorem kWrite_issueNo (c : Crew) (i : BitVec 5) (x : Cap) : (kWrite c i x).issueNo = c.issueNo := by
  unfold kWrite; split
  · rfl
  · split <;> rfl
@[simp] theorem kWrite_exchNo (c : Crew) (i : BitVec 5) (x : Cap) : (kWrite c i x).exchNo = c.exchNo := by
  unfold kWrite; split
  · rfl
  · split <;> rfl
@[simp] theorem kWrite_born (c : Crew) (i : BitVec 5) (x : Cap) : (kWrite c i x).born = c.born := by
  unfold kWrite; split
  · rfl
  · split <;> rfl
@[simp] theorem kWrite_phase (c : Crew) (i : BitVec 5) (x : Cap) : (kWrite c i x).phase = c.phase := by
  unfold kWrite; split
  · rfl
  · split <;> rfl
@[simp] theorem kWrite_vctx (c : Crew) (i : BitVec 5) (x : Cap) : (kWrite c i x).vctx = c.vctx := by
  unfold kWrite; split
  · rfl
  · split <;> rfl
@[simp] theorem kWrite_mctx (c : Crew) (i : BitVec 5) (x : Cap) : (kWrite c i x).mctx = c.mctx := by
  unfold kWrite; split
  · rfl
  · split <;> rfl
@[simp] theorem kWrite_sctx (c : Crew) (i : BitVec 5) (x : Cap) : (kWrite c i x).sctx = c.sctx := by
  unfold kWrite; split
  · rfl
  · split <;> rfl
@[simp] theorem kWrite_ctl (c : Crew) (i : BitVec 5) (x : Cap) : (kWrite c i x).ctl = c.ctl := by
  unfold kWrite; split
  · rfl
  · split <;> rfl
@[simp] theorem kWrite_rem (c : Crew) (i : BitVec 5) (x : Cap) : (kWrite c i x).rem = c.rem := by
  unfold kWrite; split
  · rfl
  · split <;> rfl
@[simp] theorem kWrite_ops (c : Crew) (i : BitVec 5) (x : Cap) : (kWrite c i x).ops = c.ops := by
  unfold kWrite; split
  · rfl
  · split <;> rfl
@[simp] theorem kWrite_errs (c : Crew) (i : BitVec 5) (x : Cap) : (kWrite c i x).errs = c.errs := by
  unfold kWrite; split
  · rfl
  · split <;> rfl

@[simp] theorem mWrite_launch (c : Crew) (i : Nat) (x : Word) : (mWrite c i x).launch = c.launch := by
  unfold mWrite; split <;> rfl
@[simp] theorem mWrite_rank (c : Crew) (i : Nat) (x : Word) : (mWrite c i x).rank = c.rank := by
  unfold mWrite; split <;> rfl
@[simp] theorem mWrite_tenant (c : Crew) (i : Nat) (x : Word) : (mWrite c i x).tenant = c.tenant := by
  unfold mWrite; split <;> rfl
@[simp] theorem mWrite_flags (c : Crew) (i : Nat) (x : Word) : (mWrite c i x).flags = c.flags := by
  unfold mWrite; split <;> rfl
@[simp] theorem mWrite_text (c : Crew) (i : Nat) (x : Word) : (mWrite c i x).text = c.text := by
  unfold mWrite; split <;> rfl
@[simp] theorem mWrite_ra (c : Crew) (i : Nat) (x : Word) : (mWrite c i x).ra = c.ra := by
  unfold mWrite; split <;> rfl
@[simp] theorem mWrite_rb (c : Crew) (i : Nat) (x : Word) : (mWrite c i x).rb = c.rb := by
  unfold mWrite; split <;> rfl
@[simp] theorem mWrite_nt (c : Crew) (i : Nat) (x : Word) : (mWrite c i x).nt = c.nt := by
  unfold mWrite; split <;> rfl
@[simp] theorem mWrite_nh (c : Crew) (i : Nat) (x : Word) : (mWrite c i x).nh = c.nh := by
  unfold mWrite; split <;> rfl
@[simp] theorem mWrite_nv (c : Crew) (i : Nat) (x : Word) : (mWrite c i x).nv = c.nv := by
  unfold mWrite; split <;> rfl
@[simp] theorem mWrite_baseA (c : Crew) (i : Nat) (x : Word) : (mWrite c i x).baseA = c.baseA := by
  unfold mWrite; split <;> rfl
@[simp] theorem mWrite_baseB (c : Crew) (i : Nat) (x : Word) : (mWrite c i x).baseB = c.baseB := by
  unfold mWrite; split <;> rfl
@[simp] theorem mWrite_eng (c : Crew) (i : Nat) (x : Word) : (mWrite c i x).eng = c.eng := by
  unfold mWrite; split <;> rfl
@[simp] theorem mWrite_strC (c : Crew) (i : Nat) (x : Word) : (mWrite c i x).strC = c.strC := by
  unfold mWrite; split <;> rfl
@[simp] theorem mWrite_strA (c : Crew) (i : Nat) (x : Word) : (mWrite c i x).strA = c.strA := by
  unfold mWrite; split <;> rfl
@[simp] theorem mWrite_strV (c : Crew) (i : Nat) (x : Word) : (mWrite c i x).strV = c.strV := by
  unfold mWrite; split <;> rfl
@[simp] theorem mWrite_strM (c : Crew) (i : Nat) (x : Word) : (mWrite c i x).strM = c.strM := by
  unfold mWrite; split <;> rfl
@[simp] theorem mWrite_strS (c : Crew) (i : Nat) (x : Word) : (mWrite c i x).strS = c.strS := by
  unfold mWrite; split <;> rfl
@[simp] theorem mWrite_cs (c : Crew) (i : Nat) (x : Word) : (mWrite c i x).cs = c.cs := by
  unfold mWrite; split <;> rfl
@[simp] theorem mWrite_as (c : Crew) (i : Nat) (x : Word) : (mWrite c i x).as = c.as := by
  unfold mWrite; split <;> rfl
@[simp] theorem mWrite_cp (c : Crew) (i : Nat) (x : Word) : (mWrite c i x).cp = c.cp := by
  unfold mWrite; split <;> rfl
@[simp] theorem mWrite_ap (c : Crew) (i : Nat) (x : Word) : (mWrite c i x).ap = c.ap := by
  unfold mWrite; split <;> rfl
@[simp] theorem mWrite_k (c : Crew) (i : Nat) (x : Word) : (mWrite c i x).k = c.k := by
  unfold mWrite; split <;> rfl
@[simp] theorem mWrite_v (c : Crew) (i : Nat) (x : Word) : (mWrite c i x).v = c.v := by
  unfold mWrite; split <;> rfl
@[simp] theorem mWrite_acc (c : Crew) (i : Nat) (x : Word) : (mWrite c i x).acc = c.acc := by
  unfold mWrite; split <;> rfl
@[simp] theorem mWrite_st (c : Crew) (i : Nat) (x : Word) : (mWrite c i x).st = c.st := by
  unfold mWrite; split <;> rfl
@[simp] theorem mWrite_o (c : Crew) (i : Nat) (x : Word) : (mWrite c i x).o = c.o := by
  unfold mWrite; split <;> rfl
@[simp] theorem mWrite_queues (c : Crew) (i : Nat) (x : Word) : (mWrite c i x).queues = c.queues := by
  unfold mWrite; split <;> rfl
@[simp] theorem mWrite_fstat (c : Crew) (i : Nat) (x : Word) : (mWrite c i x).fstat = c.fstat := by
  unfold mWrite; split <;> rfl
@[simp] theorem mWrite_slipw (c : Crew) (i : Nat) (x : Word) : (mWrite c i x).slipw = c.slipw := by
  unfold mWrite; split <;> rfl
@[simp] theorem mWrite_demote (c : Crew) (i : Nat) (x : Word) : (mWrite c i x).demote = c.demote := by
  unfold mWrite; split <;> rfl
@[simp] theorem mWrite_cd (c : Crew) (i : Nat) (x : Word) : (mWrite c i x).cd = c.cd := by
  unfold mWrite; split <;> rfl
@[simp] theorem mWrite_ors (c : Crew) (i : Nat) (x : Word) : (mWrite c i x).ors = c.ors := by
  unfold mWrite; split <;> rfl
@[simp] theorem mWrite_issueNo (c : Crew) (i : Nat) (x : Word) : (mWrite c i x).issueNo = c.issueNo := by
  unfold mWrite; split <;> rfl
@[simp] theorem mWrite_exchNo (c : Crew) (i : Nat) (x : Word) : (mWrite c i x).exchNo = c.exchNo := by
  unfold mWrite; split <;> rfl
@[simp] theorem mWrite_born (c : Crew) (i : Nat) (x : Word) : (mWrite c i x).born = c.born := by
  unfold mWrite; split <;> rfl
@[simp] theorem mWrite_phase (c : Crew) (i : Nat) (x : Word) : (mWrite c i x).phase = c.phase := by
  unfold mWrite; split <;> rfl
@[simp] theorem mWrite_vctx (c : Crew) (i : Nat) (x : Word) : (mWrite c i x).vctx = c.vctx := by
  unfold mWrite; split <;> rfl
@[simp] theorem mWrite_mctx (c : Crew) (i : Nat) (x : Word) : (mWrite c i x).mctx = c.mctx := by
  unfold mWrite; split <;> rfl
@[simp] theorem mWrite_sctx (c : Crew) (i : Nat) (x : Word) : (mWrite c i x).sctx = c.sctx := by
  unfold mWrite; split <;> rfl
@[simp] theorem mWrite_trap (c : Crew) (i : Nat) (x : Word) : (mWrite c i x).trap = c.trap := by
  unfold mWrite; split <;> rfl
@[simp] theorem mWrite_ctl (c : Crew) (i : Nat) (x : Word) : (mWrite c i x).ctl = c.ctl := by
  unfold mWrite; split <;> rfl
@[simp] theorem mWrite_rem (c : Crew) (i : Nat) (x : Word) : (mWrite c i x).rem = c.rem := by
  unfold mWrite; split <;> rfl
@[simp] theorem mWrite_ops (c : Crew) (i : Nat) (x : Word) : (mWrite c i x).ops = c.ops := by
  unfold mWrite; split <;> rfl
@[simp] theorem mWrite_errs (c : Crew) (i : Nat) (x : Word) : (mWrite c i x).errs = c.errs := by
  unfold mWrite; split <;> rfl

@[simp] theorem nWrite_launch (c : Crew) (e : Eng) (i : Nat) (x : BitVec 16) : (nWrite c e i x).launch = c.launch := by
  unfold nWrite; split
  · rfl
  · cases e <;> rfl
@[simp] theorem nWrite_rank (c : Crew) (e : Eng) (i : Nat) (x : BitVec 16) : (nWrite c e i x).rank = c.rank := by
  unfold nWrite; split
  · rfl
  · cases e <;> rfl
@[simp] theorem nWrite_tenant (c : Crew) (e : Eng) (i : Nat) (x : BitVec 16) : (nWrite c e i x).tenant = c.tenant := by
  unfold nWrite; split
  · rfl
  · cases e <;> rfl
@[simp] theorem nWrite_flags (c : Crew) (e : Eng) (i : Nat) (x : BitVec 16) : (nWrite c e i x).flags = c.flags := by
  unfold nWrite; split
  · rfl
  · cases e <;> rfl
@[simp] theorem nWrite_text (c : Crew) (e : Eng) (i : Nat) (x : BitVec 16) : (nWrite c e i x).text = c.text := by
  unfold nWrite; split
  · rfl
  · cases e <;> rfl
@[simp] theorem nWrite_ra (c : Crew) (e : Eng) (i : Nat) (x : BitVec 16) : (nWrite c e i x).ra = c.ra := by
  unfold nWrite; split
  · rfl
  · cases e <;> rfl
@[simp] theorem nWrite_rb (c : Crew) (e : Eng) (i : Nat) (x : BitVec 16) : (nWrite c e i x).rb = c.rb := by
  unfold nWrite; split
  · rfl
  · cases e <;> rfl
@[simp] theorem nWrite_nt (c : Crew) (e : Eng) (i : Nat) (x : BitVec 16) : (nWrite c e i x).nt = c.nt := by
  unfold nWrite; split
  · rfl
  · cases e <;> rfl
@[simp] theorem nWrite_nh (c : Crew) (e : Eng) (i : Nat) (x : BitVec 16) : (nWrite c e i x).nh = c.nh := by
  unfold nWrite; split
  · rfl
  · cases e <;> rfl
@[simp] theorem nWrite_nv (c : Crew) (e : Eng) (i : Nat) (x : BitVec 16) : (nWrite c e i x).nv = c.nv := by
  unfold nWrite; split
  · rfl
  · cases e <;> rfl
@[simp] theorem nWrite_baseA (c : Crew) (e : Eng) (i : Nat) (x : BitVec 16) : (nWrite c e i x).baseA = c.baseA := by
  unfold nWrite; split
  · rfl
  · cases e <;> rfl
@[simp] theorem nWrite_baseB (c : Crew) (e : Eng) (i : Nat) (x : BitVec 16) : (nWrite c e i x).baseB = c.baseB := by
  unfold nWrite; split
  · rfl
  · cases e <;> rfl
@[simp] theorem nWrite_eng (c : Crew) (e : Eng) (i : Nat) (x : BitVec 16) : (nWrite c e i x).eng = c.eng := by
  unfold nWrite; split
  · rfl
  · cases e <;> rfl
@[simp] theorem nWrite_cs (c : Crew) (e : Eng) (i : Nat) (x : BitVec 16) : (nWrite c e i x).cs = c.cs := by
  unfold nWrite; split
  · rfl
  · cases e <;> rfl
@[simp] theorem nWrite_as (c : Crew) (e : Eng) (i : Nat) (x : BitVec 16) : (nWrite c e i x).as = c.as := by
  unfold nWrite; split
  · rfl
  · cases e <;> rfl
@[simp] theorem nWrite_cp (c : Crew) (e : Eng) (i : Nat) (x : BitVec 16) : (nWrite c e i x).cp = c.cp := by
  unfold nWrite; split
  · rfl
  · cases e <;> rfl
@[simp] theorem nWrite_ap (c : Crew) (e : Eng) (i : Nat) (x : BitVec 16) : (nWrite c e i x).ap = c.ap := by
  unfold nWrite; split
  · rfl
  · cases e <;> rfl
@[simp] theorem nWrite_k (c : Crew) (e : Eng) (i : Nat) (x : BitVec 16) : (nWrite c e i x).k = c.k := by
  unfold nWrite; split
  · rfl
  · cases e <;> rfl
@[simp] theorem nWrite_mask (c : Crew) (e : Eng) (i : Nat) (x : BitVec 16) : (nWrite c e i x).mask = c.mask := by
  unfold nWrite; split
  · rfl
  · cases e <;> rfl
@[simp] theorem nWrite_v (c : Crew) (e : Eng) (i : Nat) (x : BitVec 16) : (nWrite c e i x).v = c.v := by
  unfold nWrite; split
  · rfl
  · cases e <;> rfl
@[simp] theorem nWrite_acc (c : Crew) (e : Eng) (i : Nat) (x : BitVec 16) : (nWrite c e i x).acc = c.acc := by
  unfold nWrite; split
  · rfl
  · cases e <;> rfl
@[simp] theorem nWrite_st (c : Crew) (e : Eng) (i : Nat) (x : BitVec 16) : (nWrite c e i x).st = c.st := by
  unfold nWrite; split
  · rfl
  · cases e <;> rfl
@[simp] theorem nWrite_o (c : Crew) (e : Eng) (i : Nat) (x : BitVec 16) : (nWrite c e i x).o = c.o := by
  unfold nWrite; split
  · rfl
  · cases e <;> rfl
@[simp] theorem nWrite_queues (c : Crew) (e : Eng) (i : Nat) (x : BitVec 16) : (nWrite c e i x).queues = c.queues := by
  unfold nWrite; split
  · rfl
  · cases e <;> rfl
@[simp] theorem nWrite_fstat (c : Crew) (e : Eng) (i : Nat) (x : BitVec 16) : (nWrite c e i x).fstat = c.fstat := by
  unfold nWrite; split
  · rfl
  · cases e <;> rfl
@[simp] theorem nWrite_slipw (c : Crew) (e : Eng) (i : Nat) (x : BitVec 16) : (nWrite c e i x).slipw = c.slipw := by
  unfold nWrite; split
  · rfl
  · cases e <;> rfl
@[simp] theorem nWrite_demote (c : Crew) (e : Eng) (i : Nat) (x : BitVec 16) : (nWrite c e i x).demote = c.demote := by
  unfold nWrite; split
  · rfl
  · cases e <;> rfl
@[simp] theorem nWrite_cd (c : Crew) (e : Eng) (i : Nat) (x : BitVec 16) : (nWrite c e i x).cd = c.cd := by
  unfold nWrite; split
  · rfl
  · cases e <;> rfl
@[simp] theorem nWrite_ors (c : Crew) (e : Eng) (i : Nat) (x : BitVec 16) : (nWrite c e i x).ors = c.ors := by
  unfold nWrite; split
  · rfl
  · cases e <;> rfl
@[simp] theorem nWrite_issueNo (c : Crew) (e : Eng) (i : Nat) (x : BitVec 16) : (nWrite c e i x).issueNo = c.issueNo := by
  unfold nWrite; split
  · rfl
  · cases e <;> rfl
@[simp] theorem nWrite_exchNo (c : Crew) (e : Eng) (i : Nat) (x : BitVec 16) : (nWrite c e i x).exchNo = c.exchNo := by
  unfold nWrite; split
  · rfl
  · cases e <;> rfl
@[simp] theorem nWrite_born (c : Crew) (e : Eng) (i : Nat) (x : BitVec 16) : (nWrite c e i x).born = c.born := by
  unfold nWrite; split
  · rfl
  · cases e <;> rfl
@[simp] theorem nWrite_phase (c : Crew) (e : Eng) (i : Nat) (x : BitVec 16) : (nWrite c e i x).phase = c.phase := by
  unfold nWrite; split
  · rfl
  · cases e <;> rfl
@[simp] theorem nWrite_vctx (c : Crew) (e : Eng) (i : Nat) (x : BitVec 16) : (nWrite c e i x).vctx = c.vctx := by
  unfold nWrite; split
  · rfl
  · cases e <;> rfl
@[simp] theorem nWrite_mctx (c : Crew) (e : Eng) (i : Nat) (x : BitVec 16) : (nWrite c e i x).mctx = c.mctx := by
  unfold nWrite; split
  · rfl
  · cases e <;> rfl
@[simp] theorem nWrite_sctx (c : Crew) (e : Eng) (i : Nat) (x : BitVec 16) : (nWrite c e i x).sctx = c.sctx := by
  unfold nWrite; split
  · rfl
  · cases e <;> rfl
@[simp] theorem nWrite_trap (c : Crew) (e : Eng) (i : Nat) (x : BitVec 16) : (nWrite c e i x).trap = c.trap := by
  unfold nWrite; split
  · rfl
  · cases e <;> rfl
@[simp] theorem nWrite_ctl (c : Crew) (e : Eng) (i : Nat) (x : BitVec 16) : (nWrite c e i x).ctl = c.ctl := by
  unfold nWrite; split
  · rfl
  · cases e <;> rfl
@[simp] theorem nWrite_rem (c : Crew) (e : Eng) (i : Nat) (x : BitVec 16) : (nWrite c e i x).rem = c.rem := by
  unfold nWrite; split
  · rfl
  · cases e <;> rfl
@[simp] theorem nWrite_ops (c : Crew) (e : Eng) (i : Nat) (x : BitVec 16) : (nWrite c e i x).ops = c.ops := by
  unfold nWrite; split
  · rfl
  · cases e <;> rfl
@[simp] theorem nWrite_errs (c : Crew) (e : Eng) (i : Nat) (x : BitVec 16) : (nWrite c e i x).errs = c.errs := by
  unfold nWrite; split
  · rfl
  · cases e <;> rfl

@[simp] theorem dWrite_launch (c : Crew) (e : Eng) (i x : Nat) : (dWrite c e i x).launch = c.launch := by
  unfold dWrite; cases e <;> rfl
@[simp] theorem dWrite_rank (c : Crew) (e : Eng) (i x : Nat) : (dWrite c e i x).rank = c.rank := by
  unfold dWrite; cases e <;> rfl
@[simp] theorem dWrite_tenant (c : Crew) (e : Eng) (i x : Nat) : (dWrite c e i x).tenant = c.tenant := by
  unfold dWrite; cases e <;> rfl
@[simp] theorem dWrite_flags (c : Crew) (e : Eng) (i x : Nat) : (dWrite c e i x).flags = c.flags := by
  unfold dWrite; cases e <;> rfl
@[simp] theorem dWrite_text (c : Crew) (e : Eng) (i x : Nat) : (dWrite c e i x).text = c.text := by
  unfold dWrite; cases e <;> rfl
@[simp] theorem dWrite_ra (c : Crew) (e : Eng) (i x : Nat) : (dWrite c e i x).ra = c.ra := by
  unfold dWrite; cases e <;> rfl
@[simp] theorem dWrite_rb (c : Crew) (e : Eng) (i x : Nat) : (dWrite c e i x).rb = c.rb := by
  unfold dWrite; cases e <;> rfl
@[simp] theorem dWrite_nt (c : Crew) (e : Eng) (i x : Nat) : (dWrite c e i x).nt = c.nt := by
  unfold dWrite; cases e <;> rfl
@[simp] theorem dWrite_nh (c : Crew) (e : Eng) (i x : Nat) : (dWrite c e i x).nh = c.nh := by
  unfold dWrite; cases e <;> rfl
@[simp] theorem dWrite_nv (c : Crew) (e : Eng) (i x : Nat) : (dWrite c e i x).nv = c.nv := by
  unfold dWrite; cases e <;> rfl
@[simp] theorem dWrite_baseA (c : Crew) (e : Eng) (i x : Nat) : (dWrite c e i x).baseA = c.baseA := by
  unfold dWrite; cases e <;> rfl
@[simp] theorem dWrite_baseB (c : Crew) (e : Eng) (i x : Nat) : (dWrite c e i x).baseB = c.baseB := by
  unfold dWrite; cases e <;> rfl
@[simp] theorem dWrite_eng (c : Crew) (e : Eng) (i x : Nat) : (dWrite c e i x).eng = c.eng := by
  unfold dWrite; cases e <;> rfl
@[simp] theorem dWrite_cs (c : Crew) (e : Eng) (i x : Nat) : (dWrite c e i x).cs = c.cs := by
  unfold dWrite; cases e <;> rfl
@[simp] theorem dWrite_as (c : Crew) (e : Eng) (i x : Nat) : (dWrite c e i x).as = c.as := by
  unfold dWrite; cases e <;> rfl
@[simp] theorem dWrite_cp (c : Crew) (e : Eng) (i x : Nat) : (dWrite c e i x).cp = c.cp := by
  unfold dWrite; cases e <;> rfl
@[simp] theorem dWrite_ap (c : Crew) (e : Eng) (i x : Nat) : (dWrite c e i x).ap = c.ap := by
  unfold dWrite; cases e <;> rfl
@[simp] theorem dWrite_k (c : Crew) (e : Eng) (i x : Nat) : (dWrite c e i x).k = c.k := by
  unfold dWrite; cases e <;> rfl
@[simp] theorem dWrite_mask (c : Crew) (e : Eng) (i x : Nat) : (dWrite c e i x).mask = c.mask := by
  unfold dWrite; cases e <;> rfl
@[simp] theorem dWrite_v (c : Crew) (e : Eng) (i x : Nat) : (dWrite c e i x).v = c.v := by
  unfold dWrite; cases e <;> rfl
@[simp] theorem dWrite_acc (c : Crew) (e : Eng) (i x : Nat) : (dWrite c e i x).acc = c.acc := by
  unfold dWrite; cases e <;> rfl
@[simp] theorem dWrite_st (c : Crew) (e : Eng) (i x : Nat) : (dWrite c e i x).st = c.st := by
  unfold dWrite; cases e <;> rfl
@[simp] theorem dWrite_o (c : Crew) (e : Eng) (i x : Nat) : (dWrite c e i x).o = c.o := by
  unfold dWrite; cases e <;> rfl
@[simp] theorem dWrite_queues (c : Crew) (e : Eng) (i x : Nat) : (dWrite c e i x).queues = c.queues := by
  unfold dWrite; cases e <;> rfl
@[simp] theorem dWrite_fstat (c : Crew) (e : Eng) (i x : Nat) : (dWrite c e i x).fstat = c.fstat := by
  unfold dWrite; cases e <;> rfl
@[simp] theorem dWrite_slipw (c : Crew) (e : Eng) (i x : Nat) : (dWrite c e i x).slipw = c.slipw := by
  unfold dWrite; cases e <;> rfl
@[simp] theorem dWrite_demote (c : Crew) (e : Eng) (i x : Nat) : (dWrite c e i x).demote = c.demote := by
  unfold dWrite; cases e <;> rfl
@[simp] theorem dWrite_cd (c : Crew) (e : Eng) (i x : Nat) : (dWrite c e i x).cd = c.cd := by
  unfold dWrite; cases e <;> rfl
@[simp] theorem dWrite_ors (c : Crew) (e : Eng) (i x : Nat) : (dWrite c e i x).ors = c.ors := by
  unfold dWrite; cases e <;> rfl
@[simp] theorem dWrite_issueNo (c : Crew) (e : Eng) (i x : Nat) : (dWrite c e i x).issueNo = c.issueNo := by
  unfold dWrite; cases e <;> rfl
@[simp] theorem dWrite_exchNo (c : Crew) (e : Eng) (i x : Nat) : (dWrite c e i x).exchNo = c.exchNo := by
  unfold dWrite; cases e <;> rfl
@[simp] theorem dWrite_born (c : Crew) (e : Eng) (i x : Nat) : (dWrite c e i x).born = c.born := by
  unfold dWrite; cases e <;> rfl
@[simp] theorem dWrite_phase (c : Crew) (e : Eng) (i x : Nat) : (dWrite c e i x).phase = c.phase := by
  unfold dWrite; cases e <;> rfl
@[simp] theorem dWrite_vctx (c : Crew) (e : Eng) (i x : Nat) : (dWrite c e i x).vctx = c.vctx := by
  unfold dWrite; cases e <;> rfl
@[simp] theorem dWrite_mctx (c : Crew) (e : Eng) (i x : Nat) : (dWrite c e i x).mctx = c.mctx := by
  unfold dWrite; cases e <;> rfl
@[simp] theorem dWrite_sctx (c : Crew) (e : Eng) (i x : Nat) : (dWrite c e i x).sctx = c.sctx := by
  unfold dWrite; cases e <;> rfl
@[simp] theorem dWrite_trap (c : Crew) (e : Eng) (i x : Nat) : (dWrite c e i x).trap = c.trap := by
  unfold dWrite; cases e <;> rfl
@[simp] theorem dWrite_ctl (c : Crew) (e : Eng) (i x : Nat) : (dWrite c e i x).ctl = c.ctl := by
  unfold dWrite; cases e <;> rfl
@[simp] theorem dWrite_rem (c : Crew) (e : Eng) (i x : Nat) : (dWrite c e i x).rem = c.rem := by
  unfold dWrite; cases e <;> rfl
@[simp] theorem dWrite_ops (c : Crew) (e : Eng) (i x : Nat) : (dWrite c e i x).ops = c.ops := by
  unfold dWrite; cases e <;> rfl
@[simp] theorem dWrite_errs (c : Crew) (e : Eng) (i x : Nat) : (dWrite c e i x).errs = c.errs := by
  unfold dWrite; cases e <;> rfl

@[simp] theorem strOf_sWrite (c : Crew) (e o : Eng) (i : BitVec 5) (x : Word) : strOf (sWrite c e i x) o = strOf c o := by
  cases o <;> simp [strOf]
@[simp] theorem strOf_pWrite (c : Crew) (e o : Eng) (i : BitVec 4) (b : Bool) : strOf (pWrite c e i b) o = strOf c o := by
  cases o <;> simp [strOf]
@[simp] theorem strOf_kWrite (c : Crew) (o : Eng) (i : BitVec 5) (x : Cap) : strOf (kWrite c i x) o = strOf c o := by
  cases o <;> simp [strOf]
@[simp] theorem strOf_mWrite (c : Crew) (o : Eng) (i : Nat) (x : Word) : strOf (mWrite c i x) o = strOf c o := by
  cases o <;> simp [strOf]

/-- What a register write leaves of the trap context: everything but the handler's banks. -/
def TrapCtx.sameButBanks (t u : TrapCtx) : Prop :=
  t = { u with hcs := t.hcs, has := t.has, hk := t.hk, hcp := t.hcp, hap := t.hap }
theorem sWrite_trap (c : Crew) (e : Eng) (i : BitVec 5) (x : Word) : (sWrite c e i x).trap.sameButBanks c.trap := by
  unfold sWrite TrapCtx.sameButBanks; split
  · rfl
  · cases e <;> dsimp only <;> split <;> rfl
theorem pWrite_trap (c : Crew) (e : Eng) (i : BitVec 4) (b : Bool) : (pWrite c e i b).trap.sameButBanks c.trap := by
  unfold pWrite TrapCtx.sameButBanks; split
  · rfl
  · cases e <;> dsimp only <;> split <;> rfl
theorem kWrite_trap (c : Crew) (i : BitVec 5) (x : Cap) : (kWrite c i x).trap.sameButBanks c.trap := by
  unfold kWrite TrapCtx.sameButBanks; split
  · rfl
  · split <;> rfl



/-! ### The pieces of retiring -/

@[simp] theorem setPc_launch (c : Crew) (e : Eng) (pc : Nat) : (setPc c e pc).launch = c.launch := by
  unfold setPc; cases c.trap.inHandler <;> cases e <;> rfl
@[simp] theorem setPc_rank (c : Crew) (e : Eng) (pc : Nat) : (setPc c e pc).rank = c.rank := by
  unfold setPc; cases c.trap.inHandler <;> cases e <;> rfl
@[simp] theorem setPc_tenant (c : Crew) (e : Eng) (pc : Nat) : (setPc c e pc).tenant = c.tenant := by
  unfold setPc; cases c.trap.inHandler <;> cases e <;> rfl
@[simp] theorem setPc_flags (c : Crew) (e : Eng) (pc : Nat) : (setPc c e pc).flags = c.flags := by
  unfold setPc; cases c.trap.inHandler <;> cases e <;> rfl
@[simp] theorem setPc_text (c : Crew) (e : Eng) (pc : Nat) : (setPc c e pc).text = c.text := by
  unfold setPc; cases c.trap.inHandler <;> cases e <;> rfl
@[simp] theorem setPc_ra (c : Crew) (e : Eng) (pc : Nat) : (setPc c e pc).ra = c.ra := by
  unfold setPc; cases c.trap.inHandler <;> cases e <;> rfl
@[simp] theorem setPc_rb (c : Crew) (e : Eng) (pc : Nat) : (setPc c e pc).rb = c.rb := by
  unfold setPc; cases c.trap.inHandler <;> cases e <;> rfl
@[simp] theorem setPc_nt (c : Crew) (e : Eng) (pc : Nat) : (setPc c e pc).nt = c.nt := by
  unfold setPc; cases c.trap.inHandler <;> cases e <;> rfl
@[simp] theorem setPc_nh (c : Crew) (e : Eng) (pc : Nat) : (setPc c e pc).nh = c.nh := by
  unfold setPc; cases c.trap.inHandler <;> cases e <;> rfl
@[simp] theorem setPc_nv (c : Crew) (e : Eng) (pc : Nat) : (setPc c e pc).nv = c.nv := by
  unfold setPc; cases c.trap.inHandler <;> cases e <;> rfl
@[simp] theorem setPc_baseA (c : Crew) (e : Eng) (pc : Nat) : (setPc c e pc).baseA = c.baseA := by
  unfold setPc; cases c.trap.inHandler <;> cases e <;> rfl
@[simp] theorem setPc_baseB (c : Crew) (e : Eng) (pc : Nat) : (setPc c e pc).baseB = c.baseB := by
  unfold setPc; cases c.trap.inHandler <;> cases e <;> rfl
@[simp] theorem setPc_eng (c : Crew) (e : Eng) (pc : Nat) : (setPc c e pc).eng = c.eng := by
  unfold setPc; cases c.trap.inHandler <;> cases e <;> rfl
@[simp] theorem setPc_cs (c : Crew) (e : Eng) (pc : Nat) : (setPc c e pc).cs = c.cs := by
  unfold setPc; cases c.trap.inHandler <;> cases e <;> rfl
@[simp] theorem setPc_as (c : Crew) (e : Eng) (pc : Nat) : (setPc c e pc).as = c.as := by
  unfold setPc; cases c.trap.inHandler <;> cases e <;> rfl
@[simp] theorem setPc_cp (c : Crew) (e : Eng) (pc : Nat) : (setPc c e pc).cp = c.cp := by
  unfold setPc; cases c.trap.inHandler <;> cases e <;> rfl
@[simp] theorem setPc_ap (c : Crew) (e : Eng) (pc : Nat) : (setPc c e pc).ap = c.ap := by
  unfold setPc; cases c.trap.inHandler <;> cases e <;> rfl
@[simp] theorem setPc_k (c : Crew) (e : Eng) (pc : Nat) : (setPc c e pc).k = c.k := by
  unfold setPc; cases c.trap.inHandler <;> cases e <;> rfl
@[simp] theorem setPc_mask (c : Crew) (e : Eng) (pc : Nat) : (setPc c e pc).mask = c.mask := by
  unfold setPc; cases c.trap.inHandler <;> cases e <;> rfl
@[simp] theorem setPc_v (c : Crew) (e : Eng) (pc : Nat) : (setPc c e pc).v = c.v := by
  unfold setPc; cases c.trap.inHandler <;> cases e <;> rfl
@[simp] theorem setPc_acc (c : Crew) (e : Eng) (pc : Nat) : (setPc c e pc).acc = c.acc := by
  unfold setPc; cases c.trap.inHandler <;> cases e <;> rfl
@[simp] theorem setPc_st (c : Crew) (e : Eng) (pc : Nat) : (setPc c e pc).st = c.st := by
  unfold setPc; cases c.trap.inHandler <;> cases e <;> rfl
@[simp] theorem setPc_o (c : Crew) (e : Eng) (pc : Nat) : (setPc c e pc).o = c.o := by
  unfold setPc; cases c.trap.inHandler <;> cases e <;> rfl
@[simp] theorem setPc_queues (c : Crew) (e : Eng) (pc : Nat) : (setPc c e pc).queues = c.queues := by
  unfold setPc; cases c.trap.inHandler <;> cases e <;> rfl
@[simp] theorem setPc_fstat (c : Crew) (e : Eng) (pc : Nat) : (setPc c e pc).fstat = c.fstat := by
  unfold setPc; cases c.trap.inHandler <;> cases e <;> rfl
@[simp] theorem setPc_slipw (c : Crew) (e : Eng) (pc : Nat) : (setPc c e pc).slipw = c.slipw := by
  unfold setPc; cases c.trap.inHandler <;> cases e <;> rfl
@[simp] theorem setPc_demote (c : Crew) (e : Eng) (pc : Nat) : (setPc c e pc).demote = c.demote := by
  unfold setPc; cases c.trap.inHandler <;> cases e <;> rfl
@[simp] theorem setPc_cd (c : Crew) (e : Eng) (pc : Nat) : (setPc c e pc).cd = c.cd := by
  unfold setPc; cases c.trap.inHandler <;> cases e <;> rfl
@[simp] theorem setPc_ors (c : Crew) (e : Eng) (pc : Nat) : (setPc c e pc).ors = c.ors := by
  unfold setPc; cases c.trap.inHandler <;> cases e <;> rfl
@[simp] theorem setPc_issueNo (c : Crew) (e : Eng) (pc : Nat) : (setPc c e pc).issueNo = c.issueNo := by
  unfold setPc; cases c.trap.inHandler <;> cases e <;> rfl
@[simp] theorem setPc_exchNo (c : Crew) (e : Eng) (pc : Nat) : (setPc c e pc).exchNo = c.exchNo := by
  unfold setPc; cases c.trap.inHandler <;> cases e <;> rfl
@[simp] theorem setPc_born (c : Crew) (e : Eng) (pc : Nat) : (setPc c e pc).born = c.born := by
  unfold setPc; cases c.trap.inHandler <;> cases e <;> rfl
@[simp] theorem setPc_phase (c : Crew) (e : Eng) (pc : Nat) : (setPc c e pc).phase = c.phase := by
  unfold setPc; cases c.trap.inHandler <;> cases e <;> rfl
@[simp] theorem setPc_vctx (c : Crew) (e : Eng) (pc : Nat) : (setPc c e pc).vctx = c.vctx := by
  unfold setPc; cases c.trap.inHandler <;> cases e <;> rfl
@[simp] theorem setPc_mctx (c : Crew) (e : Eng) (pc : Nat) : (setPc c e pc).mctx = c.mctx := by
  unfold setPc; cases c.trap.inHandler <;> cases e <;> rfl
@[simp] theorem setPc_sctx (c : Crew) (e : Eng) (pc : Nat) : (setPc c e pc).sctx = c.sctx := by
  unfold setPc; cases c.trap.inHandler <;> cases e <;> rfl
@[simp] theorem setPc_ctl (c : Crew) (e : Eng) (pc : Nat) : (setPc c e pc).ctl = c.ctl := by
  unfold setPc; cases c.trap.inHandler <;> cases e <;> rfl
@[simp] theorem setPc_rem (c : Crew) (e : Eng) (pc : Nat) : (setPc c e pc).rem = c.rem := by
  unfold setPc; cases c.trap.inHandler <;> cases e <;> rfl
@[simp] theorem setPc_ops (c : Crew) (e : Eng) (pc : Nat) : (setPc c e pc).ops = c.ops := by
  unfold setPc; cases c.trap.inHandler <;> cases e <;> rfl
@[simp] theorem setPc_errs (c : Crew) (e : Eng) (pc : Nat) : (setPc c e pc).errs = c.errs := by
  unfold setPc; cases c.trap.inHandler <;> cases e <;> rfl

@[simp] theorem walkPath_launch (c : Crew) (e : Eng) (len : Nat) : (walkPath c e len).launch = c.launch := by
  unfold walkPath; split <;> simp
@[simp] theorem walkPath_rank (c : Crew) (e : Eng) (len : Nat) : (walkPath c e len).rank = c.rank := by
  unfold walkPath; split <;> simp
@[simp] theorem walkPath_tenant (c : Crew) (e : Eng) (len : Nat) : (walkPath c e len).tenant = c.tenant := by
  unfold walkPath; split <;> simp
@[simp] theorem walkPath_flags (c : Crew) (e : Eng) (len : Nat) : (walkPath c e len).flags = c.flags := by
  unfold walkPath; split <;> simp
@[simp] theorem walkPath_text (c : Crew) (e : Eng) (len : Nat) : (walkPath c e len).text = c.text := by
  unfold walkPath; split <;> simp
@[simp] theorem walkPath_ra (c : Crew) (e : Eng) (len : Nat) : (walkPath c e len).ra = c.ra := by
  unfold walkPath; split <;> simp
@[simp] theorem walkPath_rb (c : Crew) (e : Eng) (len : Nat) : (walkPath c e len).rb = c.rb := by
  unfold walkPath; split <;> simp
@[simp] theorem walkPath_nt (c : Crew) (e : Eng) (len : Nat) : (walkPath c e len).nt = c.nt := by
  unfold walkPath; split <;> simp
@[simp] theorem walkPath_nh (c : Crew) (e : Eng) (len : Nat) : (walkPath c e len).nh = c.nh := by
  unfold walkPath; split <;> simp
@[simp] theorem walkPath_nv (c : Crew) (e : Eng) (len : Nat) : (walkPath c e len).nv = c.nv := by
  unfold walkPath; split <;> simp
@[simp] theorem walkPath_baseA (c : Crew) (e : Eng) (len : Nat) : (walkPath c e len).baseA = c.baseA := by
  unfold walkPath; split <;> simp
@[simp] theorem walkPath_baseB (c : Crew) (e : Eng) (len : Nat) : (walkPath c e len).baseB = c.baseB := by
  unfold walkPath; split <;> simp
@[simp] theorem walkPath_eng (c : Crew) (e : Eng) (len : Nat) : (walkPath c e len).eng = c.eng := by
  unfold walkPath; split <;> simp
@[simp] theorem walkPath_cs (c : Crew) (e : Eng) (len : Nat) : (walkPath c e len).cs = c.cs := by
  unfold walkPath; split <;> simp
@[simp] theorem walkPath_as (c : Crew) (e : Eng) (len : Nat) : (walkPath c e len).as = c.as := by
  unfold walkPath; split <;> simp
@[simp] theorem walkPath_cp (c : Crew) (e : Eng) (len : Nat) : (walkPath c e len).cp = c.cp := by
  unfold walkPath; split <;> simp
@[simp] theorem walkPath_ap (c : Crew) (e : Eng) (len : Nat) : (walkPath c e len).ap = c.ap := by
  unfold walkPath; split <;> simp
@[simp] theorem walkPath_k (c : Crew) (e : Eng) (len : Nat) : (walkPath c e len).k = c.k := by
  unfold walkPath; split <;> simp
@[simp] theorem walkPath_mask (c : Crew) (e : Eng) (len : Nat) : (walkPath c e len).mask = c.mask := by
  unfold walkPath; split <;> simp
@[simp] theorem walkPath_v (c : Crew) (e : Eng) (len : Nat) : (walkPath c e len).v = c.v := by
  unfold walkPath; split <;> simp
@[simp] theorem walkPath_acc (c : Crew) (e : Eng) (len : Nat) : (walkPath c e len).acc = c.acc := by
  unfold walkPath; split <;> simp
@[simp] theorem walkPath_st (c : Crew) (e : Eng) (len : Nat) : (walkPath c e len).st = c.st := by
  unfold walkPath; split <;> simp
@[simp] theorem walkPath_o (c : Crew) (e : Eng) (len : Nat) : (walkPath c e len).o = c.o := by
  unfold walkPath; split <;> simp
@[simp] theorem walkPath_queues (c : Crew) (e : Eng) (len : Nat) : (walkPath c e len).queues = c.queues := by
  unfold walkPath; split <;> simp
@[simp] theorem walkPath_fstat (c : Crew) (e : Eng) (len : Nat) : (walkPath c e len).fstat = c.fstat := by
  unfold walkPath; split <;> simp
@[simp] theorem walkPath_slipw (c : Crew) (e : Eng) (len : Nat) : (walkPath c e len).slipw = c.slipw := by
  unfold walkPath; split <;> simp
@[simp] theorem walkPath_demote (c : Crew) (e : Eng) (len : Nat) : (walkPath c e len).demote = c.demote := by
  unfold walkPath; split <;> simp
@[simp] theorem walkPath_cd (c : Crew) (e : Eng) (len : Nat) : (walkPath c e len).cd = c.cd := by
  unfold walkPath; split <;> simp
@[simp] theorem walkPath_ors (c : Crew) (e : Eng) (len : Nat) : (walkPath c e len).ors = c.ors := by
  unfold walkPath; split <;> simp
@[simp] theorem walkPath_issueNo (c : Crew) (e : Eng) (len : Nat) : (walkPath c e len).issueNo = c.issueNo := by
  unfold walkPath; split <;> simp
@[simp] theorem walkPath_exchNo (c : Crew) (e : Eng) (len : Nat) : (walkPath c e len).exchNo = c.exchNo := by
  unfold walkPath; split <;> simp
@[simp] theorem walkPath_born (c : Crew) (e : Eng) (len : Nat) : (walkPath c e len).born = c.born := by
  unfold walkPath; split <;> simp
@[simp] theorem walkPath_phase (c : Crew) (e : Eng) (len : Nat) : (walkPath c e len).phase = c.phase := by
  unfold walkPath; split <;> simp
@[simp] theorem walkPath_vctx (c : Crew) (e : Eng) (len : Nat) : (walkPath c e len).vctx = c.vctx := by
  unfold walkPath; split <;> simp
@[simp] theorem walkPath_mctx (c : Crew) (e : Eng) (len : Nat) : (walkPath c e len).mctx = c.mctx := by
  unfold walkPath; split <;> simp
@[simp] theorem walkPath_sctx (c : Crew) (e : Eng) (len : Nat) : (walkPath c e len).sctx = c.sctx := by
  unfold walkPath; split <;> simp
@[simp] theorem walkPath_ctl (c : Crew) (e : Eng) (len : Nat) : (walkPath c e len).ctl = c.ctl := by
  unfold walkPath; split <;> simp
@[simp] theorem walkPath_rem (c : Crew) (e : Eng) (len : Nat) : (walkPath c e len).rem = c.rem := by
  unfold walkPath; split <;> simp
@[simp] theorem walkPath_ops (c : Crew) (e : Eng) (len : Nat) : (walkPath c e len).ops = c.ops := by
  unfold walkPath; split <;> simp
@[simp] theorem walkPath_errs (c : Crew) (e : Eng) (len : Nat) : (walkPath c e len).errs = c.errs := by
  unfold walkPath; split <;> simp

@[simp] theorem setWait_launch (c : Crew) (e : Eng) (w : Nat) : (setWait c e w).launch = c.launch := by
  unfold setWait; cases c.trap.inHandler <;> cases e <;> rfl
@[simp] theorem setWait_rank (c : Crew) (e : Eng) (w : Nat) : (setWait c e w).rank = c.rank := by
  unfold setWait; cases c.trap.inHandler <;> cases e <;> rfl
@[simp] theorem setWait_tenant (c : Crew) (e : Eng) (w : Nat) : (setWait c e w).tenant = c.tenant := by
  unfold setWait; cases c.trap.inHandler <;> cases e <;> rfl
@[simp] theorem setWait_flags (c : Crew) (e : Eng) (w : Nat) : (setWait c e w).flags = c.flags := by
  unfold setWait; cases c.trap.inHandler <;> cases e <;> rfl
@[simp] theorem setWait_text (c : Crew) (e : Eng) (w : Nat) : (setWait c e w).text = c.text := by
  unfold setWait; cases c.trap.inHandler <;> cases e <;> rfl
@[simp] theorem setWait_ra (c : Crew) (e : Eng) (w : Nat) : (setWait c e w).ra = c.ra := by
  unfold setWait; cases c.trap.inHandler <;> cases e <;> rfl
@[simp] theorem setWait_rb (c : Crew) (e : Eng) (w : Nat) : (setWait c e w).rb = c.rb := by
  unfold setWait; cases c.trap.inHandler <;> cases e <;> rfl
@[simp] theorem setWait_nt (c : Crew) (e : Eng) (w : Nat) : (setWait c e w).nt = c.nt := by
  unfold setWait; cases c.trap.inHandler <;> cases e <;> rfl
@[simp] theorem setWait_nh (c : Crew) (e : Eng) (w : Nat) : (setWait c e w).nh = c.nh := by
  unfold setWait; cases c.trap.inHandler <;> cases e <;> rfl
@[simp] theorem setWait_nv (c : Crew) (e : Eng) (w : Nat) : (setWait c e w).nv = c.nv := by
  unfold setWait; cases c.trap.inHandler <;> cases e <;> rfl
@[simp] theorem setWait_baseA (c : Crew) (e : Eng) (w : Nat) : (setWait c e w).baseA = c.baseA := by
  unfold setWait; cases c.trap.inHandler <;> cases e <;> rfl
@[simp] theorem setWait_baseB (c : Crew) (e : Eng) (w : Nat) : (setWait c e w).baseB = c.baseB := by
  unfold setWait; cases c.trap.inHandler <;> cases e <;> rfl
@[simp] theorem setWait_eng (c : Crew) (e : Eng) (w : Nat) : (setWait c e w).eng = c.eng := by
  unfold setWait; cases c.trap.inHandler <;> cases e <;> rfl
@[simp] theorem setWait_cs (c : Crew) (e : Eng) (w : Nat) : (setWait c e w).cs = c.cs := by
  unfold setWait; cases c.trap.inHandler <;> cases e <;> rfl
@[simp] theorem setWait_as (c : Crew) (e : Eng) (w : Nat) : (setWait c e w).as = c.as := by
  unfold setWait; cases c.trap.inHandler <;> cases e <;> rfl
@[simp] theorem setWait_cp (c : Crew) (e : Eng) (w : Nat) : (setWait c e w).cp = c.cp := by
  unfold setWait; cases c.trap.inHandler <;> cases e <;> rfl
@[simp] theorem setWait_ap (c : Crew) (e : Eng) (w : Nat) : (setWait c e w).ap = c.ap := by
  unfold setWait; cases c.trap.inHandler <;> cases e <;> rfl
@[simp] theorem setWait_k (c : Crew) (e : Eng) (w : Nat) : (setWait c e w).k = c.k := by
  unfold setWait; cases c.trap.inHandler <;> cases e <;> rfl
@[simp] theorem setWait_mask (c : Crew) (e : Eng) (w : Nat) : (setWait c e w).mask = c.mask := by
  unfold setWait; cases c.trap.inHandler <;> cases e <;> rfl
@[simp] theorem setWait_v (c : Crew) (e : Eng) (w : Nat) : (setWait c e w).v = c.v := by
  unfold setWait; cases c.trap.inHandler <;> cases e <;> rfl
@[simp] theorem setWait_acc (c : Crew) (e : Eng) (w : Nat) : (setWait c e w).acc = c.acc := by
  unfold setWait; cases c.trap.inHandler <;> cases e <;> rfl
@[simp] theorem setWait_st (c : Crew) (e : Eng) (w : Nat) : (setWait c e w).st = c.st := by
  unfold setWait; cases c.trap.inHandler <;> cases e <;> rfl
@[simp] theorem setWait_o (c : Crew) (e : Eng) (w : Nat) : (setWait c e w).o = c.o := by
  unfold setWait; cases c.trap.inHandler <;> cases e <;> rfl
@[simp] theorem setWait_queues (c : Crew) (e : Eng) (w : Nat) : (setWait c e w).queues = c.queues := by
  unfold setWait; cases c.trap.inHandler <;> cases e <;> rfl
@[simp] theorem setWait_fstat (c : Crew) (e : Eng) (w : Nat) : (setWait c e w).fstat = c.fstat := by
  unfold setWait; cases c.trap.inHandler <;> cases e <;> rfl
@[simp] theorem setWait_slipw (c : Crew) (e : Eng) (w : Nat) : (setWait c e w).slipw = c.slipw := by
  unfold setWait; cases c.trap.inHandler <;> cases e <;> rfl
@[simp] theorem setWait_demote (c : Crew) (e : Eng) (w : Nat) : (setWait c e w).demote = c.demote := by
  unfold setWait; cases c.trap.inHandler <;> cases e <;> rfl
@[simp] theorem setWait_cd (c : Crew) (e : Eng) (w : Nat) : (setWait c e w).cd = c.cd := by
  unfold setWait; cases c.trap.inHandler <;> cases e <;> rfl
@[simp] theorem setWait_ors (c : Crew) (e : Eng) (w : Nat) : (setWait c e w).ors = c.ors := by
  unfold setWait; cases c.trap.inHandler <;> cases e <;> rfl
@[simp] theorem setWait_issueNo (c : Crew) (e : Eng) (w : Nat) : (setWait c e w).issueNo = c.issueNo := by
  unfold setWait; cases c.trap.inHandler <;> cases e <;> rfl
@[simp] theorem setWait_exchNo (c : Crew) (e : Eng) (w : Nat) : (setWait c e w).exchNo = c.exchNo := by
  unfold setWait; cases c.trap.inHandler <;> cases e <;> rfl
@[simp] theorem setWait_born (c : Crew) (e : Eng) (w : Nat) : (setWait c e w).born = c.born := by
  unfold setWait; cases c.trap.inHandler <;> cases e <;> rfl
@[simp] theorem setWait_phase (c : Crew) (e : Eng) (w : Nat) : (setWait c e w).phase = c.phase := by
  unfold setWait; cases c.trap.inHandler <;> cases e <;> rfl
@[simp] theorem setWait_vctx (c : Crew) (e : Eng) (w : Nat) : (setWait c e w).vctx = c.vctx := by
  unfold setWait; cases c.trap.inHandler <;> cases e <;> rfl
@[simp] theorem setWait_mctx (c : Crew) (e : Eng) (w : Nat) : (setWait c e w).mctx = c.mctx := by
  unfold setWait; cases c.trap.inHandler <;> cases e <;> rfl
@[simp] theorem setWait_sctx (c : Crew) (e : Eng) (w : Nat) : (setWait c e w).sctx = c.sctx := by
  unfold setWait; cases c.trap.inHandler <;> cases e <;> rfl
@[simp] theorem setWait_ctl (c : Crew) (e : Eng) (w : Nat) : (setWait c e w).ctl = c.ctl := by
  unfold setWait; cases c.trap.inHandler <;> cases e <;> rfl
@[simp] theorem setWait_rem (c : Crew) (e : Eng) (w : Nat) : (setWait c e w).rem = c.rem := by
  unfold setWait; cases c.trap.inHandler <;> cases e <;> rfl
@[simp] theorem setWait_ops (c : Crew) (e : Eng) (w : Nat) : (setWait c e w).ops = c.ops := by
  unfold setWait; cases c.trap.inHandler <;> cases e <;> rfl
@[simp] theorem setWait_errs (c : Crew) (e : Eng) (w : Nat) : (setWait c e w).errs = c.errs := by
  unfold setWait; cases c.trap.inHandler <;> cases e <;> rfl

@[simp] theorem noteStep_launch (c : Crew) (e : Eng) : (noteStep c e).launch = c.launch := by unfold noteStep; split <;> rfl
@[simp] theorem noteStep_rank (c : Crew) (e : Eng) : (noteStep c e).rank = c.rank := by unfold noteStep; split <;> rfl
@[simp] theorem noteStep_tenant (c : Crew) (e : Eng) : (noteStep c e).tenant = c.tenant := by unfold noteStep; split <;> rfl
@[simp] theorem noteStep_flags (c : Crew) (e : Eng) : (noteStep c e).flags = c.flags := by unfold noteStep; split <;> rfl
@[simp] theorem noteStep_text (c : Crew) (e : Eng) : (noteStep c e).text = c.text := by unfold noteStep; split <;> rfl
@[simp] theorem noteStep_ra (c : Crew) (e : Eng) : (noteStep c e).ra = c.ra := by unfold noteStep; split <;> rfl
@[simp] theorem noteStep_rb (c : Crew) (e : Eng) : (noteStep c e).rb = c.rb := by unfold noteStep; split <;> rfl
@[simp] theorem noteStep_nt (c : Crew) (e : Eng) : (noteStep c e).nt = c.nt := by unfold noteStep; split <;> rfl
@[simp] theorem noteStep_nh (c : Crew) (e : Eng) : (noteStep c e).nh = c.nh := by unfold noteStep; split <;> rfl
@[simp] theorem noteStep_nv (c : Crew) (e : Eng) : (noteStep c e).nv = c.nv := by unfold noteStep; split <;> rfl
@[simp] theorem noteStep_baseA (c : Crew) (e : Eng) : (noteStep c e).baseA = c.baseA := by unfold noteStep; split <;> rfl
@[simp] theorem noteStep_baseB (c : Crew) (e : Eng) : (noteStep c e).baseB = c.baseB := by unfold noteStep; split <;> rfl
@[simp] theorem noteStep_eng (c : Crew) (e : Eng) : (noteStep c e).eng = c.eng := by unfold noteStep; split <;> rfl
@[simp] theorem noteStep_cs (c : Crew) (e : Eng) : (noteStep c e).cs = c.cs := by unfold noteStep; split <;> rfl
@[simp] theorem noteStep_as (c : Crew) (e : Eng) : (noteStep c e).as = c.as := by unfold noteStep; split <;> rfl
@[simp] theorem noteStep_cp (c : Crew) (e : Eng) : (noteStep c e).cp = c.cp := by unfold noteStep; split <;> rfl
@[simp] theorem noteStep_ap (c : Crew) (e : Eng) : (noteStep c e).ap = c.ap := by unfold noteStep; split <;> rfl
@[simp] theorem noteStep_k (c : Crew) (e : Eng) : (noteStep c e).k = c.k := by unfold noteStep; split <;> rfl
@[simp] theorem noteStep_mask (c : Crew) (e : Eng) : (noteStep c e).mask = c.mask := by unfold noteStep; split <;> rfl
@[simp] theorem noteStep_v (c : Crew) (e : Eng) : (noteStep c e).v = c.v := by unfold noteStep; split <;> rfl
@[simp] theorem noteStep_acc (c : Crew) (e : Eng) : (noteStep c e).acc = c.acc := by unfold noteStep; split <;> rfl
@[simp] theorem noteStep_st (c : Crew) (e : Eng) : (noteStep c e).st = c.st := by unfold noteStep; split <;> rfl
@[simp] theorem noteStep_o (c : Crew) (e : Eng) : (noteStep c e).o = c.o := by unfold noteStep; split <;> rfl
@[simp] theorem noteStep_queues (c : Crew) (e : Eng) : (noteStep c e).queues = c.queues := by unfold noteStep; split <;> rfl
@[simp] theorem noteStep_fstat (c : Crew) (e : Eng) : (noteStep c e).fstat = c.fstat := by unfold noteStep; split <;> rfl
@[simp] theorem noteStep_slipw (c : Crew) (e : Eng) : (noteStep c e).slipw = c.slipw := by unfold noteStep; split <;> rfl
@[simp] theorem noteStep_demote (c : Crew) (e : Eng) : (noteStep c e).demote = c.demote := by unfold noteStep; split <;> rfl
@[simp] theorem noteStep_cd (c : Crew) (e : Eng) : (noteStep c e).cd = c.cd := by unfold noteStep; split <;> rfl
@[simp] theorem noteStep_ors (c : Crew) (e : Eng) : (noteStep c e).ors = c.ors := by unfold noteStep; split <;> rfl
@[simp] theorem noteStep_issueNo (c : Crew) (e : Eng) : (noteStep c e).issueNo = c.issueNo := by unfold noteStep; split <;> rfl
@[simp] theorem noteStep_exchNo (c : Crew) (e : Eng) : (noteStep c e).exchNo = c.exchNo := by unfold noteStep; split <;> rfl
@[simp] theorem noteStep_born (c : Crew) (e : Eng) : (noteStep c e).born = c.born := by unfold noteStep; split <;> rfl
@[simp] theorem noteStep_phase (c : Crew) (e : Eng) : (noteStep c e).phase = c.phase := by unfold noteStep; split <;> rfl
@[simp] theorem noteStep_vctx (c : Crew) (e : Eng) : (noteStep c e).vctx = c.vctx := by unfold noteStep; split <;> rfl
@[simp] theorem noteStep_mctx (c : Crew) (e : Eng) : (noteStep c e).mctx = c.mctx := by unfold noteStep; split <;> rfl
@[simp] theorem noteStep_sctx (c : Crew) (e : Eng) : (noteStep c e).sctx = c.sctx := by unfold noteStep; split <;> rfl
@[simp] theorem noteStep_trap (c : Crew) (e : Eng) : (noteStep c e).trap = c.trap := by unfold noteStep; split <;> rfl
@[simp] theorem noteStep_rem (c : Crew) (e : Eng) : (noteStep c e).rem = c.rem := by unfold noteStep; split <;> rfl
@[simp] theorem noteStep_ops (c : Crew) (e : Eng) : (noteStep c e).ops = c.ops := by unfold noteStep; split <;> rfl
@[simp] theorem noteStep_errs (c : Crew) (e : Eng) : (noteStep c e).errs = c.errs := by unfold noteStep; split <;> rfl
@[simp] theorem strOf_noteStep (c : Crew) (e o : Eng) : strOf (noteStep c e) o = strOf c o := by
  unfold noteStep; split <;> cases o <;> rfl
@[simp] theorem strOf_clearStall (c : Crew) (o : Eng) : strOf (clearStall c) o = strOf c o := by cases o <;> rfl
@[simp] theorem strOf_setFlags (c : Crew) (f : BitVec 6) (o : Eng) : strOf (setFlags c f) o = strOf c o := by cases o <;> rfl
@[simp] theorem strOf_setQueue (c : Crew) (q : Nat) (l : List QEntry) (o : Eng) : strOf (setQueue c q l) o = strOf c o := by
  cases o <;> rfl
@[simp] theorem strOf_vWrite (c : Crew) (i : Nat) (x : Row) (o : Eng) : strOf (vWrite c i x) o = strOf c o := by cases o <;> rfl

@[simp] theorem walkPath_trap (c : Crew) (e : Eng) (len : Nat) : (walkPath c e len).trap = c.trap := by
  unfold walkPath; split <;> simp

/-- What retiring and waiting leave of the trap context: everything but the handler's own PCs and wait classes. -/
def TrapCtx.same (t u : TrapCtx) : Prop :=
  t = { u with hpcC := t.hpcC, hpcA := t.hpcA, hwaitC := t.hwaitC, hwaitA := t.hwaitA }

theorem setPc_trap_same (c : Crew) (e : Eng) (pc : Nat) : (setPc c e pc).trap.same c.trap := by
  unfold setPc TrapCtx.same; split <;> cases e <;> rfl
theorem setWait_trap_same (c : Crew) (e : Eng) (x : Nat) : (setWait c e x).trap.same c.trap := by
  unfold setWait TrapCtx.same; split <;> cases e <;> rfl
theorem trapSame_trans {t u v : TrapCtx} (h : t.same u) (h' : u.same v) : t.same v := by
  unfold TrapCtx.same at *; rw [h, h']

/-! ### Retiring -/

@[simp] theorem goto_launch (c : Crew) (e : Eng) (len pc : Nat) : (goto c e len pc).launch = c.launch := by simp [goto, advance]
@[simp] theorem goto_rank (c : Crew) (e : Eng) (len pc : Nat) : (goto c e len pc).rank = c.rank := by simp [goto, advance]
@[simp] theorem goto_tenant (c : Crew) (e : Eng) (len pc : Nat) : (goto c e len pc).tenant = c.tenant := by simp [goto, advance]
@[simp] theorem goto_flags (c : Crew) (e : Eng) (len pc : Nat) : (goto c e len pc).flags = c.flags := by simp [goto, advance]
@[simp] theorem goto_text (c : Crew) (e : Eng) (len pc : Nat) : (goto c e len pc).text = c.text := by simp [goto, advance]
@[simp] theorem goto_ra (c : Crew) (e : Eng) (len pc : Nat) : (goto c e len pc).ra = c.ra := by simp [goto, advance]
@[simp] theorem goto_rb (c : Crew) (e : Eng) (len pc : Nat) : (goto c e len pc).rb = c.rb := by simp [goto, advance]
@[simp] theorem goto_nt (c : Crew) (e : Eng) (len pc : Nat) : (goto c e len pc).nt = c.nt := by simp [goto, advance]
@[simp] theorem goto_nh (c : Crew) (e : Eng) (len pc : Nat) : (goto c e len pc).nh = c.nh := by simp [goto, advance]
@[simp] theorem goto_nv (c : Crew) (e : Eng) (len pc : Nat) : (goto c e len pc).nv = c.nv := by simp [goto, advance]
@[simp] theorem goto_baseA (c : Crew) (e : Eng) (len pc : Nat) : (goto c e len pc).baseA = c.baseA := by simp [goto, advance]
@[simp] theorem goto_baseB (c : Crew) (e : Eng) (len pc : Nat) : (goto c e len pc).baseB = c.baseB := by simp [goto, advance]
@[simp] theorem goto_eng (c : Crew) (e : Eng) (len pc : Nat) : (goto c e len pc).eng = c.eng := by simp [goto, advance]
@[simp] theorem goto_cs (c : Crew) (e : Eng) (len pc : Nat) : (goto c e len pc).cs = c.cs := by simp [goto, advance]
@[simp] theorem goto_as (c : Crew) (e : Eng) (len pc : Nat) : (goto c e len pc).as = c.as := by simp [goto, advance]
@[simp] theorem goto_cp (c : Crew) (e : Eng) (len pc : Nat) : (goto c e len pc).cp = c.cp := by simp [goto, advance]
@[simp] theorem goto_ap (c : Crew) (e : Eng) (len pc : Nat) : (goto c e len pc).ap = c.ap := by simp [goto, advance]
@[simp] theorem goto_k (c : Crew) (e : Eng) (len pc : Nat) : (goto c e len pc).k = c.k := by simp [goto, advance]
@[simp] theorem goto_mask (c : Crew) (e : Eng) (len pc : Nat) : (goto c e len pc).mask = c.mask := by simp [goto, advance]
@[simp] theorem goto_v (c : Crew) (e : Eng) (len pc : Nat) : (goto c e len pc).v = c.v := by simp [goto, advance]
@[simp] theorem goto_acc (c : Crew) (e : Eng) (len pc : Nat) : (goto c e len pc).acc = c.acc := by simp [goto, advance]
@[simp] theorem goto_st (c : Crew) (e : Eng) (len pc : Nat) : (goto c e len pc).st = c.st := by simp [goto, advance]
@[simp] theorem goto_o (c : Crew) (e : Eng) (len pc : Nat) : (goto c e len pc).o = c.o := by simp [goto, advance]
@[simp] theorem goto_queues (c : Crew) (e : Eng) (len pc : Nat) : (goto c e len pc).queues = c.queues := by simp [goto, advance]
@[simp] theorem goto_fstat (c : Crew) (e : Eng) (len pc : Nat) : (goto c e len pc).fstat = c.fstat := by simp [goto, advance]
@[simp] theorem goto_slipw (c : Crew) (e : Eng) (len pc : Nat) : (goto c e len pc).slipw = c.slipw := by simp [goto, advance]
@[simp] theorem goto_demote (c : Crew) (e : Eng) (len pc : Nat) : (goto c e len pc).demote = c.demote := by simp [goto, advance]
@[simp] theorem goto_cd (c : Crew) (e : Eng) (len pc : Nat) : (goto c e len pc).cd = c.cd := by simp [goto, advance]
@[simp] theorem goto_ors (c : Crew) (e : Eng) (len pc : Nat) : (goto c e len pc).ors = c.ors := by simp [goto, advance]
@[simp] theorem goto_issueNo (c : Crew) (e : Eng) (len pc : Nat) : (goto c e len pc).issueNo = c.issueNo := by simp [goto, advance]
@[simp] theorem goto_exchNo (c : Crew) (e : Eng) (len pc : Nat) : (goto c e len pc).exchNo = c.exchNo := by simp [goto, advance]
@[simp] theorem goto_born (c : Crew) (e : Eng) (len pc : Nat) : (goto c e len pc).born = c.born := by simp [goto, advance]
@[simp] theorem goto_phase (c : Crew) (e : Eng) (len pc : Nat) : (goto c e len pc).phase = c.phase := by simp [goto, advance]
@[simp] theorem goto_vctx (c : Crew) (e : Eng) (len pc : Nat) : (goto c e len pc).vctx = c.vctx := by simp [goto, advance]
@[simp] theorem goto_mctx (c : Crew) (e : Eng) (len pc : Nat) : (goto c e len pc).mctx = c.mctx := by simp [goto, advance]
@[simp] theorem goto_sctx (c : Crew) (e : Eng) (len pc : Nat) : (goto c e len pc).sctx = c.sctx := by simp [goto, advance]
@[simp] theorem goto_rem (c : Crew) (e : Eng) (len pc : Nat) : (goto c e len pc).rem = c.rem := by simp [goto, advance]
@[simp] theorem goto_ops (c : Crew) (e : Eng) (len pc : Nat) : (goto c e len pc).ops = c.ops := by simp [goto, advance]
@[simp] theorem goto_errs (c : Crew) (e : Eng) (len pc : Nat) : (goto c e len pc).errs = c.errs := by simp [goto, advance]

theorem goto_trap_same (c : Crew) (e : Eng) (len pc : Nat) : (goto c e len pc).trap.same c.trap := by
  have h1 := setPc_trap_same (walkPath c e len) e pc
  have h2 := setWait_trap_same (setPc (walkPath c e len) e pc) e 0
  rw [walkPath_trap] at h1
  have h3 := trapSame_trans h2 h1
  simpa [goto, advance] using h3

@[simp] theorem goto_inHandler (c : Crew) (e : Eng) (len pc : Nat) : (goto c e len pc).trap.inHandler = c.trap.inHandler := by
  rw [goto_trap_same c e len pc]

@[simp] theorem goto_trap_tcause (c : Crew) (e : Eng) (len pc : Nat) : (goto c e len pc).trap.tcause = c.trap.tcause := by
  rw [goto_trap_same c e len pc]
@[simp] theorem goto_trap_tpc (c : Crew) (e : Eng) (len pc : Nat) : (goto c e len pc).trap.tpc = c.trap.tpc := by
  rw [goto_trap_same c e len pc]
@[simp] theorem goto_trap_taddr (c : Crew) (e : Eng) (len pc : Nat) : (goto c e len pc).trap.taddr = c.trap.taddr := by
  rw [goto_trap_same c e len pc]
@[simp] theorem goto_trap_tinfo (c : Crew) (e : Eng) (len pc : Nat) : (goto c e len pc).trap.tinfo = c.trap.tinfo := by
  rw [goto_trap_same c e len pc]
@[simp] theorem goto_trap_hcs (c : Crew) (e : Eng) (len pc : Nat) : (goto c e len pc).trap.hcs = c.trap.hcs := by
  rw [goto_trap_same c e len pc]
@[simp] theorem goto_trap_has (c : Crew) (e : Eng) (len pc : Nat) : (goto c e len pc).trap.has = c.trap.has := by
  rw [goto_trap_same c e len pc]
@[simp] theorem goto_trap_hk (c : Crew) (e : Eng) (len pc : Nat) : (goto c e len pc).trap.hk = c.trap.hk := by
  rw [goto_trap_same c e len pc]
@[simp] theorem goto_trap_hcp (c : Crew) (e : Eng) (len pc : Nat) : (goto c e len pc).trap.hcp = c.trap.hcp := by
  rw [goto_trap_same c e len pc]
@[simp] theorem goto_trap_hap (c : Crew) (e : Eng) (len pc : Nat) : (goto c e len pc).trap.hap = c.trap.hap := by
  rw [goto_trap_same c e len pc]
@[simp] theorem goto_trap_htext (c : Crew) (e : Eng) (len pc : Nat) : (goto c e len pc).trap.htext = c.trap.htext := by
  rw [goto_trap_same c e len pc]

/-- C and A stand at their handler PCs. -/
def onBank (c : Crew) (e : Eng) : Bool := c.trap.inHandler && (decide (e = .c) || decide (e = .a))

theorem strOf_setPc (c : Crew) (e o : Eng) (pc : Nat) : strOf (setPc c e pc) o =
    if e = o ∧ onBank c e = false then { strOf c e with pc := pc } else strOf c o := by
  unfold setPc onBank
  cases hh : c.trap.inHandler <;> cases e <;> cases o <;> rfl
theorem strOf_setWait (c : Crew) (e o : Eng) (x : Nat) : strOf (setWait c e x) o =
    if e = o ∧ onBank c e = false then { strOf c e with wait := x } else strOf c o := by
  unfold setWait onBank
  cases hh : c.trap.inHandler <;> cases e <;> cases o <;> rfl
theorem strOf_walkPath (c : Crew) (e o : Eng) (len : Nat) : strOf (walkPath c e len) o =
    if e = o ∧ ¬(c.trap.inHandler ∨ (e = .c ∧ c.cd ≠ 0)) then { strOf c e with path := (strOf c e).path + len }
    else strOf c o := by
  unfold walkPath
  by_cases h : c.trap.inHandler = true ∨ (e = .c ∧ c.cd ≠ 0)
  · rw [if_pos h, if_neg (fun k => k.2 h)]
  · rw [if_neg h, strOf_setStr]
    by_cases he : e = o
    · rw [if_pos he, if_pos ⟨he, h⟩]
    · rw [if_neg he, if_neg (fun k => he k.1)]

@[simp] theorem onBank_walkPath (c : Crew) (e o : Eng) (len : Nat) : onBank (walkPath c e len) o = onBank c o := by
  simp [onBank]
@[simp] theorem setPc_inHandler (c : Crew) (e : Eng) (pc : Nat) : (setPc c e pc).trap.inHandler = c.trap.inHandler := by
  rw [setPc_trap_same c e pc]
@[simp] theorem setWait_inHandler (c : Crew) (e : Eng) (x : Nat) : (setWait c e x).trap.inHandler = c.trap.inHandler := by
  rw [setWait_trap_same c e x]
@[simp] theorem onBank_setPc (c : Crew) (e o : Eng) (pc : Nat) : onBank (setPc c e pc) o = onBank c o := by
  simp [onBank]

theorem strOf_goto_other (c : Crew) (e o : Eng) (len pc : Nat) (h : e ≠ o) : strOf (goto c e len pc) o = strOf c o := by
  simp [goto, advance, strOf_setWait, strOf_setPc, strOf_walkPath, h]

/-- The stream itself after retiring at a PC. -/
theorem strOf_goto (c : Crew) (e : Eng) (len pc : Nat) : strOf (goto c e len pc) e =
    if onBank c e then strOf c e
    else { strOf c e with
      pc := pc, wait := 0
      path := (strOf c e).path + if c.trap.inHandler ∨ (e = .c ∧ c.cd ≠ 0) then 0 else len } := by
  simp only [goto, advance, strOf_noteStep, strOf_clearStall, strOf_setWait, strOf_setPc, strOf_walkPath, onBank_setPc,
    onBank_walkPath, true_and]
  by_cases hb : onBank c e = true
  · have : c.trap.inHandler = true := by
      unfold onBank at hb; simp only [Bool.and_eq_true] at hb; exact hb.1
    simp [hb, this]
  · by_cases h : c.trap.inHandler = true ∨ (e = .c ∧ c.cd ≠ 0) <;> simp [hb, h]

theorem pcOf_eq (c : Crew) (e : Eng) : pcOf c e =
    if onBank c e then (if e = .a then c.trap.hpcA else c.trap.hpcC) else (strOf c e).pc := by
  unfold pcOf onBank
  cases hh : c.trap.inHandler <;> cases e <;> simp

theorem setWait_hpc (c : Crew) (e : Eng) (x : Nat) : (setWait c e x).trap.hpcA = c.trap.hpcA ∧
    (setWait c e x).trap.hpcC = c.trap.hpcC := by
  unfold setWait
  cases hh : c.trap.inHandler <;> cases e <;> exact ⟨rfl, rfl⟩

@[simp] theorem onBank_goto (c : Crew) (e o : Eng) (len pc : Nat) : onBank (goto c e len pc) o = onBank c o := by
  simp [onBank]

@[simp] theorem pcOf_goto (c : Crew) (e : Eng) (len pc : Nat) : pcOf (goto c e len pc) e = pc := by
  rw [pcOf_eq, onBank_goto, strOf_goto]
  by_cases hb : onBank c e = true
  · simp only [hb, if_true, goto, noteStep_trap, advance, clearStall_trap, setWait_hpc]
    have hi : c.trap.inHandler = true := by
      unfold onBank at hb; simp only [Bool.and_eq_true] at hb; exact hb.1
    unfold setPc
    rw [walkPath_trap, if_pos hi]
    cases e <;> simp [onBank] at hb ⊢
  · simp [hb]

end Sys2Proof.Machine
end

