-- ==== Sys2Proof/Laws/Access.lean ====
section
/-!
SUPPORT. Laws/Access.lean: what the shared operations of an access do: translating changes the translation cache alone; with no
reduction resting or held a release and an own access change nothing; a checked access is one call of its continuation.
-/
namespace Sys2Proof.Laws
open Sys2Proof Sys2Proof.Machine Sys2Proof.Safety

/-! ### Guards -/

theorem guard_of_enabled {c : Crew} {e : Eng} {n : BitVec 1} {g : BitVec 4} (h : Enabled c e n g) :
    Sys2Proof.Machine.guard c e n g = true := by
  unfold Enabled at h; unfold Sys2Proof.Machine.guard
  rw [h]; clear h; revert n; decide

theorem guard_of_disabled {c : Crew} {e : Eng} {n : BitVec 1} {g : BitVec 4} (h : Disabled c e n g) :
    Sys2Proof.Machine.guard c e n g = false := by
  unfold Disabled at h; unfold Sys2Proof.Machine.guard
  rw [h]; clear h; revert n; decide

/-- A guarded meaning whose guard holds. -/
theorem guarded_enabled {s : State} {e : Eng} {c : Crew} {n : BitVec 1} {g : BitVec 4} (act : Crew → Out)
    (h : Runs s e c) (hg : Enabled c e n g) : guarded s e n g act = act c := by
  rw [guarded_eq n g act h.1 h.2, guard_of_enabled hg]; rfl

/-- A guarded meaning whose guard does not hold only retires. -/
theorem guarded_disabled {s : State} {e : Eng} {c : Crew} {n : BitVec 1} {g : BitVec 4} (act : Crew → Out)
    (h : Runs s e c) (hg : Disabled c e n g) : guarded s e n g act = .next (retired s c e 4) := by
  rw [guarded_eq n g act h.1 h.2, guard_of_disabled hg]; rfl

/-- A privileged meaning in a privileged crew whose guard holds. -/
theorem privileged_enabled {s : State} {c : Crew} {n : BitVec 1} {g : BitVec 4} (act : Crew → Out)
    (h : RunsPrivileged s c n g) : privileged s n g act = act c := by
  rw [privileged_eq n g act h.1.1 h.1.2]
  have : isPriv c = true := h.2.1
  simp [this, guard_of_enabled h.2.2]

/-! ### Translation -/

theorem combined_only (s : State) (die tenant space obj : Nat) (gen : Option Nat) (off : Nat) :
    TranslationOnly s (combined s die tenant space obj gen off).1 := by
  unfold combined TranslationOnly tlbFill
  dsimp only
  split
  · split <;> rfl
  · split
    · rfl
    · split <;> rfl

theorem portAccess_only (s : State) (die tenant space obj : Nat) (gen : Option Nat) (off : Nat) (k : AccKind) :
    TranslationOnly s (portAccess s die tenant space obj gen off k).1 := by
  unfold portAccess
  split
  · split
    · rfl
    · split
      · rfl
      · split
        · rfl
        · split <;> rfl
  · have h := combined_only s die tenant space obj gen off
    split <;> (rename_i e; rw [e] at h; exact h)

theorem access_only (s : State) (core slot : Nat) (cw : Crew) (c : Cap) (k : AccKind) (u size : Nat) :
    TranslationOnly s (access s core slot cw c k u size).1 := by
  unfold access
  split
  · rfl
  · split
    · rfl
    · split
      · rfl
      · split
        · split <;> rfl
        · exact portAccess_only _ _ _ _ _ _ _ _

theorem reaches_only {s s1 : State} {c : Crew} {f : AccessForm} {a : Acc} (h : Reaches s c f s1 a) : TranslationOnly s s1 := by
  have := access_only s s.cur.core s.cur.slot c f.cap f.kind f.off f.size
  rw [h.1] at this; exact this

/-- A checked access hands its place to what follows. -/
theorem aAccess_ok {s s1 : State} {c : Crew} {f : AccessForm} {a : Acc} (go : State → Acc → Out) (h : Reaches s c f s1 a) :
    aAccess s c f.cap f.kind f.rd f.wr f.off f.size go = go s1 a := by
  unfold aAccess
  rw [h.1, h.2.2]
  dsimp only
  rw [if_neg]
  rintro ⟨h1, h2⟩
  rw [h.2.1 h1] at h2; exact absurd h2 (by decide)

/-! ### Nothing rests -/

theorem flushWhere_quiet {s : State} (h : s.resting = []) (p : Resting → Bool) : flushWhere s p = s := by
  unfold flushWhere; simp only [h, List.foldl_nil]; rw [← h]
theorem keyedSettle_quiet {s : State} (h : s.keyed = []) : keyedSettle s = s := by
  unfold keyedSettle; rw [h]; rfl
theorem ownFirst_quiet {s : State} (h : Quiet s) (c : Crew) (key n : Nat) : ownFirst s c key n = some s := by
  have hf : flushTouch s s.cur.core s.cur.slot key n = s := by
    unfold flushTouch; split
    · rfl
    · exact flushWhere_quiet h.1 _
  have hk : keyedTouch s c key n = false := by unfold keyedTouch; rw [h.2]; rfl
  have hr : restTouch s s.cur.core c key n = false := by unfold restTouch; rw [h.1]; rfl
  unfold ownFirst
  simp [hf, hk, hr]
theorem releaseReady_quiet {s : State} (h : Quiet s) (core slot : Nat) (c : Crew) :
    releaseReady s core slot c = if unacked s core slot then none else some s := by
  unfold releaseReady flushCore
  rw [flushWhere_quiet h.1, keyedSettle_quiet h.2]
  have hk : keyedHeld s c = false := by unfold keyedHeld; rw [h.2]; rfl
  simp [hk, h.1]
theorem keyedStrong_quiet {s : State} (h : Quiet s) (c : Crew) : keyedStrong s c = false := by
  unfold keyedStrong; rw [h.2]; rfl
/-- With nothing resting or held only a request on its way keeps an access back: any for one that orders, an earlier strong
load for one that does not and is not loose. -/
theorem orderAt_quiet {s : State} (h : Quiet s) (c : Crew) (wr orders loose : Bool) :
    orderAt s c wr orders loose =
      if (if orders then unacked s s.cur.core s.cur.slot else !loose && strongPending s s.cur.core s.cur.slot) then none
      else some s := by
  unfold orderAt
  rw [releaseReady_quiet h, keyedStrong_quiet h]
  cases orders <;> cases wr <;> simp
/-- Where nothing is unacknowledged no strong load is on its way. -/
theorem strongPending_none {s : State} {core slot : Nat} (h : unacked s core slot = false) : strongPending s core slot = false := by
  unfold unacked at h; unfold strongPending
  rw [List.any_eq_false] at h ⊢
  intro m hm hc
  apply h m hm
  simp only [Bool.and_eq_true, Bool.or_eq_true] at hc ⊢
  tauto

theorem demoted_ok {s : State} {c : Crew} {sys : Bool} (h : (sys && fnTScope s (fnOf s c.tenant)) = true → fnDemTrap s (fnOf s c.tenant) = false) :
    demoted s c sys = some (if sys && fnTScope s (fnOf s c.tenant) then { c with demote := true } else c) := by
  unfold demoted demotion
  dsimp only
  cases hs : (sys && fnTScope s (fnOf s c.tenant))
  · simp
  · simp [h hs]
theorem demoted_trap {s : State} {c : Crew} {sys : Bool} (h : (sys && fnTScope s (fnOf s c.tenant)) = true) (h2 : fnDemTrap s (fnOf s c.tenant) = true) :
    demoted s c sys = none := by
  unfold demoted demotion
  dsimp only
  simp [h, h2]

theorem quiet_of_only {s s1 : State} (h : TranslationOnly s s1) (hq : Quiet s) : Quiet s1 := by rw [h]; exact hq

end Sys2Proof.Laws
end

