-- ==== Sys2Proof/Tests/Slice0.lean ====
section
/-!
SUPPORT. Tests/Slice0.lean: the model's own tests: well-formedness, decoding, single steps, and a state and operands that meet
the hypotheses of every statement.
-/
namespace Sys2Proof.Tests
open Sys2Proof Sys2Proof.Machine Sys2Proof.Safety
set_option Elab.async false

/-! ### Well-formedness: an ill-formed term for each check -/

/-- A V word whose descriptors are plain registers, to be spoilt one field at a time. -/
def vw : VWord := ⟨false, 0, 8, 0, 2, 64, 128, 192, 0⟩
/-- An S word and an M word with every optional field zero. -/
def sw : SWord := ⟨0, 0, 0, 0, false, false, 0, 0, 0, 0⟩
def mw : MWord := ⟨0, false, false, 0, 0, 0, 0, 0, 0, false, 0, false, 0, false, false, 0⟩

theorem test_wf_accepts : (Instr.vadd vw).wf = true ∧ (Instr.szero sw).wf = true ∧ (Instr.mzero mw).wf = true ∧
    (Instr.mulh 0 0 0 1 2 3 2).wf = true ∧ (Instr.atom 0 0 4 1 12 1 0).wf = true := by decide

/-- Reserved sub-ops and values of scalar words (R85, R87, R88, R116, R253). -/
theorem test_wf_scalar : (Instr.mulh 0 0 0 1 2 3 3).wf = false ∧ (Instr.div 0 0 0 1 2 3 2).wf = false ∧
    (Instr.rem 0 0 0 1 2 3 3).wf = false ∧ (Instr.slip 0 0 3).wf = false ∧ (Instr.slip 0 0 4).wf = true ∧
    (Instr.tlbshoot 0 0 1 2 3).wf = false ∧ (Instr.fence 0 0 3 0).wf = false ∧ (Instr.fence 0 0 0 6).wf = false ∧
    (Instr.atom 0 0 4 1 13 0 0).wf = false ∧ (Instr.atom 0 0 4 1 1 1 0).wf = false ∧ (Instr.atom 0 0 5 1 12 1 0).wf = false ∧
    (Instr.red 0 0 4 1 11 0 0).wf = false ∧ (Instr.copymc 0 0 1 2 3).wf = false ∧ (Instr.gather 0 0 1 2 3).wf = false ∧
    (Instr.scatter 0 0 1 2 5).wf = false ∧ (Instr.ldq 0 0 0 1 2 3).wf = false ∧ (Instr.sread { sw with rowX := 128, qe := true, q := 7 }).wf = false := by
  decide

/-- Capability numbers above 15 are reserved registers (R78). -/
theorem test_wf_capabilities : (Instr.kmov 0 0 16 1).wf = false ∧ (Instr.kmov 0 0 1 16).wf = false ∧
    (Instr.kset 0 0 16 1 1).wf = false ∧ (Instr.ktest 0 0 31 16 1).wf = false ∧ (Instr.kst 0 0 16 1 1).wf = false ∧
    (Instr.ldZ 0 0 31 16 31 3).wf = false ∧ (Instr.ldv 0 0 1 16 1).wf = false ∧ (Instr.keep 0 0 1 16 1).wf = false ∧
    (Instr.rclaim 0 0 1 16 1).wf = false ∧ (Instr.barwait 0 0 16 1).wf = false ∧ (Instr.copy 0 0 16 1 1).wf = false ∧
    (Instr.cwait 0 0 1 16 1).wf = false ∧ (Instr.atom 0 0 1 16 0 0 0).wf = false := by decide

/-- Queues: the wrong end, q9, the reserved queues, and the wrong kind (R78, R80). -/
theorem test_wf_queues : (Instr.qpop 0 0 0 1 3).wf = false ∧ (Instr.qpop 0 0 0 1 6).wf = true ∧ (Instr.qpop 1 0 0 1 11).wf = false ∧
    (Instr.qsend 0 0 0 9 1).wf = false ∧ (Instr.qsend 0 0 0 14 1).wf = false ∧ (Instr.ldq 0 0 3 1 2 0).wf = false ∧
    (Instr.stq 0 0 2 1 2).wf = false ∧ (Instr.stq 0 0 3 1 2).wf = false ∧
    (Instr.vmov { vw with d0 := 2 ^ 16 + 6 * 64, d2 := 0 }).wf = false ∧ (Instr.vmov { vw with d1 := 2 ^ 16 + 8 * 64, d2 := 0 }).wf = false ∧
    (Instr.sload { sw with qe := true, q := 7 }).wf = false ∧ (Instr.sload { sw with qe := true, q := 13 }).wf = true := by decide

/-- Types, auxiliary fields and operand descriptors of V words (R70 to R74, R156, R157). -/
theorem test_wf_vector : (Instr.vadd { vw with ty := 0 }).wf = false ∧ (Instr.vadd { vw with ty := 13 }).wf = false ∧
    (Instr.vadd { vw with aux := 256 }).wf = false ∧ (Instr.vmin { vw with aux := 128 }).wf = false ∧
    (Instr.vmin { vw with aux := 16 }).wf = false ∧ (Instr.vadd { vw with aux := 32 }).wf = false ∧
    (Instr.vadd { vw with aux := 1 }).wf = false ∧ (Instr.vadd { vw with d0 := 3 * 2 ^ 16 }).wf = false ∧
    (Instr.vadd { vw with d1 := 2 ^ 16 + 1 }).wf = false ∧ (Instr.vadd { vw with d2 := 2 * 2 ^ 16 + 2 }).wf = false ∧
    (Instr.vadd { vw with d2 := 3 * 2 ^ 16 + 0x218 * 64 }).wf = false ∧ (Instr.vfma { vw with d0 := 2 ^ 16 }).wf = false ∧
    (Instr.vabs vw).wf = false ∧ (Instr.vcmpEq { vw with d0 := 2 ^ 16 }).wf = false ∧
    (Instr.vclass { vw with d0 := 64 }).wf = false ∧ (Instr.vperm { vw with d2 := 3 * 2 ^ 16 }).wf = false ∧
    (Instr.vrotm { vw with ty := 4, d2 := 3 * 2 ^ 16 + 64 * 64 }).wf = false ∧ (Instr.vbcast { vw with d2 := 3 * 2 ^ 16 + 16 * 64 }).wf = false ∧
    (Instr.vcvt 8 { vw with d2 := 0 }).wf = false ∧ (Instr.vcvt 9 { vw with d2 := 3 * 2 ^ 16 + 2 * 64 }).wf = false ∧
    (Instr.vpack vw).wf = false ∧ (Instr.vunpack { vw with d2 := 3 * 2 ^ 16 + 64 }).wf = false ∧
    (Instr.rlrelu { vw with d2 := 3 * 2 ^ 16 + 0x1FF * 64 }).wf = false ∧ (Instr.rmul { vw with d1 := 2 ^ 16 }).wf = false ∧
    (Instr.rmark { vw with ty := 0, rep := 2, d0 := 0, d1 := 0, d2 := 3 * 2 ^ 16 }).wf = false := by decide

/-- Registers beyond v767 or m15, at the last repeat (R73, R157). -/
theorem test_wf_registers : (Instr.vadd { vw with d0 := 767 * 64 + 1 }).wf = false ∧ (Instr.vadd { vw with d1 := 63 }).wf = false ∧
    (Instr.vadd { vw with d2 := 768 * 64 }).wf = false ∧ (Instr.vcmpEq { vw with d0 := 15 * 64 + 1 }).wf = false ∧
    (Instr.vcmpEq { vw with d0 := 64 + 1, aux := 15 }).wf = false ∧ (Instr.vzip { vw with d0 := 767 * 64 }).wf = false ∧
    (Instr.vadd { vw with d0 := 766 * 64 + 1 }).wf = true := by decide

/-- M and S words: fields that an opcode does not use, and BYP with AQ (R75, R76, R181, R198). -/
theorem test_wf_matrix_scan : (Instr.mstep { mw with byp := true, aq := true }).wf = false ∧ (Instr.mstep { mw with ge := true }).wf = false ∧
    (Instr.mgather mw).wf = false ∧ (Instr.mgather { mw with ge := true, byp := true }).wf = false ∧
    (Instr.mstep { mw with aq := true, rowA := 1 }).wf = false ∧ (Instr.mstep { mw with rowG := 1 }).wf = false ∧
    (Instr.mstep { mw with se := true }).wf = false ∧ (Instr.mstep { mw with dq := true }).wf = false ∧
    (Instr.mstep { mw with rowC := 1 }).wf = false ∧ (Instr.mzero { mw with acc := true }).wf = false ∧
    (Instr.mloadacc { mw with dq := true }).wf = false ∧ (Instr.mloadacc { mw with aq := true, rowC := 1 }).wf = false ∧
    (Instr.mdrain { mw with rowS := 1 }).wf = true ∧ (Instr.mdrain { mw with se := true, dq := true }).wf = false ∧
    (Instr.mdrain { mw with dq := true, rowC := 1 }).wf = false ∧ (Instr.mrdrain { mw with nsel := 1 }).wf = false ∧
    (Instr.csend { sw with h := 1 }).wf = false ∧ (Instr.szero { sw with o := 1 }).wf = false ∧ (Instr.csend { sw with nsel := 1 }).wf = false ∧
    (Instr.szero { sw with rowX := 1 }).wf = false ∧ (Instr.sload { sw with rowY := 1 }).wf = false ∧ (Instr.sload { sw with rowZ := 1 }).wf = false ∧
    (Instr.sload { sw with clen := 1 }).wf = false ∧ (Instr.sload { sw with xq := true, rowX := 1 }).wf = false ∧
    (Instr.snet { sw with qe := true, q := 8 }).wf = false ∧ (Instr.sload { sw with q := 1 }).wf = false ∧ (Instr.sread sw).wf = false := by
  decide

/-- R84, R87 and R88: words of A, by the tables. -/
theorem test_decode_access_1 :
  (decode 0x2702B088).toOption = some (.add 1 0 7 11 1 2) ∧
  (decode 0x240C14B9).toOption = some (.rem 1 0 4 1 9 14 1) ∧
  (decode 0x2210A52C).toOption = some (.or 1 0 2 10 10 11) ∧
  (decode 0x3A16F418).toOption = some (.shl 1 1 10 15 8 6) ∧
  (decode 0x2D183634).toOption = some (.shr 1 0 13 3 12 13) ∧
  (decode 0x351CA108).toOption = some (.rot 1 1 5 10 2 2) ∧
  (decode 0x2D1E61BC).toOption = some (.min 1 0 13 6 3 15) ∧
  (decode 0x3120B134).toOption = some (.max 1 1 1 11 2 13) ∧
  (decode 0x3C226520).toOption = some (.minz 1 1 12 6 10 8) ∧
  (decode 0x2E2422A0).toOption = some (.maxz 1 0 14 2 5 8) ∧
  (decode 0x3C287780).toOption = some (.popc 1 1 12 7 15) ∧
  (decode 0x283061CF).toOption = some (.addi 1 0 8 6 3 79) := by
  decide

/-- R84, R87 and R88: words of A, by the tables, continued. -/
theorem test_decode_access_2 :
  (decode 0x233683C7).toOption = some (.xori 1 0 3 8 7 71) ∧
  (decode 0x2E387724).toOption = some (.shli 1 0 14 7 14 36) ∧
  (decode 0x363AB799).toOption = some (.shri 1 1 6 11 15 25) ∧
  (decode 0x33442600).toOption = some (.qsend 1 1 3 2 12) ∧
  (decode 0x37487001).toOption = some (.rdid 1 1 7 7 1) ∧
  (decode 0x314A93F1).toOption = some (.waitd 1 1 1 1 1 1009) ∧
  (decode 0x384C0290).toOption = some (.ldq 1 8 0 5 4 0) ∧
  (decode 0x384ED7B0).toOption = some (.ldv 1 8 13 15 12) ∧
  (decode 0x3650C110).toOption = some (.stq 1 6 12 2 4) ∧
  (decode 0x2452821B).toOption = some (.waitsig 0 4 8 4 6 1) ∧
  (decode 0x3A540015).toOption = some (.fence 1 10 2 5) ∧
  (decode 0x2856F598).toOption = some (.keep 0 8 15 11 6) := by
  decide

/-- R84, R87 and R88: words of A, by the tables, continued. -/
theorem test_decode_access_3 :
  (decode 0x2E58B13C).toOption = some (.unkeep 0 14 11 2 15) ∧
  (decode 0x3D5AC690).toOption = some (.cwait 1 13 12 13 4) ∧
  (decode 0x3F8033B4).toOption = some (.kset 1 15 3 7 13) ∧
  (decode 0x3282D61C).toOption = some (.koff 1 2 13 12 7) ∧
  (decode 0x3784C130).toOption = some (.klim 1 7 12 2 12) ∧
  (decode 0x2386308C).toOption = some (.krights 0 3 3 1 3) ∧
  (decode 0x3D88B180).toOption = some (.kmov 1 13 11 3) ∧
  (decode 0x3B8AF30C).toOption = some (.kld 1 11 15 6 3) ∧
  (decode 0x218C16B0).toOption = some (.kst 0 1 1 13 12) ∧
  (decode 0x298EC78C).toOption = some (.ktest 0 9 12 15 3) ∧
  (decode 0x3E904739).toOption = some (.ldZ 1 14 4 14 14 1) ∧
  (decode 0x259242A5).toOption = some (.ldS 0 5 4 5 9 1) := by
  decide

/-- R84, R87 and R88: words of A, by the tables, continued. -/
theorem test_decode_access_4 :
  (decode 0x359493B9).toOption = some (.ldAcqZ 1 5 9 7 14 1) ∧
  (decode 0x2F96C33E).toOption = some (.ldAcqS 0 15 12 6 15 2) ∧
  (decode 0x3E98F7A5).toOption = some (.st 1 14 15 15 9 1) ∧
  (decode 0x299A90BA).toOption = some (.stRel 0 9 9 1 14 2) ∧
  (decode 0x2A9C16B5).toOption = some (.stSig 0 10 1 13 13 1) ∧
  (decode 0x239E8531).toOption = some (.stRelSig 0 3 8 10 12 1) ∧
  (decode 0x26A045B3).toOption = some (.atom 0 6 4 11 12 1 1) ∧
  (decode 0x2FA290A3).toOption = some (.red 0 15 9 1 8 1 1) ∧
  (decode 0x25A41688).toOption = some (.rclaim 0 5 1 13 2) ∧
  (decode 0x39A600B4).toOption = some (.rcommit 1 9 1 13) ∧
  (decode 0x28A86524).toOption = some (.rwaitf 0 8 6 10 9) ∧
  (decode 0x2CAA5424).toOption = some (.rwaite 0 12 5 8 9) := by
  decide

/-- R84, R87 and R88: words of A, by the tables, continued. -/
theorem test_decode_access_5 :
  (decode 0x39AC0230).toOption = some (.rrelease 1 9 4 12) ∧
  (decode 0x3FAE04BC).toOption = some (.barinit 1 15 9 15) ∧
  (decode 0x2EB0040C).toOption = some (.bararrive 0 14 8 3) ∧
  (decode 0x32B203A0).toOption = some (.barwait 1 2 7 8) ∧
  (decode 0x32B4B21C).toOption = some (.copy 1 2 11 4 7) ∧
  (decode 0x24B6B288).toOption = some (.copymc 0 4 11 5 2) ∧
  (decode 0x2CB8B590).toOption = some (.gather 0 12 11 11 4) ∧
  (decode 0x3FBA3408).toOption = some (.scatter 1 15 3 8 2) := by
  decide

/-- R84 to R86, in the layouts of R67 and R68: words of C, by the tables. -/
theorem test_decode_control_1 :
  (decode 0x1A0417A4).toOption = some (.sub 0 1 10 1 15 9) ∧
  (decode 0x02067388).toOption = some (.mul 0 0 2 7 7 2) ∧
  (decode 0x090870BA).toOption = some (.mulh 0 0 9 7 1 14 2) ∧
  (decode 0x0B0AB505).toOption = some (.div 0 0 11 11 10 1 1) ∧
  (decode 0x170E3488).toOption = some (.and 0 1 7 3 9 2) ∧
  (decode 0x12129608).toOption = some (.xor 0 1 2 9 12 2) ∧
  (decode 0x0814B49C).toOption = some (.andn 0 0 8 11 9 7) ∧
  (decode 0x0A1A54A0).toOption = some (.sra 0 0 10 5 9 8) ∧
  (decode 0x0C26C280).toOption = some (.clz 0 0 12 12 5) ∧
  (decode 0x113246A5).toOption = some (.andi 0 1 1 4 13 37) ∧
  (decode 0x073477F0).toOption = some (.ori 0 0 7 7 15 112) ∧
  (decode 0x023C326C).toOption = some (.li 0 0 2 3 620) := by
  decide

/-- R84 to R86, in the layouts of R67 and R68: words of C, by the tables, continued. -/
theorem test_decode_control_2 :
  (decode 0x013E8D4D).toOption = some (.liu 0 0 1 8 3405) ∧
  (decode 0x154026F2).toOption = some (.plogic 0 1 5 1 3 7 9) ∧
  (decode 0x1A42A300).toOption = some (.qpop 0 1 10 10 6) ∧
  (decode 0x1F46E000).toOption = some (.rdcyc 0 1 15 14) ∧
  (decode 0x13646504).toOption = some (.sel 0 1 3 2 6 10 1) ∧
  (decode 0x0ACA48CA).toOption = some (.cmp 0 0 10 2 9 2 6 10) ∧
  (decode 0x0EEA9C6B).toOption = some (.cmpi 0 0 14 2 10 7 3 11) ∧
  (decode 0x16800500).toOption = some (.fmtq 1 6 10) ∧
  (decode 0x18821100).toOption = some (.setnReg 1 8 1 2) ∧
  (decode 0x188447BE).toOption = some (.setnImm 1 8 4 1982) ∧
  (decode 0x12860123).toOption = some (.slip 1 2 291) ∧
  (decode 0x02897FD6).toOption = some (.brl 0 2 98262) := by
  decide

/-- R84 to R86, in the layouts of R67 and R68: words of C, by the tables, continued. -/
theorem test_decode_control_3 :
  (decode 0x1C8A0000).toOption = some (.ret 1 12) ∧
  (decode 0x188C0700).toOption = some (.jmpr 1 8 14) ∧
  (decode 0x09A01349).toOption = some (.srd 0 9 1 841) ∧
  (decode 0x13A2C8B1).toOption = some (.swr 1 3 12 2225) ∧
  (decode 0x0DA40874).toOption = some (.trap 0 13 2164) ∧
  (decode 0x1BA60000).toOption = some (.trapret 1 11) ∧
  (decode 0x0CA80714).toOption = some (.trapinstall 0 12 14 5) ∧
  (decode 0x1FAA0198).toOption = some (.launch 1 15 3 6) ∧
  (decode 0x09AC0480).toOption = some (.pquiesce 0 9 9) ∧
  (decode 0x1BAE4500).toOption = some (.pstatus 1 11 4 10) ∧
  (decode 0x0DB00238).toOption = some (.pbound 0 13 4 14) ∧
  (decode 0x1CB20691).toOption = some (.tlbshoot 1 12 13 4 1) := by
  decide

/-- R84 to R86, in the layouts of R67 and R68: words of C, by the tables, continued. -/
theorem test_decode_control_4 :
  (decode 0x16B40BB3).toOption = some (.dbg 1 6 2995) ∧
  (decode 0x01B60680).toOption = some (.suspend 0 1 13) := by
  decide

/-- R90: words of X, by the tables. -/
theorem test_decode_joint_1 :
  (decode 0xBF000000).toOption = some (.nop 1 15) ∧
  (decode 0xB303FAD1).toOption = some (.br 1 3 129745) ∧
  (decode 0xA30569A4).toOption = some (.loop 0 3 92580) ∧
  (decode 0xB9080000).toOption = some (.notify 1 9) ∧
  (decode 0xB6080001).toOption = some (.notifyCont 1 6) ∧
  (decode 0xB40A05B5).toOption = some (.yield 1 4 1461) ∧
  (decode 0xB20C0B8E).toOption = some (.phase 1 2 2958) ∧
  (decode 0xB10E0000).toOption = some (.cbar 1 1) := by
  decide

/-- R69, R70 and R91: words of V, by the tables. -/
theorem test_decode_vector_1 :
  (decode (parcels [0x59005303, 0x28090200, 0x2C384000])).toOption = some (.vadd ⟨true, 9, 9, 4, 3, 66048, 2562, 230400, 176⟩) ∧
  (decode (parcels [0x5C009243, 0x28090200, 0x2C384000])).toOption = some (.vsub ⟨true, 12, 9, 1, 3, 66048, 2562, 230400, 176⟩) ∧
  (decode (parcels [0x5600D343, 0x28090200, 0x2C384000])).toOption = some (.vmul ⟨true, 6, 9, 5, 3, 66048, 2562, 230400, 176⟩) ∧
  (decode (parcels [0x59011043, 0x28080501, 0x1400F3F0])).toOption = some (.vfma ⟨true, 9, 8, 1, 3, 1281, 2562, 3903, 80⟩) ∧
  (decode (parcels [0x4F0151C3, 0x28080501, 0x1400F3F0])).toOption = some (.vfms ⟨false, 15, 8, 7, 3, 1281, 2562, 3903, 80⟩) ∧
  (decode (parcels [0x4F018443, 0x28080501, 0x20000000])).toOption = some (.vabs ⟨false, 15, 2, 1, 3, 1281, 2562, 0, 128⟩) ∧
  (decode (parcels [0x4501D4C3, 0x28080501, 0x0000F3F0])).toOption = some (.vmin ⟨false, 5, 10, 3, 3, 1281, 2562, 3903, 0⟩) ∧
  (decode (parcels [0x4F0215C3, 0x28080501, 0x0000F3F0])).toOption = some (.vmax ⟨false, 15, 10, 7, 3, 1281, 2562, 3903, 0⟩) ∧
  (decode (parcels [0x450251C3, 0x28080501, 0x3C000000])).toOption = some (.vrcp ⟨false, 5, 8, 7, 3, 1281, 2562, 0, 240⟩) ∧
  (decode (parcels [0x4E029103, 0x28080501, 0x3C000000])).toOption = some (.vrsq ⟨false, 14, 8, 4, 3, 1281, 2562, 0, 240⟩) ∧
  (decode (parcels [0x5702D083, 0x28080501, 0x3C000000])).toOption = some (.vsqrt ⟨true, 7, 8, 2, 3, 1281, 2562, 0, 240⟩) ∧
  (decode (parcels [0x5C0310C3, 0x28080501, 0x3C000000])).toOption = some (.vexp2 ⟨true, 12, 8, 3, 3, 1281, 2562, 0, 240⟩) := by
  decide

/-- R69, R70 and R91: words of V, by the tables, continued. -/
theorem test_decode_vector_2 :
  (decode (parcels [0x45035043, 0x28080501, 0x3C000000])).toOption = some (.vlog2 ⟨false, 5, 8, 1, 3, 1281, 2562, 0, 240⟩) ∧
  (decode (parcels [0x47080243, 0x28080501, 0x2000F3F0])).toOption = some (.viadd ⟨false, 7, 1, 1, 3, 1281, 2562, 3903, 128⟩) ∧
  (decode (parcels [0x51084383, 0x28080501, 0x2000F3F0])).toOption = some (.visub ⟨true, 1, 1, 6, 3, 1281, 2562, 3903, 128⟩) ∧
  (decode (parcels [0x4D0882C3, 0x28080501, 0x2000F3F0])).toOption = some (.vimul ⟨false, 13, 1, 3, 3, 1281, 2562, 3903, 128⟩) ∧
  (decode (parcels [0x4A08C3C3, 0x28080501, 0x2000F3F0])).toOption = some (.vshl ⟨false, 10, 1, 7, 3, 1281, 2562, 3903, 128⟩) ∧
  (decode (parcels [0x42090CC3, 0x28080501, 0x0000F3F0])).toOption = some (.vshr ⟨false, 2, 6, 3, 3, 1281, 2562, 3903, 0⟩) ∧
  (decode (parcels [0x48094C43, 0x28080501, 0x0000F3F0])).toOption = some (.vand ⟨false, 8, 6, 1, 3, 1281, 2562, 3903, 0⟩) ∧
  (decode (parcels [0x59098D03, 0x28080501, 0x0000F3F0])).toOption = some (.vor ⟨true, 9, 6, 4, 3, 1281, 2562, 3903, 0⟩) ∧
  (decode (parcels [0x5A09CC83, 0x28080501, 0x0000F3F0])).toOption = some (.vxor ⟨true, 10, 6, 2, 3, 1281, 2562, 3903, 0⟩) ∧
  (decode (parcels [0x490A0D83, 0x28080501, 0x0000F3F0])).toOption = some (.vimin ⟨false, 9, 6, 6, 3, 1281, 2562, 3903, 0⟩) ∧
  (decode (parcels [0x420A4C83, 0x28080501, 0x0000F3F0])).toOption = some (.vimax ⟨false, 2, 6, 2, 3, 1281, 2562, 3903, 0⟩) ∧
  (decode (parcels [0x51101083, 0x280800C2, 0x0140F3F0])).toOption = some (.vcmpEq ⟨true, 1, 8, 2, 3, 194, 2562, 3903, 5⟩) := by
  decide

/-- R69, R70 and R91: words of V, by the tables, continued. -/
theorem test_decode_vector_3 :
  (decode (parcels [0x4F1050C3, 0x280800C2, 0x0140F3F0])).toOption = some (.vcmpNe ⟨false, 15, 8, 3, 3, 194, 2562, 3903, 5⟩) ∧
  (decode (parcels [0x591091C3, 0x280800C2, 0x0140F3F0])).toOption = some (.vcmpLt ⟨true, 9, 8, 7, 3, 194, 2562, 3903, 5⟩) ∧
  (decode (parcels [0x4510D103, 0x280800C2, 0x0140F3F0])).toOption = some (.vcmpLe ⟨false, 5, 8, 4, 3, 194, 2562, 3903, 5⟩) ∧
  (decode (parcels [0x451110C3, 0x280800C2, 0x0140F3F0])).toOption = some (.vcmpGt ⟨false, 5, 8, 3, 3, 194, 2562, 3903, 5⟩) ∧
  (decode (parcels [0x45115043, 0x280800C2, 0x0140F3F0])).toOption = some (.vcmpGe ⟨false, 5, 8, 1, 3, 194, 2562, 3903, 5⟩) ∧
  (decode (parcels [0x41119183, 0x280800C2, 0x0140F3F0])).toOption = some (.vcmpUo ⟨false, 1, 8, 6, 3, 194, 2562, 3903, 5⟩) ∧
  (decode (parcels [0x49121703, 0x280800C2, 0x01755400])).toOption = some (.vclass ⟨false, 9, 11, 4, 3, 194, 2562, 218432, 5⟩) ∧
  (decode (parcels [0x4F125903, 0x28080501, 0x0000F3F0])).toOption = some (.vsel ⟨false, 15, 12, 4, 3, 1281, 2562, 3903, 0⟩) ∧
  (decode (parcels [0x4B1289C3, 0x28080501, 0x00100000])).toOption = some (.vperm ⟨false, 11, 4, 7, 3, 1281, 2562, 65536, 0⟩) ∧
  (decode (parcels [0x5B12C903, 0x28080501, 0x0030FC00])).toOption = some (.vrotm ⟨true, 11, 4, 4, 3, 1281, 2562, 200640, 0⟩) ∧
  (decode (parcels [0x591308C3, 0x28080501, 0x0030FC00])).toOption = some (.vbcast ⟨true, 9, 4, 3, 3, 1281, 2562, 200640, 0⟩) ∧
  (decode (parcels [0x441358C3, 0x28080501, 0x0000F3F0])).toOption = some (.vzip ⟨false, 4, 12, 3, 3, 1281, 2562, 3903, 0⟩) := by
  decide

/-- R69, R70 and R91: words of V, by the tables, continued. -/
theorem test_decode_vector_4 :
  (decode (parcels [0x4E139983, 0x28080501, 0x0000F3F0])).toOption = some (.vunzip ⟨false, 14, 12, 6, 3, 1281, 2562, 3903, 0⟩) ∧
  (decode (parcels [0x4713CEC3, 0x04040501, 0x00000008])).toOption = some (.vmov ⟨false, 7, 7, 3, 3, 1281, 131329, 0, 0⟩) ∧
  (decode (parcels [0x4E1A0083, 0x28080501, 0x00300C00])).toOption = some (.vcvt 8 ⟨false, 14, 0, 2, 3, 1281, 2562, 196800, 0⟩) ∧
  (decode (parcels [0x42201183, 0x28080501, 0x00201010])).toOption = some (.vpack ⟨false, 2, 8, 6, 3, 1281, 2562, 131329, 0⟩) ∧
  (decode (parcels [0x57205083, 0x28080501, 0x24300000])).toOption = some (.vunpack ⟨true, 7, 8, 2, 3, 1281, 2562, 196608, 144⟩) ∧
  (decode (parcels [0x42281183, 0x28080501, 0x0C000000])).toOption = some (.vrsum ⟨false, 2, 8, 6, 3, 1281, 2562, 0, 48⟩) ∧
  (decode (parcels [0x5E285143, 0x28080501, 0x00000000])).toOption = some (.vrmax ⟨true, 14, 8, 5, 3, 1281, 2562, 0, 0⟩) ∧
  (decode (parcels [0x5A289083, 0x28080501, 0x00000000])).toOption = some (.vrmin ⟨true, 10, 8, 2, 3, 1281, 2562, 0, 0⟩) ∧
  (decode (parcels [0x51301D03, 0x02040041, 0x00000C10])).toOption = some (.mlogic ⟨true, 1, 14, 4, 3, 65, 129, 193, 0⟩) ∧
  (decode (parcels [0x43304CC3, 0x02040501, 0x00000000])).toOption = some (.mpop ⟨false, 3, 6, 3, 3, 1281, 129, 0, 0⟩) ∧
  (decode (parcels [0x51308CC3, 0x02040501, 0x00000000])).toOption = some (.mfirst ⟨true, 1, 6, 3, 3, 1281, 129, 0, 0⟩) ∧
  (decode (parcels [0x56401143, 0x28080501, 0x0000F3F0])).toOption = some (.rmul ⟨true, 6, 8, 5, 3, 1281, 2562, 3903, 0⟩) := by
  decide

/-- R69, R70 and R91: words of V, by the tables, continued. -/
theorem test_decode_vector_5 :
  (decode (parcels [0x54405043, 0x28080501, 0x0000F3F0])).toOption = some (.radd ⟨true, 4, 8, 1, 3, 1281, 2562, 3903, 0⟩) ∧
  (decode (parcels [0x544090C3, 0x28080501, 0x0000F3F0])).toOption = some (.rfma ⟨true, 4, 8, 3, 3, 1281, 2562, 3903, 0⟩) ∧
  (decode (parcels [0x4140D2C3, 0x28080501, 0x00300400])).toOption = some (.rnar ⟨false, 1, 9, 3, 3, 1281, 2562, 196672, 0⟩) ∧
  (decode (parcels [0x52411103, 0x28080501, 0x00383C00])).toOption = some (.rlrelu ⟨true, 2, 8, 4, 3, 1281, 2562, 230336, 0⟩) ∧
  (decode (parcels [0x59421183, 0x28080501, 0x0000F3F0])).toOption = some (.unmul ⟨true, 9, 8, 6, 3, 1281, 2562, 3903, 0⟩) ∧
  (decode (parcels [0x44425143, 0x28080501, 0x0000F3F0])).toOption = some (.unadd ⟨false, 4, 8, 5, 3, 1281, 2562, 3903, 0⟩) ∧
  (decode (parcels [0x424290C3, 0x28080501, 0x0000F3F0])).toOption = some (.unfma ⟨false, 2, 8, 3, 3, 1281, 2562, 3903, 0⟩) ∧
  (decode (parcels [0x4342D303, 0x28080501, 0x00300400])).toOption = some (.unnar ⟨false, 3, 9, 4, 3, 1281, 2562, 196672, 0⟩) ∧
  (decode (parcels [0x47431043, 0x28080501, 0x00383C00])).toOption = some (.unlrelu ⟨false, 7, 8, 1, 3, 1281, 2562, 230336, 0⟩) ∧
  (decode (parcels [0x40440001, 0x00000000, 0x0033FC00])).toOption = some (.rmark ⟨false, 0, 0, 0, 1, 0, 0, 212928, 0⟩) ∧
  (decode (parcels [0x40444001, 0x00000000, 0x0033FC00])).toOption = some (.rdrop ⟨false, 0, 0, 0, 1, 0, 0, 212928, 0⟩) := by
  decide

/-- R76 and R92: words of M, by the tables. -/
theorem test_decode_matrix_1 :
  (decode (parcels [0x60056C00, 0x3FFF9234, 0x0001C321, 0x00000ABC, 0x00000000, 0x00000000])).toOption = some (.mstep ⟨5, true, false, 6, 4660, 32767, 17185, 3, 2748, false, 0, false, 0, false, false, 0⟩) ∧
  (decode (parcels [0x60094C00, 0x00011234, 0x3FFF4321, 0x00000001, 0x0000ABCD, 0x00000000])).toOption = some (.mgather ⟨5, false, false, 6, 4660, 2, 17185, 32766, 1, true, 11213, false, 0, false, false, 0⟩) ∧
  (decode (parcels [0x600D4C00, 0x00000000, 0x00000000, 0x00000000, 0x00000000, 0x00000000])).toOption = some (.mzero ⟨5, false, false, 6, 0, 0, 0, 0, 0, false, 0, false, 0, false, false, 0⟩) ∧
  (decode (parcels [0x60116C00, 0x00000000, 0x00000000, 0x00000000, 0x00000000, 0x00004D5C])).toOption = some (.mloadacc ⟨5, true, false, 6, 0, 0, 0, 0, 0, false, 0, false, 0, false, false, 4951⟩) ∧
  (decode (parcels [0x60154C00, 0x00000000, 0x00000000, 0x00000000, 0xA4680000, 0x00000000])).toOption = some (.mdrain ⟨5, false, false, 6, 0, 0, 0, 0, 0, false, 0, true, 9320, false, false, 0⟩) ∧
  (decode (parcels [0x60194000, 0x00000000, 0x00000000, 0x00000000, 0x00000000, 0x00000002])).toOption = some (.mrdrain ⟨5, false, false, 0, 0, 0, 0, 0, 0, false, 0, false, 0, false, true, 0⟩) := by
  decide

/-- R75 and R93: words of S, by the tables. -/
theorem test_decode_scan_1 :
  (decode (parcels [0x800193EC, 0x00000000, 0x00000000])).toOption = some (.sload ⟨9, 0, 7, 13, true, false, 0, 0, 0, 0⟩) ∧
  (decode (parcels [0x8002D100, 0x0000542B, 0x00000000])).toOption = some (.sstore ⟨13, 0, 2, 0, false, false, 21547, 0, 0, 0⟩) ∧
  (decode (parcels [0x8003F300, 0x00000000, 0x00000000])).toOption = some (.szero ⟨15, 0, 6, 0, false, false, 0, 0, 0, 0⟩) ∧
  (decode (parcels [0x8008DE64, 0x14DFE1D5, 0x7E0C5C40])).toOption = some (.scan ⟨13, 3, 4, 12, true, false, 25045, 10687, 23616, 64536⟩) ∧
  (decode (parcels [0x80098582, 0x00000000, 0x5CB18000])).toOption = some (.sagg ⟨8, 1, 3, 0, false, true, 0, 0, 0, 47459⟩) ∧
  (decode (parcels [0x800AAD00, 0x00000000, 0x059B0000])).toOption = some (.snet ⟨10, 3, 2, 0, false, false, 0, 0, 0, 2870⟩) ∧
  (decode (parcels [0x800C0C00, 0x00000000, 0x722B8000])).toOption = some (.csend ⟨0, 3, 0, 0, false, false, 0, 0, 0, 58455⟩) ∧
  (decode (parcels [0x800D0C00, 0x00000000, 0x504C8000])).toOption = some (.crecv ⟨0, 3, 0, 0, false, false, 0, 0, 0, 41113⟩) ∧
  (decode (parcels [0x800E7F64, 0x000067F7, 0x11D540B6])).toOption = some (.sapply ⟨7, 3, 6, 12, true, false, 26615, 0, 16566, 9130⟩) ∧
  (decode (parcels [0x8010FF80, 0x24624090, 0x00006AE0])).toOption = some (.step ⟨15, 3, 7, 0, false, false, 16528, 18628, 27360, 0⟩) ∧
  (decode (parcels [0x8011E3E4, 0x0000007F, 0x00000000])).toOption = some (.sread ⟨14, 0, 7, 12, true, false, 127, 0, 0, 0⟩) ∧
  (decode (parcels [0x80200400, 0x000069C8, 0x00000000])).toOption = some (.sopsetDiag ⟨0, 1, 0, 0, false, false, 27080, 0, 0, 0⟩) := by
  decide

/-- R75 and R93: words of S, by the tables, continued. -/
theorem test_decode_scan_2 :
  (decode (parcels [0x80210C00, 0x00004AC3, 0x00000000])).toOption = some (.sopsetBd2 ⟨0, 3, 0, 0, false, false, 19139, 0, 0, 0⟩) ∧
  (decode (parcels [0x80220C00, 0x0000576A, 0x00000000])).toOption = some (.sopsetBd4 ⟨0, 3, 0, 0, false, false, 22378, 0, 0, 0⟩) ∧
  (decode (parcels [0x80230C00, 0x0000524B, 0x00000000])).toOption = some (.sopsetBd8 ⟨0, 3, 0, 0, false, false, 21067, 0, 0, 0⟩) ∧
  (decode (parcels [0x80240402, 0x00000000, 0x00000000])).toOption = some (.sopsetMaxplus ⟨0, 1, 0, 0, false, true, 0, 0, 0, 0⟩) ∧
  (decode (parcels [0x80250400, 0x000003FE, 0x00000000])).toOption = some (.sopsetGsum ⟨0, 1, 0, 0, false, false, 1022, 0, 0, 0⟩) := by
  decide


/-! ### A state and operands that meet the hypotheses of every statement

A crew with every stream and the whole of a core's stores stands on slot 0 of core D0.0.0; each state below differs from it
as its statement asks. -/

def tl : Launch := textLaunch 0
def tc : Crew := freshCrew tl 0 0
/-- The package after reset with one launch and its crew. -/
def pk (c : Crew) (l : Launch := tl) : State :=
  { State.reset with crews := [(0, c)], sched := { State.reset.sched with launches := [l], nextLaunch := 1 } }
/-- The same with stream `e` current. -/
def at_ (c : Crew) (e : Eng) : State := { pk c with cur := ⟨0, 0, e⟩ }
/-- The crew with A's or C's register `r` holding `x`, and with capability `r` holding `k`. -/
def withA (c : Crew) (r : BitVec 5) (x : Word) : Crew := sWrite c .a r x
def withC (c : Crew) (r : BitVec 5) (x : Word) : Crew := sWrite c .c r x
def withK (c : Crew) (r : BitVec 5) (k : Cap) : Crew := kWrite c r k
/-- The crew in handler mode, in a subroutine, and without system privilege. -/
def handling (c : Crew) : Crew := { c with trap := { c.trap with inHandler := true } }
def inCall (c : Crew) : Crew := { c with cd := 1 }
def plain (c : Crew) : Crew := { c with flags := 0 }
/-- A queue holding these entries. -/
def holds (c : Crew) (q : Nat) (l : List QEntry) : Crew := setQueue c q l
def entry (x : Row) : QEntry := ⟨x, 0, false, 0, 0⟩

def isNext {S F R : Type} : Host.Outcome S F R → Bool
  | .next _ => true
  | _ => false
theorem exists_next {S F R : Type} {o : Host.Outcome S F R} (h : isNext o = true) : ∃ t, o = .next t := by
  cases o with
  | next t => exact ⟨t, rfl⟩
  | fault => simp [isNext] at h
  | refused => simp [isNext] at h

theorem test_meets_DecodeEncodeAgree : ∃ i : Instr, i.isWord = true ∧ i.wf = true ∧ encode i < 2 ^ 192 :=
  ⟨.mstep ⟨3, true, false, 5, 100, 7, 9, 200, 9, false, 0, false, 0, false, false, 0⟩, by decide⟩

theorem test_meets_TagFixesLength : ∃ i : Instr, i.isWord = true ∧ i.wf = true ∧ wordBytes i = 24 :=
  ⟨.mstep ⟨3, true, false, 5, 100, 7, 9, 200, 9, false, 0, false, 0, false, false, 0⟩, by decide⟩

theorem test_meets_RetiringMovesOnlyPosition : (∃ c : Crew, c.trap.inHandler = false ∧ c.cd ≠ 0) ∧ (∃ c : Crew, c.trap.inHandler = true) :=
  ⟨⟨inCall tc, rfl, by decide⟩, ⟨handling tc, rfl⟩⟩

theorem test_meets_StepKeepsMemoryCanonical : ∃ s, MemOk s ∧ s.mem ≠ [] ∧ ∃ t, step s = .next t :=
  ⟨State.reset.withFetchWord 32 0xA000_0000, by unfold MemOk; decide +kernel, by decide +kernel, exists_next (by decide +kernel)⟩

/-- A stream of a state with text placed fetches exactly its words. -/
def fetchesB (s : State) (core slot : Nat) (e : Eng) (tag w : Nat) : Bool :=
  match s.agenda, crewAt s core slot with
  | .stream core' slot' e' :: rest, some c => decide (core' = core ∧ slot' = slot ∧ e' = e) &&
      hasTurn { s with agenda := rest } core slot e && canRun c e &&
      (match (fetch (takeTurn { s with agenda := rest } core slot e none) c (dieOf core) (textOf c) (pcOf c e) (reads c e)).2 with
       | .words tag' w' => decide (tag' = tag ∧ w' = w)
       | _ => false)
  | _, _ => false
theorem fetches_of {s : State} {core slot : Nat} {e : Eng} {tag w : Nat} (h : fetchesB s core slot e tag w = true) :
    ∃ s1, Fetches s core slot e ((crewAt s core slot).getD tc) tag w s1 := by
  unfold fetchesB at h
  split at h
  · rename_i core' slot' e' rest c ha hc
    simp only [Bool.and_eq_true, decide_eq_true_eq] at h
    obtain ⟨⟨⟨⟨rfl, rfl, rfl⟩, ht⟩, hr⟩, h⟩ := h
    split at h
    · rename_i heq
      simp only [decide_eq_true_eq] at h
      obtain ⟨rfl, rfl⟩ := h
      rw [hc]
      exact ⟨_, _, rest, none, ha, .inl ⟨rfl, rfl⟩, ht, hc, hr, Prod.ext rfl heq⟩
    · cases h
  · cases h

/-- The crew that stands where a text is placed. -/
def placed (w : Nat) : State := State.reset.withFetchWord 32 w
def placedCrew (w : Nat) : Crew := (crewAt (placed w) 0 0).getD tc

theorem test_meets_StepRunsDecoded : ∃ s s1 core slot e c tag w i, Fetches s core slot e c tag w s1 ∧
    (tag = tagOfEng e ∨ tag = 5) ∧ slipBlocked c e (growth c e tag w) = false ∧ decode w = .ok i ∧
      footprintOk c i = true ∧ (profileF i = true → isSaffron core = true) := by
  obtain ⟨s1, h⟩ := fetches_of (s := placed 0x0080_0280) (core := 0) (slot := 0) (e := .c) (tag := 0)
    (w := 0x0080_0280) (by decide +kernel)
  exact ⟨_, s1, 0, 0, .c, _, 0, _, .fmtq 0 0 5, h, .inl rfl, by decide +kernel, by rfl, (by decide +kernel), by decide⟩

/-- The same with the crew changed and stream `e` served next. -/
def placedAs (w : Nat) (e : Eng) (f : Crew → Crew) : State :=
  { placed w with agenda := [.stream 0 0 e], crews := [(0, f (placedCrew w))] }

theorem test_meets_StepSkipsOrFaults :
    (∃ s s1 core slot e c tag w, Fetches s core slot e c tag w s1 ∧ lenOfTag tag ≠ 0 ∧ slipBlocked c e (growth c e tag w) = true) ∧
    (∃ s s1 core slot e c tag w, Fetches s core slot e c tag w s1 ∧ lenOfTag tag ≠ 0 ∧
      slipBlocked c e (growth c e tag w) = false ∧ tag ≠ tagOfEng e ∧ tag ≠ 5 ∧ ∀ i, decode w = .ok i → isSetn i = false) ∧
    (∃ s s1 core slot e c w i, Fetches s core slot e c 0 w s1 ∧ slipBlocked c e (growth c e 0 w) = false ∧ e = .v ∧
      c.trap.inHandler = false ∧ decode w = .ok i ∧ isSetn i = true) ∧
    ∃ s s1 core slot e c tag w, Fetches s core slot e c tag w s1 ∧ lenOfTag tag = 0 := by
  refine ⟨?_, ?_, ?_, ?_⟩
  · obtain ⟨s1, h⟩ := fetches_of (s := placedAs 0x0080_0280 .c fun c => { c with strC := { c.strC with path := 2 ^ 30 } })
      (core := 0) (slot := 0) (e := .c) (tag := 0) (w := 0x0080_0280) (by decide +kernel)
    exact ⟨_, s1, 0, 0, .c, _, 0, _, h, by decide, by decide +kernel⟩
  · obtain ⟨s1, h⟩ := fetches_of (s := placedAs 0x0080_0280 .a id)
      (core := 0) (slot := 0) (e := .a) (tag := 0) (w := 0x0080_0280) (by decide +kernel)
    refine ⟨_, s1, 0, 0, .a, _, 0, _, h, by decide, by decide +kernel, by decide, by decide, ?_⟩
    intro i hi
    have : decode 0x0080_0280 = .ok (.fmtq 0 0 5) := by rfl
    rw [this] at hi; cases hi; rfl
  · obtain ⟨s1, h⟩ := fetches_of (s := placedAs 0x0084_1001 .v id)
      (core := 0) (slot := 0) (e := .v) (tag := 0) (w := 0x0084_1001) (by decide +kernel)
    exact ⟨_, s1, 0, 0, .v, _, _, .setnImm 0 0 1 1, h, (by decide +kernel), rfl, by decide +kernel, by rfl, rfl⟩
  · obtain ⟨s1, h⟩ := fetches_of (s := placed 0xC000_0000) (core := 0) (slot := 0) (e := .c) (tag := 6)
      (w := 0xC000_0000) (by decide +kernel)
    exact ⟨_, s1, 0, 0, .c, _, 6, _, h, by decide⟩

/-- An instruction of its own that a stream refuses at decode (R82), one state for each reason. -/
theorem test_meets_StepSkipsOrFaults_decode :
    (∃ s s1 core slot e c tag w, Fetches s core slot e c tag w s1 ∧ slipBlocked c e (growth c e tag w) = false ∧
      tag = tagOfEng e ∧ decode w = .error .illegal ∧ w / 2 ^ 29 % 8 ≠ 5) ∧
    (∃ s s1 core slot e c tag w, Fetches s core slot e c tag w s1 ∧ slipBlocked c e (growth c e tag w) = false ∧
      tag = tagOfEng e ∧ decode w = .error .reservedReg) ∧
    (∃ s s1 core slot e c tag w i, Fetches s core slot e c tag w s1 ∧ slipBlocked c e (growth c e tag w) = false ∧
      tag = tagOfEng e ∧ decode w = .ok i ∧ footprintOk c i = false) ∧
    (∃ s s1 core slot e c tag w i, Fetches s core slot e c tag w s1 ∧ slipBlocked c e (growth c e tag w) = false ∧
      tag = tagOfEng e ∧ decodeFields w = some i ∧ decode w = .error .queueMisuse) ∧
    ∃ s s1 core slot e c tag w i, Fetches s core slot e c tag w s1 ∧ slipBlocked c e (growth c e tag w) = false ∧
      tag = tagOfEng e ∧ decodeFields w = some i ∧ decode w = .error .queueIllegal := by
  refine ⟨?_, ?_, ?_, ?_, ?_⟩
  · obtain ⟨s1, h⟩ := fetches_of (s := placed (21 * 2 ^ 17)) (core := 0) (slot := 0) (e := .c) (tag := 0)
      (w := 21 * 2 ^ 17) (by decide +kernel)
    exact ⟨_, s1, 0, 0, .c, _, 0, _, h, by decide +kernel, rfl, by rfl, by decide⟩
  · obtain ⟨s1, h⟩ := fetches_of (s := placedAs 56668398014339141881857 .v id) (core := 0) (slot := 0) (e := .v) (tag := 2)
      (w := 56668398014339141881857) (by decide +kernel)
    exact ⟨_, s1, 0, 0, .v, _, 2, _, h, (by decide +kernel), rfl, by rfl⟩
  · obtain ⟨s1, h⟩ := fetches_of (s := placedAs 56668397931875769798657 .v fun c => { c with nv := 500 }) (core := 0) (slot := 0)
      (e := .v) (tag := 2) (w := 56668397931875769798657) (by decide +kernel)
    exact ⟨_, s1, 0, 0, .v, _, 2, _, .vadd ⟨false, 0, 8, 0, 1, 500 * 64, 0, 192, 0⟩, h, by decide +kernel, rfl, by rfl, by decide +kernel⟩
  · obtain ⟨s1, h⟩ := fetches_of (s := placedAs 542126636 .a id) (core := 0) (slot := 0) (e := .a) (tag := 1)
      (w := 542126636) (by decide +kernel)
    exact ⟨_, s1, 0, 0, .a, _, 1, _, .stq 0 0 3 4 11, h, (by decide +kernel), rfl, by rfl, by rfl⟩
  · obtain ⟨s1, h⟩ := fetches_of (s := placed 4457856) (core := 0) (slot := 0) (e := .c) (tag := 0) (w := 4457856) (by decide +kernel)
    exact ⟨_, s1, 0, 0, .c, _, 0, _, .qsend 0 0 0 0 11, h, by decide +kernel, rfl, by rfl, by rfl⟩

/-- An X word that no opcode assigns (R90): a stream that stops first and one that stops last, a handler that faults, and a
stream that C has passed by. -/
def unassigned : Nat := 5 * 2 ^ 29 + 8 * 2 ^ 17
def allStopped (c : Crew) : Crew := mapStreams c fun e x => if e = .c then x else { x with status := .joint 3 0 }
theorem test_meets_StepSkipsOrFaults_unassigned :
    (decode unassigned = .error .illegal ∧ unassigned / 2 ^ 29 % 8 = 5 ∧ decodeFields unassigned = none) ∧
    (∃ s s1 c, Fetches s 0 0 .c c 5 unassigned s1 ∧ slipBlocked c .c (growth c .c 5 unassigned) = false ∧ c.trap.inHandler = true) ∧
    (∃ s s1 c, Fetches s 0 0 .c c 5 unassigned s1 ∧ slipBlocked c .c (growth c .c 5 unassigned) = false ∧
      c.trap.inHandler = false ∧ c.cd = 0 ∧ ∃ o, active c o = true ∧ o ≠ .c ∧ (strOf c o).status ≠ .joint 3 0) ∧
    (∃ s s1 c, Fetches s 0 0 .c c 5 unassigned s1 ∧ slipBlocked c .c (growth c .c 5 unassigned) = false ∧
      c.trap.inHandler = false ∧ c.cd = 0 ∧ ∀ o, active c o = true → o ≠ .c → (strOf c o).status = .joint 3 0) ∧
    ∃ s s1 c, Fetches s 0 0 .v c 5 unassigned s1 ∧ slipBlocked c .v (growth c .v 5 unassigned) = false ∧
      c.trap.inHandler = false ∧ Finds c .v false [] := by
  refine ⟨⟨by rfl, by decide, by rfl⟩, ?_, ?_, ?_, ?_⟩
  · obtain ⟨s1, h⟩ := fetches_of (s := placedAs unassigned .c fun c => { handling c with trap := { (handling c).trap with htext := 1 } })
      (core := 0) (slot := 0) (e := .c) (tag := 5) (w := unassigned) (by decide +kernel)
    exact ⟨_, s1, _, h, by decide +kernel, (by decide +kernel)⟩
  · obtain ⟨s1, h⟩ := fetches_of (s := placedAs unassigned .c id) (core := 0) (slot := 0) (e := .c) (tag := 5) (w := unassigned)
      (by decide +kernel)
    exact ⟨_, s1, _, h, by decide +kernel, by decide +kernel, (by decide +kernel), .a, by decide +kernel, by decide, by decide +kernel⟩
  · obtain ⟨s1, h⟩ := fetches_of (s := placedAs unassigned .c allStopped) (core := 0) (slot := 0) (e := .c) (tag := 5)
      (w := unassigned) (by decide +kernel)
    exact ⟨_, s1, _, h, (by decide +kernel), by decide +kernel, by decide +kernel,
      fun o => by cases o <;> decide +kernel⟩
  · obtain ⟨s1, h⟩ := fetches_of (s := placedAs unassigned .v fun c => { c with strV := { c.strV with fifo := [0] } }) (core := 0)
      (slot := 0) (e := .v) (tag := 5) (w := unassigned) (by decide +kernel)
    exact ⟨_, s1, _, h, (by decide +kernel), by decide +kernel, 0, by decide +kernel, (by decide +kernel), by decide +kernel⟩

/-- C at an X word behind a full FIFO; the same word met where a stream waits for an outcome, and where another outcome stands. -/
def starving (c : Crew) : Crew := { allStopped c with strV := { (allStopped c).strV with status := .running, wait := 3 } }
def strayOutcome : Word := 0xFFF0_0000_0000
def outOfStep (c : Crew) : Crew := { c with strV := { c.strV with fifo := [strayOutcome] } }
theorem test_meets_StepSkipsOrFaults_starved :
    (∃ s s1 c, Fetches s 0 0 .c c 5 unassigned s1 ∧ slipBlocked c .c (growth c .c 5 unassigned) = false ∧ Full c .c unassigned) ∧
    (∃ s s1 c, Fetches s 0 0 .c c 5 unassigned s1 ∧ slipBlocked c .c (growth c .c 5 unassigned) = false ∧ ¬Full c .c unassigned ∧
      c.trap.inHandler = false ∧ c.cd = 0 ∧ Starved c .v) ∧
    ∃ s s1 c, Fetches s 0 0 .v c 5 unassigned s1 ∧ slipBlocked c .v (growth c .v 5 unassigned) = false ∧ c.trap.inHandler = false ∧
      (strOf c .v).fifo ≠ [] ∧ ¬∃ rest, Finds c .v false rest := by
  refine ⟨?_, ?_, ?_⟩
  · obtain ⟨s1, h⟩ := fetches_of (s := placedAs unassigned .c fun c => { c with strV := { c.strV with fifo := List.replicate 64 0 } }) (core := 0)
      (slot := 0) (e := .c) (tag := 5) (w := unassigned) (by decide +kernel)
    exact ⟨_, s1, _, h, by decide +kernel, rfl, by decide, (by decide +kernel)⟩
  · obtain ⟨s1, h⟩ := fetches_of (s := placedAs unassigned .c starving) (core := 0) (slot := 0) (e := .c) (tag := 5)
      (w := unassigned) (by decide +kernel)
    exact ⟨_, s1, _, h, by decide +kernel, fun f => absurd f.2.2.2.2 (by decide +kernel), by decide +kernel, (by decide +kernel), by decide,
      by decide +kernel⟩
  · obtain ⟨s1, h⟩ := fetches_of (s := placedAs unassigned .v outOfStep) (core := 0) (slot := 0) (e := .v) (tag := 5) (w := unassigned) (by decide +kernel)
    have hf : (strOf ((crewAt (placedAs unassigned .v outOfStep) 0 0).getD tc) .v).fifo = [strayOutcome] := by decide +kernel
    refine ⟨_, s1, _, h, by decide +kernel, (by decide +kernel), by rw [hf]; decide, ?_⟩
    rintro ⟨rest, x, hx, hk⟩
    rw [hf] at hx
    obtain ⟨rfl, rfl⟩ := List.cons.inj hx
    exact absurd hk.1 (by decide +kernel)

/-- A word of profile F at the first core of a Heather die, of a launch that may migrate and of one that may not. -/
def rmulWord : Nat := parcels [0x40401081, 0x05000140, 0x00001800]
def heather (flags : BitVec 16) : State :=
  let s := State.reset.withFetchWord 96 rmulWord
  { s with agenda := [.stream 32 0 .v], crews := [(64, { (crewAt s 0 0).getD tc with flags := flags })] }
theorem test_meets_StepSkipsOrFaults_profile : ∀ still : Bool, ∃ s s1 c i, Fetches s 32 0 .v c 2 rmulWord s1 ∧
    slipBlocked c .v (growth c .v 2 rmulWord) = false ∧ decode rmulWord = .ok i ∧ footprintOk c i = true ∧ profileF i = true ∧
    isSaffron 32 = false ∧ isNoMig c = still := by
  intro still
  obtain ⟨s1, h⟩ := fetches_of (s := heather (if still then 16 else 0)) (core := 32) (slot := 0) (e := .v) (tag := 2) (w := rmulWord)
    (by cases still <;> decide +kernel)
  exact ⟨_, s1, _, .rmul ⟨false, 0, 8, 2, 1, 5 * 64, 5 * 64, 6 * 64, 0⟩, h, by cases still <;> decide +kernel, by rfl, by cases still <;> decide +kernel,
    by decide, by decide, by cases still <;> decide +kernel⟩

/-- A stream that is served a part of its instruction. -/
theorem test_part_is_offered : ∃ (s : State) (rest : List Activity), s.agenda = .part 0 0 .m 3 :: rest ∧ Offers (.part 0 0 .m 3) 0 0 .m (some 3) ∧
    hasTurn { s with agenda := rest } 0 0 .m = true :=
  ⟨{ pk tc with agenda := [.part 0 0 .m 3] }, [], rfl, .inr ⟨3, rfl, rfl⟩, by decide +kernel⟩

theorem test_meets_StepRunsEvents : (∃ (s : State) (i : Instr) (a : EvArgs) (rest : List Activity),
      s.agenda = .event i a :: rest ∧ i.isWord = false ∧ ActsIn s.power i ∧ ∃ t, exec i { s with agenda := rest, ev := a } = .next t) ∧
    (∃ (s : State) (i : Instr) (a : EvArgs) (rest : List Activity), s.agenda = .event i a :: rest ∧ i.isWord = false ∧ ¬ActsIn s.power i) ∧
    ∃ (s : State) (n : Nat) (rest : List Activity), s.agenda = .tick n :: rest ∧ s.power = .run ∧ 0 < n :=
  ⟨⟨{ pk tc with agenda := [.event .scrubHoldEnd {}] }, .scrubHoldEnd, {}, [], rfl, rfl, .run, exists_next (by decide +kernel)⟩,
   ⟨{ pk tc with agenda := [.event .scrubHoldEnd {}], power := .retention }, .scrubHoldEnd, {}, [], rfl, rfl, by rintro ⟨⟩⟩,
   { pk tc with agenda := [.tick 7] }, 7, [], rfl, rfl, by decide⟩


theorem runs_at {c : Crew} {e f : Eng} (h : active c f = true) : Runs (at_ c e) f c := ⟨rfl, h⟩

theorem test_meets_RegistersReadBack : ∃ (e o : Eng) (d r : BitVec 5), (e = .c ∨ e = .a) ∧ (o = .c ∨ o = .a) ∧ d ≠ 0 ∧ d = r ∧
    sRead (sWrite tc e d 7) o r = if e = o ∧ d = r then 7 else 0 :=
  ⟨.a, .a, 31, 31, by decide +kernel⟩

theorem test_meets_AluResult : ∃ (s : State) (c : Crew) (i : Instr) (f : ScalarForm), AluForm c i f ∧ Runs s f.eng c ∧
    Enabled c f.eng f.inv f.grd ∧ f.val = 0x8000_0000_0000_0000 :=
  ⟨_, withC (withC tc 1 (2 ^ 63 - 1)) 2 1, .add 0 0 0 3 1 2, _, .add, runs_at (e := .c) (by decide +kernel), (by decide +kernel), by decide +kernel⟩

theorem test_meets_WideAndImmediateResults :
    (∃ (s : State) (c : Crew) (i : Instr) (f : ScalarForm), WideForm c i f ∧ Runs s f.eng c ∧ Enabled c f.eng f.inv f.grd ∧
      f.val = BitVec.allOnes 64 ∧ f.flags = flIDZ) ∧
    (∃ (s : State) (c : Crew) (i : Instr) (f : ScalarForm), ImmediateForm c i f ∧ Runs s f.eng c ∧ Enabled c f.eng f.inv f.grd ∧
      f.val = BitVec.ofInt 64 (-64)) :=
  ⟨⟨_, tc, .div 1 0 0 3 1 2 0, _, .div (.inl rfl), runs_at (e := .a) (by decide +kernel), by decide +kernel⟩,
   ⟨_, tc, .addi 1 0 0 3 1 0x40, _, .addi, runs_at (e := .a) (by decide +kernel), (by decide +kernel)⟩⟩

theorem test_meets_ScalarFrame : ∃ (s t : State) (c : Crew) (i : Instr) (f : ScalarForm), WritesOne c i f ∧ Runs s f.eng c ∧
    exec i s = .next t :=
  ⟨at_ tc .c, _, tc, .add 0 0 0 3 1 2, _, .inl .add, runs_at (by decide +kernel), rfl⟩

theorem test_meets_ComparesAndFalseGuards :
    (∃ (s : State) (c : Crew) (t n : BitVec 1) (g : BitVec 4), Runs s (engOf t) c ∧ Enabled c (engOf t) n g) ∧
    (∃ (s : State) (c : Crew) (i : Instr) (e : Eng) (n : BitVec 1) (g : BitVec 4), Guarded i e n g ∧ Runs s e c ∧ Disabled c e n g) ∧
    ∃ (s : State) (c : Crew) (i j : Instr) (e : Eng) (n : BitVec 1) (g : BitVec 4), Guarded i e n g ∧ Runs s e c ∧ Disabled c e n g ∧ e = .c ∧
      Privileged j n g ∧ c.flags.getLsbD 0 = true ∧ c.trap.inHandler = true :=
  ⟨⟨at_ tc .a, tc, 1, 0, 0, runs_at (by decide +kernel), by decide +kernel⟩,
   ⟨at_ tc .a, tc, _, .a, 1, 0, .kst (c := 1) (a := 2) (b := 3), runs_at (by decide +kernel), by decide +kernel⟩,
   ⟨at_ (handling tc) .c, _, .ret 1 0, .pquiesce 1 0 5, .c, 1, 0, .ret, runs_at (by decide +kernel), (by decide +kernel), rfl, .pquiesce, by decide +kernel⟩⟩

/-- q0 and q2 of an A stream: a popped entry, one still pending, one that bears a failure, an empty and a full queue, and a
crew whose C does not run. -/
theorem test_meets_QueueTransfers :
    (∃ (s : State) (c : Crew) (q : BitVec 4), Runs s .a c ∧ Enabled c .a 0 0 ∧ peerActive c .a q.toNat = true ∧ queueOf c q.toNat = []) ∧
    (∃ (s : State) (c : Crew) (q : BitVec 4) (x : QEntry) (rest : List QEntry), Runs s .a c ∧ peerActive c .a q.toNat = true ∧
      queueOf c q.toNat = x :: rest ∧ x.pending = false ∧ x.fail = 0) ∧
    (∃ (s : State) (c : Crew) (q : BitVec 4) (x : QEntry) (rest : List QEntry), Runs s .a c ∧ peerActive c .a q.toNat = true ∧
      queueOf c q.toNat = x :: rest ∧ x.pending = true) ∧
    (∃ (s : State) (c : Crew) (q : BitVec 4) (x : QEntry) (rest : List QEntry), Runs s .c c ∧ peerActive c .c q.toNat = true ∧
      queueOf c q.toNat = x :: rest ∧ x.pending = false ∧ x.fail = 0x18) ∧
    (∃ (s : State) (c : Crew) (q : BitVec 4), Runs s .c c ∧ peerActive c .c q.toNat = true ∧
      (queueOf c q.toNat).length + 1 = qDepth q.toNat) ∧
    (∃ (s : State) (c : Crew) (q : BitVec 4), Runs s .c c ∧ peerActive c .c q.toNat = true ∧
      qDepth q.toNat = (queueOf c q.toNat).length) ∧
    (∃ (s : State) (c : Crew), Runs s .c c ∧ peerActive c .c 9 = true ∧ (queueOf c 9).length = 31) ∧
    (∃ (s : State) (c : Crew), Runs s .c c ∧ peerActive c .c 9 = true ∧ (queueOf c 9).length = 32) ∧
    (∃ (s : State) (c : Crew) (q : BitVec 4), Runs s .c c ∧ Enabled c .c 0 0 ∧ peerActive c .c q.toNat = false) ∧
    ∃ (s : State) (c : Crew), Runs s .c c ∧ Enabled c .c 0 0 ∧ peerActive c .c 9 = false :=
  ⟨⟨at_ tc .a, tc, 3, ⟨rfl, by decide +kernel⟩, (by decide +kernel)⟩,
   ⟨_, holds tc 3 [entry 5, entry 6], 3, _, _, runs_at (e := .a) (by decide +kernel), by decide +kernel, rfl, rfl, rfl⟩,
   ⟨_, holds tc 3 [{ entry 5 with pending := true }], 3, _, _, runs_at (e := .a) (by decide +kernel), by decide +kernel, rfl, rfl⟩,
   ⟨_, holds tc 2 [{ entry 5 with fail := 0x18 }], 2, _, _, runs_at (e := .c) (by decide +kernel), (by decide +kernel), rfl, rfl, rfl⟩,
   ⟨_, holds tc 3 (List.replicate 31 (entry 5)), 3, runs_at (e := .c) (by decide +kernel), by decide +kernel⟩,
   ⟨_, holds tc 3 (List.replicate 32 (entry 5)), 3, runs_at (e := .c) (by decide +kernel), by decide +kernel⟩,
   ⟨_, holds tc 9 (List.replicate 31 (entry 5)), runs_at (e := .c) (by decide +kernel), (by decide +kernel)⟩,
   ⟨_, holds tc 9 (List.replicate 32 (entry 5)), runs_at (e := .c) (by decide +kernel), by decide +kernel⟩,
   ⟨_, { tc with eng := 2 }, 3, runs_at (e := .c) (by decide +kernel), by decide +kernel⟩,
   ⟨_, { tc with eng := 3 }, runs_at (e := .c) (by decide +kernel), (by decide +kernel)⟩⟩

def opOfCounter (k : Nat) (fault : Nat) : EngOp :=
  { fresh (at_ tc .a) tc 2 (BitVec.ofNat 64 (k * 2 ^ 16)) 0 0 0 0 false with fell := true, fault := fault }

theorem test_meets_CountersAndWaits :
    (∃ (s : State) (c : Crew) (t n : BitVec 1) (g : BitVec 4), Runs s (engOf t) c ∧ Enabled c (engOf t) n g ∧ isShapeInd c = false ∧ t = 0) ∧
    (∃ (s : State) (c : Crew) (t n : BitVec 1) (g : BitVec 4), Runs s (engOf t) c ∧ Enabled c (engOf t) n g ∧ isShapeInd c = true) ∧
    (∃ (s : State) (w : Crew) (t n : BitVec 1) (g : BitVec 4) (e : BitVec 2) (c : BitVec 3) (k : BitVec 10),
      Runs s (engOf t) w ∧ Enabled w (engOf t) n g ∧ k.toNat < dRead w (waitsOn t e) c.toNat) ∧
    (∃ (s : State) (w : Crew) (t n : BitVec 1) (g : BitVec 4) (e : BitVec 2) (c : BitVec 3) (k : BitVec 10),
      Runs s (engOf t) w ∧ Enabled w (engOf t) n g ∧ dRead w (waitsOn t e) c.toNat = k.toNat ∧ waitsOn t e ≠ .a) ∧
    (∃ (s : State) (w : Crew) (t n : BitVec 1) (g : BitVec 4) (e : BitVec 2) (c : BitVec 3) (k : BitVec 10),
      Runs s (engOf t) w ∧ Enabled w (engOf t) n g ∧ dRead w (waitsOn t e) c.toNat ≤ k.toNat ∧ waitsOn t e = .a ∧
        (∃ o ∈ w.ops, covered c.toNat o = true) ∧ ∀ o ∈ w.ops, covered c.toNat o = true → o.fault = 0) ∧
    (∃ (s : State) (w : Crew) (t n : BitVec 1) (g : BitVec 4) (e : BitVec 2) (c : BitVec 3) (k : BitVec 10)
        (before : List EngOp) (o : EngOp) (after : List EngOp),
      Runs s (engOf t) w ∧ Enabled w (engOf t) n g ∧ dRead w (waitsOn t e) c.toNat ≤ k.toNat ∧ waitsOn t e = .a ∧
        w.ops = before ++ o :: after ∧ (∀ x ∈ before, covered c.toNat x = true → x.fault = 0) ∧ covered c.toNat o = true ∧ o.fault ≠ 0) :=
  ⟨⟨at_ tc .c, tc, 0, 0, 0, ⟨rfl, by decide +kernel⟩, by decide +kernel⟩,
   ⟨_, { tc with flags := 32 }, 1, 0, 0, runs_at (e := .a) (by decide +kernel), (by decide +kernel)⟩,
   ⟨_, dWrite tc .m 2 5, 0, 0, 0, 2, 2, 4, runs_at (e := .c) (by decide +kernel), by decide +kernel⟩,
   ⟨_, dWrite tc .m 2 5, 0, 0, 0, 2, 2, 5, runs_at (e := .c) (by decide +kernel), by decide +kernel⟩,
   ⟨_, { tc with ops := [opOfCounter 2 0, opOfCounter 3 0x11] }, 1, 0, 0, 0, 2, 0, runs_at (e := .a) (by decide +kernel), (by decide +kernel)⟩,
   ⟨_, { tc with ops := [opOfCounter 2 0, opOfCounter 2 0x11] }, 1, 0, 0, 0, 2, 0, [opOfCounter 2 0], _, [],
     runs_at (e := .a) (by decide +kernel), by decide +kernel, by decide +kernel, rfl, rfl, (by decide +kernel), by decide +kernel, by decide +kernel⟩⟩

theorem test_meets_CallsAndReturns :
    (∃ (s : State) (c : Crew), Runs s .c c ∧ Enabled c .c 0 0 ∧ c.cd = 0) ∧ (∃ (s : State) (c : Crew), Runs s .c c ∧ Enabled c .c 0 0 ∧ c.cd = 254) ∧
    (∃ (s : State) (c : Crew), Runs s .c c ∧ Enabled c .c 0 0 ∧ c.cd = 255) ∧ ∃ (s : State) (c : Crew), Runs s .c c ∧ Disabled c .c 1 0 :=
  ⟨⟨at_ tc .c, tc, runs_at (by decide +kernel), (by decide +kernel)⟩,
   ⟨_, { tc with cd := 254 }, runs_at (e := .c) (by decide +kernel), by decide +kernel⟩,
   ⟨_, { tc with cd := 255 }, runs_at (e := .c) (by decide +kernel), by decide +kernel⟩,
   ⟨at_ tc .c, tc, runs_at (by decide +kernel), (by decide +kernel)⟩⟩


/-- A's outcome FIFO holding these entries. -/
def fifoA (c : Crew) (l : List Word) : Crew := { c with strA := { c.strA with fifo := l } }
def fifoV (c : Crew) (l : List Word) : Crew := { c with strV := { c.strV with fifo := l } }

theorem decides_tc : Decides tc :=
  ⟨rfl, rfl, by intro e; cases e <;> decide +kernel⟩

theorem test_meets_BranchesAreJoint :
    (∃ (s : State) (c c' : Crew) (e : Eng) (taken : Bool), Runs s e c ∧ s.cur.eng = e ∧ e = .c ∧ Outcome c e (decide (Enabled c .c 0 0)) taken c') ∧
    (∃ (s : State) (c c' : Crew) (e : Eng) (taken : Bool), Runs s e c ∧ s.cur.eng = e ∧ e ≠ .c ∧ taken = true ∧
      Outcome c e (decide (Enabled c .c 0 0)) taken c') ∧
    (∃ (s : State) (c : Crew), Runs s .c c ∧ s.cur.eng = .c ∧ Decides c ∧ Disabled c .c 1 0) ∧
    ∃ (s : State) (c : Crew), Runs s .c c ∧ s.cur.eng = .c ∧ Decides c ∧ Enabled c .c 0 0 ∧ sRead c .c 30 = 0 :=
  ⟨⟨at_ tc .c, tc, _, .c, true, runs_at (by decide +kernel), rfl, rfl, .inl ⟨rfl, decides_tc, by decide +kernel, rfl⟩⟩,
   ⟨at_ (fifoA tc [jointEntry 0 true]) .a, _, _, .a, true, runs_at (by decide +kernel), rfl, by decide, rfl,
     .inr ⟨by decide, rfl, [], ⟨_, rfl, by decide +kernel, (by decide +kernel)⟩, rfl⟩⟩,
   ⟨at_ tc .c, tc, runs_at (by decide +kernel), rfl, decides_tc, by decide +kernel⟩,
   ⟨at_ tc .c, tc, runs_at (by decide +kernel), rfl, decides_tc, by decide +kernel⟩⟩

theorem test_meets_OutcomesAndTheirWaits :
    (JointWord (.phase 0 0 0) ∧ JointWord (.yield 0 0 0) ∧ JointWord (.notify 0 0) ∧ JointWord (.notifyCont 0 0)) ∧ (∃ k : Nat, k < 8 ∧ k = 7) ∧ (∃ es : List Eng, es.Nodup ∧ .v ∈ es ∧ active tc .v = true) ∧
    (∃ (s : State) (c : Crew) (e : Eng), Runs s e c ∧ s.cur.eng = e ∧ e = .c ∧ c.trap.inHandler = false ∧ c.cd = 0 ∧
      ∃ o, o ≠ .c ∧ active c o = true ∧ 64 ≤ (strOf c o).fifo.length) ∧
    (∃ (s : State) (c : Crew) (e : Eng), Runs s e c ∧ s.cur.eng = e ∧ e ≠ .c ∧ c.trap.inHandler = false ∧ (strOf c e).fifo = []) ∧
    (∃ (s : State) (c : Crew) (e : Eng) (x : Word) (rest : List Word), Runs s e c ∧ s.cur.eng = e ∧ e ≠ .c ∧
      c.trap.inHandler = false ∧ (strOf c e).fifo = x :: rest ∧ entryPc x = pcOf c e % 2 ^ 32 ∧ 2 ≤ entryKind x) ∧
    (∃ (s : State) (c : Crew) (e : Eng), Runs s e c ∧ s.cur.eng = e ∧ c.trap.inHandler = true) ∧
    ∃ (s : State) (c : Crew) (e : Eng), Runs s e c ∧ s.cur.eng = e ∧ e = .c ∧ c.cd ≠ 0 ∧ c.trap.inHandler = false :=
  ⟨⟨.phase, .yield, .notify, .notifyCont⟩, ⟨7, by decide⟩, ⟨[.a, .v, .m, .s], (by decide +kernel)⟩,
   ⟨at_ (fifoA tc (List.replicate 64 0)) .c, _, .c, runs_at (by decide +kernel), rfl, rfl, rfl, rfl, .a, by decide +kernel⟩,
   ⟨at_ tc .a, tc, .a, runs_at (by decide +kernel), rfl, by decide +kernel⟩,
   ⟨at_ (fifoA tc [countEntry 0 false 3 9]) .a, _, .a, _, _, runs_at (by decide +kernel), rfl, by decide, rfl, rfl, (by decide +kernel)⟩,
   ⟨at_ (handling tc) .a, _, .a, runs_at (by decide +kernel), rfl, rfl⟩,
   ⟨at_ (inCall tc) .c, _, .c, runs_at (by decide +kernel), rfl, rfl, by decide, rfl⟩⟩

/-- A launch with one phase entry, whose two sets overlap in the second form, and one yield entry. -/
def tabled (phase : Row) : Launch := { tl with phases := [phase], yields := [0] }
def pkT (c : Crew) (phase : Row) (e : Eng) : State := { pk c (tabled phase) with cur := ⟨0, 0, e⟩ }
def det (c : Crew) : Crew := { c with flags := c.flags ||| 2 }
def asked (c : Crew) : Crew := { c with ctl := { c.ctl with preq := true } }

theorem test_meets_MeetingsPhasesYields :
    (∃ (s : State) (c c' : Crew) (e : Eng) (i : Instr) (st : StreamStatus), Meets i 0 0 st ∧ Runs s e c ∧ s.cur.eng = e ∧
      Outcome c e (decide (Enabled c .c 0 0)) true c') ∧
    (∃ (s : State) (c c' : Crew) (x : BitVec 12) (l : Launch), Runs s .c c ∧ s.cur.eng = .c ∧ launchById s c.launch = some l ∧
      x.toNat + 1 = l.phases.length ∧ isDet c = true ∧ phaseOverlap (l.phases.getD x.toNat 0) = false ∧
      Outcome c .c (decide (Enabled c .c 0 0)) true c') ∧
    (∃ (s : State) (c c' : Crew) (x : BitVec 12) (l : Launch), Runs s .c c ∧ s.cur.eng = .c ∧ launchById s c.launch = some l ∧
      x.toNat < l.yields.length ∧ c.ctl.preq = true ∧ Outcome c .c (decide (Enabled c .c 0 0) && c.ctl.preq) true c') ∧
    (∃ (s : State) (c : Crew) (x : BitVec 12) (l : Launch), Runs s .c c ∧ s.cur.eng = .c ∧ launchById s c.launch = some l ∧
      Decides c ∧ Enabled c .c 0 0 ∧ l.phases.length = x.toNat ∧ l.yields.length = x.toNat) ∧
    ∃ (s : State) (c : Crew) (x : BitVec 12) (l : Launch), Runs s .c c ∧ s.cur.eng = .c ∧ launchById s c.launch = some l ∧
      Decides c ∧ Enabled c .c 0 0 ∧ x.toNat < l.phases.length ∧ isDet c = true ∧ phaseOverlap (l.phases.getD x.toNat 0) = true :=
  ⟨⟨at_ tc .c, tc, _, .c, .cbar 0 0, _, .cbar, runs_at (by decide +kernel), rfl, .inl ⟨rfl, decides_tc, by decide +kernel, rfl⟩⟩,
   ⟨pkT (det tc) 0 .c, det tc, _, 0, tabled 0, ⟨rfl, by decide +kernel⟩, rfl, rfl, (by decide +kernel), by decide +kernel, by decide +kernel,
     .inl ⟨rfl, ⟨rfl, rfl, by intro e; cases e <;> decide +kernel⟩, (by decide +kernel), rfl⟩⟩,
   ⟨pkT (asked tc) 0 .c, asked tc, _, 0, tabled 0, ⟨rfl, by decide +kernel⟩, rfl, rfl, by decide +kernel, rfl,
     .inl ⟨rfl, ⟨rfl, rfl, by intro e; cases e <;> decide +kernel⟩, (by decide +kernel), rfl⟩⟩,
   ⟨pkT tc 0 .c, tc, 1, tabled 0, ⟨rfl, by decide +kernel⟩, rfl, rfl, decides_tc, by decide +kernel⟩,
   ⟨pkT (det tc) (BitVec.allOnes 512) .c, det tc, 0, tabled (BitVec.allOnes 512), ⟨rfl, (by decide +kernel)⟩, rfl, rfl,
     ⟨rfl, rfl, by intro e; cases e <;> decide +kernel⟩, by decide +kernel⟩⟩

def allAt (c : Crew) (st : StreamStatus) : Crew :=
  { c with strC := { c.strC with status := st }, strA := { c.strA with status := st }, strV := { c.strV with status := st },
           strM := { c.strM with status := st }, strS := { c.strS with status := st } }

/-- The debugger holds the crew. -/
def halted (c : Crew) : Crew := { c with ctl := { c.ctl with dbgstat := 2 } }

theorem test_meets_StreamsMeet :
    (∃ (s : State) (core slot : Nat) (c : Crew), crewAt s core slot = some c ∧
      (∃ e, active c e = true ∧ (strOf c e).status = .running) ∧ active c .c = true) ∧
    (∃ (s : State) (core slot : Nat) (c : Crew), crewAt s core slot = some c ∧ c.ctl.dbgstat.getLsbD 1 = true) ∧
    ∃ (s : State) (core slot : Nat) (c : Crew), crewAt s core slot = some c ∧ active c .c = true ∧ (strOf c .c).status = .joint 0 0 ∧
      (∀ e, active c e = true → ∃ a, (strOf c e).status = .joint 0 a) ∧ c.trap.inHandler = false ∧ c.ctl.dbgstat.getLsbD 1 = false :=
  ⟨⟨pk tc, 0, 0, tc, rfl, ⟨.c, by decide +kernel⟩, (by decide +kernel)⟩,
   ⟨pk (halted (allAt tc (.joint 0 0))), 0, 0, _, rfl, rfl⟩,
   ⟨pk (allAt tc (.joint 0 0)), 0, 0, _, rfl, by decide +kernel, rfl, by intro e _; cases e <;> exact ⟨0, rfl⟩, rfl, by decide +kernel⟩⟩

theorem test_meets_ValidCounts :
    (∃ (s : State) (c : Crew), Runs s s.cur.eng c ∧ s.cur.eng = .c ∧ c.cd = 0 ∧ c.trap.inHandler = false ∧
      ∀ e, e = .v ∨ e = .m ∨ e = .s → active c e = true → (strOf c e).fifo.length < 64) ∧
    (∃ (s : State) (c : Crew), Runs s s.cur.eng c ∧ s.cur.eng = .a) ∧
    (∃ (s : State) (c : Crew) (e : Eng) (x : Word) (rest : List Word), Runs s s.cur.eng c ∧ s.cur.eng = e ∧ e = .v ∧
      (strOf c e).fifo = x :: rest ∧ entryPc x = pcOf c e % 2 ^ 32 ∧ entryKind x = 2) ∧
    ∃ (s : State) (c : Crew), Runs s s.cur.eng c ∧ s.cur.eng = .c ∧ c.cd ≠ 0 :=
  ⟨⟨at_ tc .c, tc, runs_at (by decide +kernel), rfl, rfl, rfl, by intro e; cases e <;> decide +kernel⟩,
   ⟨at_ tc .a, tc, runs_at (by decide +kernel), rfl⟩,
   ⟨at_ (fifoV tc [countEntry 0 true 7 0xFFFF]) .v, _, .v, _, _, runs_at (by decide +kernel), rfl, rfl, rfl, (by decide +kernel)⟩,
   ⟨at_ (inCall tc) .c, _, runs_at (by decide +kernel), rfl, by decide⟩⟩


/-- Table entry of object `obj` of tenant 0, extent list of one entry at 0x1000 + 64 · obj: `n` frames from frame `fr`, order
kind release (R328). -/
def entryMem (m : Memory) (obj rights fr n : Nat) : Memory :=
  memWriteN (memWriteN (memWriteN (memWriteN m (32 * obj) (2 ^ 63 + 2 ^ 60 + rights * 2 ^ 50 + n * 16384) 8) (32 * obj + 8) 1 8)
    (32 * obj + 16) (2 ^ 56 + 0x1000 + 64 * obj) 8) (0x1000 + 64 * obj) (n * 2 ^ 48 + fr * 0x4000) 8

/-- Object 1 may be read and executed, object 2 read and written, with atomics and signals; object 3 is 84 frames long and
may be read and written. All lie in frames of tenant 0. -/
def objectBytes : Memory :=
  [(33, 0x40), (38, 0x14), (39, 0x90), (40, 0x01), (48, 0x40), (49, 0x10), (55, 0x01), (65, 0x40), (70, 0xEC), (71, 0x93), (72, 0x01), (80, 0x80),
   (81, 0x10), (87, 0x01), (98, 0x15), (102, 0x0C), (103, 0x90), (104, 0x01), (112, 0xC0), (113, 0x10), (119, 0x01), (4161, 0x40), (4166, 0x01),
   (4225, 0x80), (4230, 0x01), (4290, 0x02), (4294, 0x54)]
theorem test_objectBytes : objectBytes = entryMem (entryMem (entryMem [] 1 5 1 1) 2 0xFB 2 1) 3 3 8 84 := by decide +kernel
def withObjects (s : State) : State :=
  regSet { s with mem := objectBytes, xlat := { s.xlat with frames := (List.range 384).map fun b => (b / 32 * 2 ^ 24 + b % 32, 1) } } 0 rOTBASE (BitVec.ofNat 64 (8 * 2 ^ 40))

theorem test_objects : (objOf? (withObjects (pk tc)) 0 1).isSome = true ∧ isExtentObj (withObjects (pk tc)) 0 2 = true ∧
    (extentKey (withObjects (pk tc)) 0 3 (84 * 16384 - 64)).isSome = true ∧ (extentKey (withObjects (pk tc)) 0 3 (84 * 16384)).isSome = false ∧
    objOf? (withObjects (pk tc)) 0 4 = none := by decide +kernel

theorem exists_some {α : Type} {o : Option α} (p : α → Bool) (h : (o.any p) = true) : ∃ x, o = some x ∧ p x = true := by
  cases o with
  | none => simp at h
  | some x => exact ⟨x, rfl, by simpa using h⟩

theorem test_meets_SystemRegisters :
    (∃ (s : State) (c : Crew), Runs s .c c ∧ Enabled c .c 0 0 ∧ c.trap.inHandler = false ∧ c.flags.getLsbD 0 = true ∧
      SysValue c 0x005 4 ∧ SysValue c 0x201 c.ctl.dbgstat) ∧
    (∃ (s : State) (c : Crew), Runs s .c c ∧ Disabled c .c 1 0 ∧ SysValue c 0x003 4096) ∧
    (∃ (s : State) (c : Crew), Runs s .c c ∧ Enabled c .c 0 0 ∧ c.trap.inHandler = true ∧ SysValue c 0x103 c.trap.tinfo) ∧
    (∃ (s : State) (c : Crew), Runs s .c c ∧ SysClosed c 0x006) ∧ (∃ (s : State) (c : Crew), Runs s .c c ∧ SysClosed c 0x103) ∧
    ∃ (s : State) (c : Crew), Runs s .c c ∧ SysClosed c 0x180 :=
  ⟨⟨_, tc, runs_at (e := .c) (by decide +kernel), by decide +kernel, rfl, by decide +kernel, .mode, .dbgstat (by decide +kernel)⟩,
   ⟨_, tc, runs_at (e := .c) (by decide +kernel), (by decide +kernel), .slipw⟩,
   ⟨_, handling tc, runs_at (e := .c) (by decide +kernel), by decide +kernel, rfl, .tinfo (.inl rfl)⟩,
   ⟨_, tc, runs_at (e := .c) (by decide +kernel), .inl (by rintro ⟨x, h⟩; cases h)⟩,
   ⟨_, plain tc, runs_at (e := .c) (by decide +kernel), .inr (.inl ⟨by decide, by decide, by unfold HandlerOpen; decide +kernel⟩)⟩,
   ⟨_, plain tc, runs_at (e := .c) (by decide +kernel), .inr (.inr ⟨by decide, by decide +kernel⟩)⟩⟩

theorem test_meets_PrivilegeIsChecked : ∃ (s : State) (c : Crew) (i : Instr), Privileged i 0 0 ∧ Runs s .c c ∧ c.flags.getLsbD 0 = false :=
  ⟨_, plain tc, .suspend 0 0 1, .suspend, runs_at (e := .c) (by decide +kernel), (by decide +kernel)⟩

/-- A handler of tenant 0 for a cause, in object 1 at 0x40. -/
def handled (s : State) (cause : Nat) : State := { s with xlat := { s.xlat with handlers := [⟨0, cause, 1, 0x40, 2⟩] } }
def badQueue : FaultInfo := { cause := 0x0B, eng := .v, pc := 0x20, addr := 7, info := 0, swc := 0, engop := false }

theorem test_meets_TakingATrap : ∃ (s : State) (c : Crew) (f : FaultInfo) (h : Handler), crewAt s 0 0 = some c ∧ c.trap.inHandler = false ∧
    handleable f.cause = true ∧ handlerFor s c.tenant f.cause = some h ∧ NonePending c f.eng :=
  ⟨handled (withObjects (pk tc)) 0x0B, tc, badQueue, _, by decide +kernel, rfl, by decide +kernel, rfl, by intro o g _ _ h; cases o <;> cases h⟩

/-- C has met the migration trap. -/
def leaving (c : Crew) : Crew := { c with strC := { c.strC with status := .faulted { badQueue with cause := 0x10, eng := .c } } }

theorem test_meets_FaultsEndCrews :
    (∃ c : Crew, c.trap.inHandler = true) ∧
    (∃ (s : State) (c : Crew) (f : FaultInfo), c.trap.inHandler = false ∧ f.cause ≠ 0x10 ∧ handleable f.cause = true ∧
      handlerFor s c.tenant f.cause = none ∧ NonePending c f.eng) ∧
    (∃ (c : Crew) (f : FaultInfo), c.trap.inHandler = false ∧ f.cause ≠ 0x10 ∧ handleable f.cause = false ∧ NonePending c f.eng) ∧
    (∃ (c : Crew) (f : FaultInfo), c.trap.inHandler = false ∧ f.cause = 0x10) ∧
    ∃ (c : Crew) (f : FaultInfo) (e : Eng) (g : FaultInfo), c.trap.inHandler = false ∧ f.cause ≠ 0x10 ∧ active c e = true ∧ engCode e < engCode f.eng ∧
      NonePending c e ∧ (strOf c e).status = .faulted g ∧ g.cause = 0x10 :=
  ⟨⟨handling tc, rfl⟩, ⟨pk tc, tc, badQueue, rfl, by decide, by decide, rfl, by intro o g _ _ h; cases o <;> cases h⟩,
   ⟨tc, { badQueue with cause := 0x12 }, rfl, by decide, by decide, by intro o g _ _ h; cases o <;> cases h⟩,
   ⟨tc, { badQueue with cause := 0x10 }, rfl, rfl⟩,
   ⟨leaving tc, badQueue, .c, _, rfl, by decide, (by decide +kernel), by decide, by intro o g _ h; cases o <;> exact absurd h (by decide), rfl, rfl⟩⟩

def trapped (c : Crew) (x : Word) : Crew := { handling c with trap := { (handling c).trap with tcause := x } }

theorem test_meets_TrapInstructions :
    (∃ (s : State) (c : Crew), Runs s .c c ∧ Enabled c .c 0 0 ∧ c.trap.inHandler = false) ∧
    (∃ (s : State) (c : Crew), Runs s .c c ∧ c.trap.inHandler = true ∧ c.trap.tcause.getLsbD 30 = false) ∧
    (∃ (s : State) (c : Crew), Runs s .c c ∧ c.trap.inHandler = true ∧ c.trap.tcause.getLsbD 30 = true ∧ fld c.trap.tcause 0 8 = 0x15) ∧
    (∃ (s : State) (c : Crew), Runs s .c c ∧ Enabled c .c 0 0 ∧ c.trap.inHandler = true ∧ c.trap.tcause.getLsbD 30 = true ∧
      fld c.trap.tcause 0 8 ≠ 0x15 ∧ fld c.trap.tcause 8 3 = 1) ∧
    (∃ (s : State) (c : Crew) (x y : Word), Runs s .c c ∧ c.flags.getLsbD 0 = true ∧ sRead c .c 1 = x ∧ sRead c .c 2 = y ∧
      fld y 56 8 = 0 ∧ fld x 24 40 % 4 = 0 ∧ (∀ i, i < 32 → (fld y 0 32).testBit i = true → handleable i = true) ∧ fld y 0 32 ≠ 0 ∧
      (∃ e, objOf? s c.tenant (fld x 0 24) = some e ∧ (hasRights e.rights rightX && !e.paged) = true) ∧
      ∃ e, objOf? s c.tenant (fld y 32 24) = some e ∧ (hasRights e.rights (rightR + rightW) && !e.paged) = true) :=
  ⟨⟨at_ tc .c, tc, runs_at (by decide +kernel), by decide +kernel, rfl⟩,
   ⟨_, trapped tc 0x20B, runs_at (e := .c) (by decide +kernel), rfl, by decide⟩,
   ⟨_, trapped tc (2 ^ 30 + 0x15), runs_at (e := .c) (by decide +kernel), rfl, by decide⟩,
   ⟨_, trapped tc (2 ^ 30 + 0x103), runs_at (e := .c) (by decide +kernel), by decide +kernel, rfl, by decide⟩,
   ⟨withObjects (at_ (withC (withC tc 1 (1 + 0x40 * 2 ^ 24)) 2 (2 * 2 ^ 32 + 2 ^ 0x0B)) .c), withC (withC tc 1 (1 + 0x40 * 2 ^ 24)) 2 (2 * 2 ^ 32 + 2 ^ 0x0B), _, _,
     ⟨(by decide +kernel), by decide +kernel⟩, by decide +kernel, rfl, rfl, (by decide +kernel), by decide +kernel, by decide +kernel, (by decide +kernel),
     exists_some _ (by decide +kernel), exists_some _ (by decide +kernel)⟩⟩

/-- A skipped instruction of every engine; of C, an X word whose entry has room, and one whose entry has none. -/
theorem test_meets_TrapInstructions_skip :
    (∀ e : Eng, ∃ (s : State) (c : Crew), Runs s .c c ∧ Enabled c .c 0 0 ∧ c.trap.inHandler = true ∧ c.trap.tcause.getLsbD 30 = true ∧
      fld c.trap.tcause 0 8 ≠ 0x15 ∧ engCode e = fld c.trap.tcause 8 3 ∧ (stoppedAt s s.cur.core c e).1 ≠ 5) ∧
    ∀ full : Bool, ∃ (s : State) (c : Crew), Runs s .c c ∧ Enabled c .c 0 0 ∧ c.trap.inHandler = true ∧ c.trap.tcause.getLsbD 30 = true ∧
      fld c.trap.tcause 0 8 ≠ 0x15 ∧ engCode .c = fld c.trap.tcause 8 3 ∧ (stoppedAt s s.cur.core c .c).1 = 5 ∧
      fifoFull c jointEngs = full := by
  refine ⟨fun e => ⟨_, trapped tc (BitVec.ofNat 64 (2 ^ 30 + 0x03 + engCode e * 2 ^ 8)), runs_at (e := .c) (by cases e <;> decide +kernel), ?_⟩, fun full =>
    ⟨placedAs unassigned .c fun c => trapped { c with strV := { c.strV with fifo := List.replicate (if full then 64 else 0) 0 } } (2 ^ 30 + 0x03),
      trapped { placedCrew unassigned with strV := { (placedCrew unassigned).strV with fifo := List.replicate (if full then 64 else 0) 0 } } (2 ^ 30 + 0x03),
      ⟨rfl, by cases full <;> decide +kernel⟩, ?_⟩⟩
  · cases e <;> decide +kernel
  · cases full <;> decide +kernel

/-- SWR of DBGCTL: one that steps an engine, and one that does not. -/
theorem test_meets_SystemRegisters_debug : ∀ step : Bool, ∃ (s : State) (c : Crew), Runs s .c c ∧ Enabled c .c 0 0 ∧ c.flags.getLsbD 0 = true ∧
    (step = true ↔ (sRead c .c 1).getLsbD 2 = false ∧ (sRead c .c 1).getLsbD 3 = true ∧ fld (sRead c .c 1) 5 3 < 5) := by
  intro step
  refine ⟨_, withC tc 1 (if step then 0x48 else 0xE8), runs_at (e := .c) (by cases step <;> decide +kernel), ?_⟩
  cases step <;> decide +kernel

def rp (s : State) (c : Crew) : Prop := RunsPrivileged s c 0 0
theorem rp_of {s : State} {c : Crew} (h : crewAt s s.cur.core s.cur.slot = some c) (h2 : active c .c = true)
    (h3 : c.flags.getLsbD 0 = true) : rp s c := ⟨⟨h, h2⟩, h3, by unfold Enabled pRead; simp⟩

/-- C's s1 and s2 set for a command. -/
def args (x y : Word) : Crew := withC (withC tc 1 x) 2 y
def objAt (x y : Word) : State := withObjects (at_ (args x y) .c)

/-- The tables of tenant 0 lie behind a second stage that maps nothing. -/
def unmapped (s : State) : State := regSet s 0 (rSSROOTf 0) 0x8000_0000_0016_0000
theorem error_with {ε α : Type} {o : Except ε α} (p : ε → Bool) (h : (match o with | .error x => p x | .ok _ => false) = true) :
    ∃ x, o = .error x ∧ p x = true := by
  cases o with
  | ok => cases h
  | error x => exact ⟨x, rfl, h⟩
theorem test_meets_PartitionsAndLaunches_held : ∃ (s : State) (c : Crew) (x : Word) (f : XFail), rp s c ∧ x = sRead c .c 1 ∧ fld (sRead c .c 2) 6 58 = 0 ∧
    fld x 24 40 % 64 = 0 ∧ lookupObj s c.tenant (fld x 0 24) = .error f ∧ f.cause = 0x06 := by
  obtain ⟨f, h, hf⟩ := error_with (o := lookupObj (unmapped (objAt 2 5)) 0 2) (fun f => decide (f.cause = 0x06)) (by decide +kernel)
  exact ⟨unmapped (objAt 2 5), args 2 5, _, f, rp_of (by decide +kernel) (by decide +kernel) (by decide +kernel), rfl, by decide +kernel, by decide +kernel,
    h, of_decide_eq_true hf⟩

theorem test_meets_PartitionsAndLaunches :
    (∃ (s : State) (c : Crew) (x y : Word), rp s c ∧ x = sRead c .c 1 ∧ y = sRead c .c 2 ∧ fld y 6 58 = 0 ∧ fld x 24 40 % 64 = 0 ∧
      (∃ e, objOf? s c.tenant (fld x 0 24) = some e ∧ (!e.paged && decide (fld x 24 40 + 512 = e.size)) = true) ∧
      fld (regGet s 0 (rLQCFG (fld y 0 6))) 8 8 = c.tenant ∧ queueLoad s (fld y 0 6) < 32 ∧ s.host.cloveError = false ∧
      ∃ rows, extentRows s c.tenant (fld x 0 24) (fld x 24 40) 8 = some rows ∧ (rows.length == 8) = true) ∧
    (∃ (s : State) (c : Crew), rp s c ∧ fld (sRead c .c 1) 5 59 = 0 ∧ (sRead c .c 1).getLsbD 4 = true ∧
      (sRead c .c 1).getLsbD (s.cur.core / 64) = true ∧ s.cur.core < 256 ∧ s.cur.slot < 2) ∧
    (∃ (s : State) (c : Crew), rp s c ∧ fld (sRead c .c 1) 2 62 = 0 ∧ fld (sRead c .c 1) 0 2 = 3) ∧
    (∃ (s : State) (c : Crew), rp s c ∧ fld (sRead c .c 1) 4 60 = 0 ∧ partMask (fld (sRead c .c 1) 0 4) = true ∧
      fld (sRead c .c 2) 2 62 = 0 ∧ fld (sRead c .c 2) 0 2 ≠ 3 ∧ pboundRefusal s s.cur.core (fld (sRead c .c 1) 0 4) = some (3, 0)) ∧
    ∃ (s : State) (c : Crew), rp s c ∧ fld (sRead c .c 1) 4 60 = 0 ∧ partMask (fld (sRead c .c 1) 0 4) = true ∧
      fld (sRead c .c 2) 2 62 = 0 ∧ fld (sRead c .c 2) 0 2 ≠ 3 ∧ pboundRefusal s s.cur.core (fld (sRead c .c 1) 0 4) = none :=
  ⟨⟨objAt (2 + (16384 - 512) * 2 ^ 24) 5, args (2 + (16384 - 512) * 2 ^ 24) 5, _, _,
     rp_of (by decide +kernel) (by decide +kernel) (by decide +kernel), rfl, rfl, (by decide +kernel), by decide +kernel,
     exists_some _ (by decide +kernel), by decide +kernel, (by decide +kernel), by decide +kernel, exists_some _ (by decide +kernel)⟩,
   ⟨at_ (args 0x11 0) .c, _, rp_of rfl (by decide +kernel) (by decide +kernel), by decide +kernel⟩,
   ⟨at_ (args 3 0) .c, _, rp_of rfl (by decide +kernel) (by decide +kernel), (by decide +kernel)⟩,
   ⟨at_ (args 1 0) .c, _, rp_of rfl (by decide +kernel) (by decide +kernel), by decide +kernel⟩,
   ⟨(List.range 4).foldl (fun s q => regSet s 0 (rMEMIL q) (BitVec.ofNat 64 (2 ^ q + 16))) (at_ (args 2 0) .c), args 2 0,
     rp_of (by decide +kernel) (by decide +kernel) (by decide +kernel), by decide +kernel⟩⟩

/-- Every quarter a partition of its own. -/
def quarters (s : State) : State := (List.range 4).foldl (fun s q => regSet s 0 (rMEMIL q) (BitVec.ofNat 64 (2 ^ q + 16))) s
/-- PBOUND of quarter 1: with a crew there, with a record that it may take, and free. -/
theorem test_meets_PartitionsAndLaunches_refused :
    (∃ (s : State) (c : Crew), rp s c ∧ Affected s (fld (sRead c .c 1) 0 4) (s.cur.core / 64)) ∧
    (∃ (s : State) (c : Crew), rp s c ∧ ¬Affected s (fld (sRead c .c 1) 0 4) (s.cur.core / 64) ∧
      FirstBad s (fld (sRead c .c 1) 0 4) (Occupied s) 1) ∧
    (∃ (s : State) (c : Crew), rp s c ∧ ¬Affected s (fld (sRead c .c 1) 0 4) (s.cur.core / 64) ∧
      (∀ q, Affected s (fld (sRead c .c 1) 0 4) q → ¬Occupied s q) ∧
      FirstBad s (fld (sRead c .c 1) 0 4) (fun q => ∃ i, i < 64 ∧ Placeable s q i) 1) ∧
    ∃ (s : State) (c : Crew), rp s c ∧ ¬Affected s (fld (sRead c .c 1) 0 4) (s.cur.core / 64) ∧
      ∀ q, Affected s (fld (sRead c .c 1) 0 4) q → ¬Occupied s q ∧ ¬∃ i, i < 64 ∧ Placeable s q i := by
  have only : ∀ (s : State) q, (∀ r, r < 4 → (fld (regGet s 0 (rMEMIL r)) 0 4) = 2 ^ r) → Affected s 2 q → q = 1 := by
    intro s q h ⟨hq, h1⟩
    have hb : ∀ r, r < 4 → Nat.testBit 2 r = true → r = 1 := by decide
    rcases h1 with h1 | ⟨r, hr, h1, h2⟩
    · exact hb q hq h1
    · rw [h q hq, hb r hr h1, Nat.testBit_two_pow] at h2
      simpa using h2
  let s0 := quarters (at_ (args 2 0) .c)
  let s1 : State := { s0 with crews := s0.crews ++ [(128, tc)] }
  let s2 : State := { regSet s0 0 (rLQCFG 0) 0x20_0001 with sched := { s0.sched with queued := [(0, 0)] } }
  have is0 : ∀ r, r < 4 → (fld (regGet s0 0 (rMEMIL r)) 0 4) = 2 ^ r := by decide +kernel
  have is1 : ∀ r, r < 4 → (fld (regGet s1 0 (rMEMIL r)) 0 4) = 2 ^ r := by decide +kernel
  have is2 : ∀ r, r < 4 → (fld (regGet s2 0 (rMEMIL r)) 0 4) = 2 ^ r := by decide +kernel
  have here : ∀ (s : State), (∀ r, r < 4 → (fld (regGet s 0 (rMEMIL r)) 0 4) = 2 ^ r) → s.cur.core / 64 = 0 → ¬Affected s 2 (s.cur.core / 64) :=
    fun s h h0 a => absurd (only s _ h a) (by rw [h0]; decide)
  have two : fld (sRead (args 2 0) .c 1) 0 4 = 2 := by decide +kernel
  have one : ∀ s, Affected s 2 1 := fun s => ⟨by decide, .inl (by decide)⟩
  have below : ∀ (s : State) (p : Nat → Prop), (∀ r, r < 4 → (fld (regGet s 0 (rMEMIL r)) 0 4) = 2 ^ r) →
      ∀ r, r < 1 → Affected s 2 r → ¬p r := fun s p h r hr a => absurd (only s r h a) (by omega)
  refine ⟨⟨at_ (args 1 0) .c, args 1 0, rp_of rfl (by decide +kernel) (by decide +kernel), (by decide +kernel), .inl (by decide +kernel)⟩,
    ⟨s1, args 2 0, rp_of (by decide +kernel) (by decide +kernel) (by decide +kernel), ?_⟩,
    ⟨s2, args 2 0, rp_of (by decide +kernel) (by decide +kernel) (by decide +kernel), ?_⟩,
    ⟨s0, args 2 0, rp_of (by decide +kernel) (by decide +kernel) (by decide +kernel), ?_⟩⟩
  · rw [two]
    exact ⟨here s1 is1 (by decide +kernel), one s1, ⟨(128, tc), by decide +kernel, by decide⟩, below s1 _ is1⟩
  · rw [two]
    refine ⟨here s2 is2 (by decide +kernel), ?_, one s2, ⟨0, by decide, by decide +kernel, (0, 0), (by decide +kernel), rfl, tl, by decide +kernel, .inl (by decide +kernel)⟩, below s2 _ is2⟩
    intro q a
    obtain rfl := only s2 q is2 a
    unfold Occupied
    decide +kernel
  · rw [two]
    refine ⟨here s0 is0 (by decide +kernel), fun q a => ?_⟩
    obtain rfl := only s0 q is0 a
    refine ⟨by unfold Occupied; decide +kernel, fun ⟨i, _, _, p, hp, _⟩ => ?_⟩
    have e : s0.sched.queued = [] := by decide +kernel
    rw [e] at hp
    cases hp

/-- A launch that saves into object 3, of a small footprint. -/
def small : Launch := { tl with save := 3 * 2 ^ 40, ra := 16, rb := 16, nt := 0, nh := 0, nv := 8 }
def sc0 : Crew := freshCrew small 0 0
def pkS (c : Crew) (e : Eng) : State := withObjects { pk c small with cur := ⟨0, 0, e⟩ }

theorem test_meets_ShootDownsDebugSuspend :
    (∃ (s : State) (c : Crew) (sub : BitVec 2), rp s c ∧ sub ≠ 3 ∧ fld (sRead c .c 2) 32 31 = 0 ∧ fld (sRead c .c 1) 48 16 = 0 ∧
      ((sRead c .c 2).getLsbD 63 = true → sRead c .c 1 = 0) ∧ ∃ s1, releaseReady s s.cur.core s.cur.slot c = some s1 ∧ true = true) ∧
    (∃ (s : State) (c : Crew), rp s c ∧ c.ctl.dbgctl.getLsbD 0 = false) ∧
    (∃ (s : State) (c : Crew), rp s c ∧ c.ctl.dbgctl.getLsbD 0 = true) ∧
    (∃ (s : State) (c : Crew), rp s c ∧ fld (sRead c .c 1) 16 48 = 0 ∧ s.power = .run) ∧
    ∃ (s : State) (c : Crew) (ph : Nat), rp s c ∧ fld (sRead c .c 1) 16 48 = 0 ∧ s.power = .suspending ph (some (s.cur.core, s.cur.slot)) ∧
      s.crews.all (fun p => decide (p.1 = 2 * s.cur.core + s.cur.slot)) = true ∧ saveReady s s.cur.core s.cur.slot c = true :=
  ⟨⟨at_ (args (2 ^ 21) (2 ^ 62 - 2 ^ 62)) .c, _, 1, rp_of rfl (by decide +kernel) (by decide +kernel), by decide, by decide +kernel, (by decide +kernel),
     by decide +kernel, exists_some (fun _ => true) (by decide +kernel)⟩,
   ⟨at_ tc .c, _, rp_of rfl (by decide +kernel) (by decide +kernel), by decide +kernel⟩,
   ⟨at_ { tc with ctl := { tc.ctl with dbgctl := 1 } } .c, _, rp_of rfl (by decide +kernel) (by decide +kernel), (by decide +kernel)⟩,
   ⟨at_ tc .c, _, rp_of rfl (by decide +kernel) (by decide +kernel), by decide +kernel, rfl⟩,
   ⟨{ pkS sc0 .c with power := .suspending 0 (some (0, 0)) }, sc0, 0, rp_of (by decide +kernel) (by decide +kernel) (by decide +kernel), by decide +kernel, rfl,
     (by decide +kernel), by decide +kernel⟩⟩


/-- The access of a form reaches a place of which `p` holds. -/
def reachB (s : State) (c : Crew) (f : AccessForm) (p : State → Acc → Bool) : Bool :=
  match access s s.cur.core s.cur.slot c f.cap f.kind f.off f.size with
  | (s1, .ok a) => (decide (a.tgt ≠ 8) || phaseOk s1 c .a f.rd f.wr (keyRow c a.key)) && (underWay s c).isNone && p s1 a
  | (_, .error _) => false
theorem reaches_of {s : State} {c : Crew} {f : AccessForm} {p : State → Acc → Bool} (h : reachB s c f p = true) :
    ∃ s1 a, Reaches s c f s1 a ∧ p s1 a = true := by
  unfold reachB at h
  split at h
  · rename_i s1 a heq
    simp only [Bool.and_eq_true, Bool.or_eq_true, decide_eq_true_eq] at h
    exact ⟨s1, a, ⟨heq, fun h8 => h.1.1.resolve_left fun hn => hn h8, Option.isNone_iff_eq_none.mp h.1.2⟩, h.2⟩
  · cases h

/-- It is performed: every condition that `Performs` asks of a state. -/
def performB (s : State) (c : Crew) (f : AccessForm) (p : State → Acc → Bool) : Bool :=
  reachB s c f fun s1 a => decide (a.tgt ≠ 4 ∧ a.tgt ≠ 10 ∧ a.tgt ≠ 2) && decide (s.resting = [] ∧ s.keyed = []) &&
    decide (Enabled c .a f.inv f.grd) && (!narrowed s c f a || !fnDemTrap s (fnOf s c.tenant)) &&
    (!f.orders a || !unacked s s.cur.core s.cur.slot) && (a.loose || !strongPending s s.cur.core s.cur.slot) && p s1 a
theorem performs_of {s : State} {c : Crew} {i : Instr} {f : AccessForm} {p : State → Acc → Bool} (hi : Accesses c i f)
    (hr : Runs s .a c) (h : performB s c f p = true) : ∃ s1 a, Performs s c i f s1 a ∧ p s1 a = true := by
  obtain ⟨s1, a, h1, h2⟩ := reaches_of h
  simp only [Bool.and_eq_true, Bool.or_eq_true, decide_eq_true_eq, Bool.not_eq_true', Bool.or_eq_true] at h2
  obtain ⟨⟨⟨⟨⟨⟨hl, hq⟩, he⟩, hn⟩, hu⟩, hs⟩, hp⟩ := h2
  exact ⟨s1, a, ⟨⟨hi, hr, he, h1, hl, hq, fun x => hn.resolve_left (by simp [x])⟩,
    fun x => hu.resolve_left (by simp [x]), fun x => hs.resolve_left (by simp [x])⟩, hp⟩

def capS : Cap := mkCap 1 0xFF 0 0 (64 * 32768) 0
def capO : Cap := mkCap 4 0xFB 2 1 16384 0
/-- k1 reaches the whole scratchpad, k2 the whole of object 2. -/
def kc : Crew := withK (withK tc 1 capS) 2 capO
def mo (c : Crew) : State := withObjects (at_ c .a)
theorem runs_mo {c : Crew} (h : active c .a = true) : Runs (mo c) .a c := ⟨by unfold mo withObjects; rfl, h⟩

def narrowK (x : Word) : Crew := withA (withK tc 1 (mkCap 1 3 0 0 100 10)) 2 x

theorem test_meets_CapabilityResults :
    (∃ (s : State) (c : Crew), Runs s .a c ∧ Enabled c .a 0 0 ∧ capSpace (kRead c 1) = 0) ∧
    (∃ (s : State) (c : Crew), Runs s .a c ∧ capSpace (kRead c 1) ≠ 0 ∧ (sRead c .a 2).toNat = capCursor (kRead c 1)) ∧
    (∃ (s : State) (c : Crew), Runs s .a c ∧ capSpace (kRead c 1) ≠ 0 ∧ (sRead c .a 2).toNat = capLimit (kRead c 1)) ∧
    (∃ (s : State) (c : Crew), Runs s .a c ∧ capSpace (kRead c 1) ≠ 0 ∧ (sRead c .a 2).toNat + 1 = capCursor (kRead c 1)) ∧
    (∃ (s : State) (c : Crew), Runs s .a c ∧ capSpace (kRead c 1) ≠ 0 ∧ (sRead c .a 2).toNat = capLimit (kRead c 1) + 1) ∧
    (∃ (s : State) (c : Crew), Runs s .a c ∧ capSpace (kRead c 1) ≠ 0 ∧ capCursor (kRead c 1) + (sRead c .a 2).toNat = capLimit (kRead c 1)) ∧
    (∃ (s : State) (c : Crew), Runs s .a c ∧ capSpace (kRead c 1) ≠ 0 ∧ capCursor (kRead c 1) + (sRead c .a 2).toNat = capLimit (kRead c 1) + 1) :=
  ⟨⟨_, tc, runs_at (e := .a) (by decide +kernel), by decide +kernel⟩, ⟨_, narrowK 10, runs_at (e := .a) (by decide +kernel), (by decide +kernel)⟩,
   ⟨_, narrowK 100, runs_at (e := .a) (by decide +kernel), by decide +kernel⟩, ⟨_, narrowK 9, runs_at (e := .a) (by decide +kernel), by decide +kernel⟩,
   ⟨_, narrowK 101, runs_at (e := .a) (by decide +kernel), (by decide +kernel)⟩, ⟨_, narrowK 90, runs_at (e := .a) (by decide +kernel), by decide +kernel⟩,
   ⟨_, narrowK 91, runs_at (e := .a) (by decide +kernel), by decide +kernel⟩⟩

theorem next_with {S F R : Type} {o : Host.Outcome S F R} (p : S → Bool)
    (h : (match o with | .next t => p t | _ => false) = true) : ∃ t, o = .next t ∧ p t = true := by
  cases o with
  | next t => exact ⟨t, rfl, h⟩
  | fault => cases h
  | refused => cases h

theorem test_meets_CapabilitiesOnlyShrink : ∃ (s t : State) (c c' : Crew) (i : Instr) (n : BitVec 1) (g : BitVec 4) (d a : BitVec 5),
    Derivation i n g d a ∧ Runs s .a c ∧ exec i s = .next t ∧ crewAt t s.cur.core s.cur.slot = some c' ∧
      c'.trap.inHandler = c.trap.inHandler ∧ kRead c' d ≠ kRead c d := by
  obtain ⟨t, ht, hp⟩ := next_with (o := exec (.koff 0 0 3 1 2) (at_ (narrowK 90) .a))
    (fun t => (crewAt t 0 0).any fun c' => decide (c'.trap.inHandler = false ∧ kRead c' 3 ≠ 0)) (by decide +kernel)
  obtain ⟨c', hc, hp⟩ := exists_some _ hp
  simp only [decide_eq_true_eq] at hp
  exact ⟨_, t, narrowK 90, c', _, 0, 0, 3, 1, .koff, runs_at (by decide +kernel), ht, hc, hp.1, hp.2⟩

/-! An LD of 8 bytes at k1 + s2, and its access. -/
def ld8 : Instr := .ldZ 0 0 3 1 2 3
def ldForm (c : Crew) : AccessForm := ⟨0, 0, kRead c 1, kLoad, 8, atOffset c 1 2 8, true, false, strong⟩
theorem ld8_accesses (c : Crew) : Accesses c ld8 (ldForm c) := .ldZ

def accCap (k : Cap) (x : Word) : Crew := withA (withK tc 1 k) 2 x
/-- An access that `AccessesAreChecked` asks about: not one of the queue transfers. -/
def AsksOf (s : State) (c : Crew) (i : Instr) (f : AccessForm) : Prop :=
  Accesses c i f ∧ Runs s .a c ∧ Enabled c .a f.inv f.grd ∧
  (∀ n g q k b z, i = .ldq n g q k b z → peerActive c .a q.toNat = true ∧ (queueOf c q.toNat).length < qDepth q.toNat) ∧
  (∀ n g q k b, i = .stq n g q k b → peerActive c .a q.toNat = true)
theorem asks_ld (k : Cap) (x : Word) (s : State) (h : crewAt s s.cur.core s.cur.slot = some (accCap k x)) :
    AsksOf s (accCap k x) ld8 (ldForm (accCap k x)) := by
  have ha : active (accCap k x) .a = true := by
    have : (accCap k x).eng = tc.eng := by unfold accCap withA withK kWrite sWrite; split <;> split <;> rfl
    unfold active
    rw [this]
    decide +kernel
  have hg : Enabled (accCap k x) .a (ldForm (accCap k x)).inv (ldForm (accCap k x)).grd := by
    unfold Enabled pRead
    simp [ldForm]
  refine ⟨ld8_accesses _, ⟨h, ha⟩, hg, ?_, ?_⟩
  · intro n g q k b z h; cases h
  · intro n g q k b h; cases h

theorem portAccess_error {s : State} {die tenant space obj off : Nat} {gen : Option Nat} {k : AccKind}
    (h : (match (portAccess s die tenant space obj gen off k).2 with | .error x => decide (x.cause ≠ 0x06) | .ok _ => false) = true) :
    ∃ s1 x, portAccess s die tenant space obj gen off k = (s1, .error x) ∧ x.cause ≠ 0x06 := by
  split at h
  · rename_i x heq
    exact ⟨_, x, Prod.ext rfl heq, by simpa using h⟩
  · cases h

/-- Function 0 at tenant scope, a demotion trapping. -/
def narrow0 (s : State) : State := regSet s 0 (rTENCFG 0) (0xF_4000_0000 + 2 ^ 25 + 2 ^ 26)
/-- Host window 1 of tenant 0, readable and writable, strong (order kind 0), 16 KiB from host address 0x10000. -/
def withWindow (s : State) : State :=
  regSet { s with mem := memWriteN (memWriteN (memWriteN s.mem 0x2020 (2 ^ 63 + 3 * 2 ^ 50 + 16384) 8) 0x2028 1 8) 0x2030 0x10000 8 }
    0 rHTBASE (BitVec.ofNat 64 (2 * 2 ^ 48 + 0x2000))
def capH : Cap := mkCap 6 3 1 1 16384 0
/-- A store of the crew to another device that is not acknowledged. -/
def pendingStore (s : State) : State := sendMsg s (mkMsg s 0 0 tc ⟨4, 0, 1, 0, 7, 1, 0, 0⟩ 3 2 8 0x4C 0 5 0 0 0 0)
/-- An LDQ of the crew on a strong page of another device is on its way. -/
def strongLoad (s : State) : State := sendMsg s (mkMsg s 0 0 tc ⟨4, 0, 0, 0, 7, 1, 0, 0⟩ 0 2 8 0x43 0 0 0 0 2 0)

theorem test_meets_AccessesAreChecked :
    (∃ s c i f, AsksOf s c i f ∧ capSpace f.cap = 0) ∧
    (∃ s c i f, AsksOf s c i f ∧ capSpace f.cap ≠ 0 ∧ hasRights (capRights f.cap) f.kind.rights = false) ∧
    (∃ s c i f, AsksOf s c i f ∧ capSpace f.cap ≠ 0 ∧ hasRights (capRights f.cap) f.kind.rights = true ∧ f.off + 4 = capCursor f.cap) ∧
    (∃ s c i f, AsksOf s c i f ∧ capSpace f.cap ≠ 0 ∧ hasRights (capRights f.cap) f.kind.rights = true ∧ capLimit f.cap + 1 = f.off + f.size) ∧
    (∃ s c i f, AsksOf s c i f ∧ hasRights (capRights f.cap) f.kind.rights = true ∧ capCursor f.cap ≤ f.off ∧ f.off + f.size = capLimit f.cap ∧
      capSpace f.cap = 1 ∧ 64 * (c.ra + c.rb) + 8 = f.off + f.size) ∧
    (∃ s c i f, AsksOf s c i f ∧ hasRights (capRights f.cap) f.kind.rights = true ∧ capCursor f.cap ≤ f.off ∧ f.off + f.size = capLimit f.cap ∧
      capSpace f.cap = 3 ∧ commonsBytes s (dieOf s.cur.core) + 8 = f.off + f.size) ∧
    (∃ s c i f s1 x, AsksOf s c i f ∧ hasRights (capRights f.cap) f.kind.rights = true ∧ capCursor f.cap ≤ f.off ∧ f.off + f.size ≤ capLimit f.cap ∧
      capSpace f.cap = 4 ∧ portAccess s (dieOf s.cur.core) c.tenant (capSpace f.cap) (capObj f.cap) (some (capGen f.cap)) f.off f.kind =
        (s1, .error x) ∧ x.cause ≠ 0x06) ∧
    (∃ s c i f s1 a, AsksOf s c i f ∧ Reaches s c f s1 a ∧ narrowed s c f a = true ∧ fnDemTrap s (fnOf s c.tenant) = true) ∧
    (∃ s c i f s1 a, Admitted s c i f s1 a ∧ f.orders a = true ∧ unacked s s.cur.core s.cur.slot = true) ∧
    (∃ s c i f s1 a, Admitted s c i f s1 a ∧ f.orders a = false ∧ a.loose = false ∧ strongPending s s.cur.core s.cur.slot = true) := by
  refine ⟨⟨at_ (accCap 0 0) .a, _, _, _, asks_ld _ _ _ rfl, (by decide +kernel)⟩,
    ⟨at_ (accCap (mkCap 1 2 0 0 100 0) 0) .a, _, _, _, asks_ld _ _ _ rfl, by decide +kernel⟩,
    ⟨at_ (accCap (mkCap 1 1 0 0 100 4) 0) .a, _, _, _, asks_ld _ _ _ rfl, by decide +kernel⟩,
    ⟨at_ (accCap (mkCap 1 1 0 0 15 0) 8) .a, _, _, _, asks_ld _ _ _ rfl, (by decide +kernel)⟩,
    ⟨at_ (accCap (mkCap 1 1 0 0 (64 * 32768 + 8) 0) (64 * 32768)) .a, _, _, _, asks_ld _ _ _ rfl, by decide +kernel⟩,
    ⟨at_ (accCap (mkCap 3 1 0 0 (commonsBytes State.reset 0 + 8) 0) (BitVec.ofNat 64 (commonsBytes State.reset 0))) .a, _, _, _,
      asks_ld _ _ _ rfl, by decide +kernel⟩, ?_, ?_, ?_, ?_⟩
  · obtain ⟨s1, x, h, hx⟩ := portAccess_error (s := mo (accCap (mkCap 4 1 2 2 16384 0) 0)) (die := 0) (tenant := 0) (space := 4)
      (obj := 2) (off := 0) (gen := some 2) (k := kLoad) (by decide +kernel)
    exact ⟨mo (accCap (mkCap 4 1 2 2 16384 0) 0), _, _, _, s1, x, asks_ld (mkCap 4 1 2 2 16384 0) 0 _ (by decide +kernel), (by decide +kernel),
      by decide +kernel, by decide +kernel, (by decide +kernel), h, hx⟩
  · obtain ⟨s1, a, h, hp⟩ := reaches_of (s := narrow0 (withWindow (mo (accCap capH 8)))) (c := accCap capH 8)
      (f := ldForm (accCap capH 8)) (p := fun _ a => narrowed (narrow0 (withWindow (mo (accCap capH 8)))) (accCap capH 8) (ldForm (accCap capH 8)) a)
      (by decide +kernel)
    exact ⟨_, _, _, _, s1, a, asks_ld _ _ _ (by decide +kernel), h, hp, by decide +kernel⟩
  · obtain ⟨s1, a, h, hp⟩ := performs_of (s := withWindow (mo (accCap capH 8))) (c := accCap capH 8) (p := fun _ a => strong a)
      (ld8_accesses _) ⟨by decide +kernel, (by decide +kernel)⟩ (by decide +kernel)
    obtain ⟨s1', a', h', hp'⟩ := reaches_of (s := pendingStore (withWindow (mo (accCap capH 8)))) (c := accCap capH 8)
      (f := ldForm (accCap capH 8)) (p := fun _ a => strong a && decide (a.tgt ≠ 4 ∧ a.tgt ≠ 10 ∧ a.tgt ≠ 2)) (by decide +kernel)
    simp only [Bool.and_eq_true, decide_eq_true_eq] at hp'
    exact ⟨_, _, _, _, s1', a', ⟨ld8_accesses _, ⟨by decide +kernel, by decide +kernel⟩, (by decide +kernel), h', hp'.2,
      ⟨by decide +kernel, by decide +kernel⟩, fun _ => by decide +kernel⟩, hp'.1, (by decide +kernel)⟩
  · obtain ⟨s1, a, h, hp⟩ := reaches_of (s := strongLoad (mo (accCap capO 8))) (c := accCap capO 8) (f := ldForm (accCap capO 8))
      (p := fun _ a => !strong a && !a.loose && decide (a.tgt ≠ 4 ∧ a.tgt ≠ 10 ∧ a.tgt ≠ 2)) (by decide +kernel)
    simp only [Bool.and_eq_true, Bool.not_eq_true', decide_eq_true_eq] at hp
    exact ⟨_, _, _, _, s1, a, ⟨ld8_accesses _, ⟨by decide +kernel, by decide +kernel⟩, (by decide +kernel), h, hp.2,
      ⟨by decide +kernel, by decide +kernel⟩, fun _ => by decide +kernel⟩, hp.1.1, hp.1.2, (by decide +kernel)⟩


/-! Loads and stores of object 2 and of the scratchpad, queues, atomics. -/

/-- The first row of the scratchpad is poisoned. -/
def poisoned (c : Crew) : State := { mo c with host := { (mo c).host with poison := [(0, spadKey 0 0 0 0 / 64)] } }

/-- Scratchpad row 0 holds a capability of object 2, which lies behind a second stage that maps nothing. -/
def absentTable : State := unmapped { mo kc with mem := memWriteN (mo kc).mem (spadKey 0 0 0 0) capO.toNat 16 }
theorem test_meets_LoadsReadMemory_kld :
    (∃ s s1 c f a ok, Performs s c (.kld 0 0 3 1 2) f s1 a ∧ isPoisoned s a.key = false ∧
      capBacked s1 (64 * (c.ra + c.rb)) (dieOf s.cur.core) c.tenant (BitVec.ofNat 128 (unitAt s f a)) = .ok ok) ∧
    ∃ s s1 c f a x, Performs s c (.kld 0 0 3 1 2) f s1 a ∧ isPoisoned s a.key = false ∧
      capBacked s1 (64 * (c.ra + c.rb)) (dieOf s.cur.core) c.tenant (BitVec.ofNat 128 (unitAt s f a)) = .error x ∧ x.cause = 0x06 := by
  refine ⟨?_, ?_⟩
  · obtain ⟨s1, a, h, hp⟩ := performs_of (s := mo kc) (c := kc) (i := .kld 0 0 3 1 2)
      (p := fun s1 a => !isPoisoned (mo kc) a.key && (match capBacked s1 (64 * (kc.ra + kc.rb)) 0 kc.tenant (BitVec.ofNat 128 (memReadN (mo kc).mem a.key 16)) with
        | .ok _ => true | .error _ => false)) .kld (runs_mo (by decide +kernel)) (by decide +kernel)
    simp only [Bool.and_eq_true, Bool.not_eq_true'] at hp
    cases hb : capBacked s1 (64 * (kc.ra + kc.rb)) 0 kc.tenant (BitVec.ofNat 128 (memReadN (mo kc).mem a.key 16)) with
    | ok ok => exact ⟨_, s1, _, _, a, ok, h, hp.1, hb⟩
    | error => rw [hb] at hp; cases hp.2
  · obtain ⟨s1, a, h, hp⟩ := performs_of (s := absentTable) (c := kc) (i := .kld 0 0 3 1 2)
      (p := fun s1 a => !isPoisoned absentTable a.key && (match capBacked s1 (64 * (kc.ra + kc.rb)) 0 kc.tenant (BitVec.ofNat 128 (memReadN absentTable.mem a.key 16)) with
        | .error x => decide (x.cause = 0x06) | .ok _ => false)) .kld ⟨by decide +kernel, by decide +kernel⟩ (by decide +kernel)
    simp only [Bool.and_eq_true, Bool.not_eq_true'] at hp
    cases hb : capBacked s1 (64 * (kc.ra + kc.rb)) 0 kc.tenant (BitVec.ofNat 128 (memReadN absentTable.mem a.key 16)) with
    | ok ok => rw [hb] at hp; cases hp.2
    | error x => rw [hb] at hp; exact ⟨_, s1, _, _, a, x, h, hp.1, hb, of_decide_eq_true hp.2⟩

theorem test_meets_LoadsReadMemory :
    (∃ s s1 c i f a upd, Performs s c i f s1 a ∧ Loads s1 c i upd ∧ isPoisoned s a.key = false ∧ a.tgt = 0) ∧
    (∃ s s1 c i f a upd, Performs s c i f s1 a ∧ Loads s1 c i upd ∧ isPoisoned s a.key = false ∧ f.size = 16) ∧
    ∃ s s1 c i f a upd, Performs s c i f s1 a ∧ Loads s1 c i upd ∧ isPoisoned s a.key = true := by
  refine ⟨?_, ?_, ?_⟩
  · obtain ⟨s1, a, h, hp⟩ := performs_of (s := mo (withA kc 2 16376)) (c := withA kc 2 16376) (i := .ldZ 0 0 3 2 2 3)
      (p := fun _ a => !isPoisoned (mo (withA kc 2 16376)) a.key && decide (a.tgt = 0)) .ldZ (runs_mo (by decide +kernel)) (by decide +kernel)
    simp only [Bool.and_eq_true, Bool.not_eq_true', decide_eq_true_eq] at hp
    exact ⟨_, s1, _, _, _, a, _, h, .ldZ, hp.1, hp.2⟩
  · obtain ⟨s1, a, h, hp⟩ := performs_of (s := mo kc) (c := kc) (i := .kld 0 0 3 1 2)
      (p := fun _ a => !isPoisoned (mo kc) a.key) .kld (runs_mo (by decide +kernel)) (by decide +kernel)
    exact ⟨_, s1, _, _, _, a, _, h, .kld, by simpa using hp, rfl⟩
  · obtain ⟨s1, a, h, hp⟩ := performs_of (s := poisoned kc) (c := kc) (i := .ldAcqS 0 0 3 1 2 0)
      (p := fun _ a => isPoisoned (poisoned kc) a.key) .ldAcqS ⟨(by decide +kernel), by decide +kernel⟩ (by decide +kernel)
    exact ⟨_, s1, _, _, _, a, _, h, .ldAcqS, hp⟩

/-- A waiter of another crew registered on the first row of the scratchpad. -/
def watched (c : Crew) : State := { mo c with monitors := [⟨2 ^ 20, spadKey 0 0 0 0 / 64, 9, 1, none⟩] }

theorem test_meets_StoresWriteTheirBytes :
    (∃ s s1 c i f a x, Performs s c i f s1 a ∧ StoresValue c i x false ∧ f.size = 16 ∧ a.tgt = 0) ∧
    (∃ s s1 c i f a x, Performs s c i f s1 a ∧ StoresValue c i x true ∧ s.monitors ≠ [] ∧ a.tgt = 8) := by
  refine ⟨?_, ?_⟩
  · obtain ⟨s1, a, h, hp⟩ := performs_of (s := mo (withA kc 3 16368)) (c := withA kc 3 16368) (i := .kst 0 0 1 2 3)
      (p := fun _ a => decide (a.tgt = 0)) .kst (runs_mo (by decide +kernel)) (by decide +kernel)
    exact ⟨_, s1, _, _, _, a, _, h, .kst, rfl, by simpa using hp⟩
  · obtain ⟨s1, a, h, hp⟩ := performs_of (s := watched kc) (c := kc) (i := .stRelSig 0 0 1 1 3 3)
      (p := fun _ a => decide (a.tgt = 8)) .stRelSig ⟨by decide +kernel, (by decide +kernel)⟩ (by decide +kernel)
    exact ⟨_, s1, _, _, _, a, _, h, .stRelSig, by decide +kernel, by simpa using hp⟩

theorem test_meets_QueueMemoryTransfers :
    (∃ s s1 c q f a, peerActive c .a q.toNat = true ∧ Performs s c (.ldq 0 0 q 1 2 0) f s1 a ∧ (queueOf c q.toNat).length + 1 = qDepth q.toNat) ∧
    (∃ s c q, peerActive c .a q = true ∧ Runs s .a c ∧ Enabled c .a 0 0 ∧ qDepth q = (queueOf c q).length ∧ q = 0) ∧
    (∃ s s1 c q f a, peerActive c .a q.toNat = true ∧ Performs s c (.stq 0 0 q 1 2) f s1 a ∧ queueOf c q.toNat = []) ∧
    (∃ s s1 c q f a e rest, peerActive c .a q.toNat = true ∧ Performs s c (.stq 0 0 q 1 2) f s1 a ∧ queueOf c q.toNat = e :: rest ∧
      e.pending = false ∧ e.fail = 0) := by
  refine ⟨?_, ⟨at_ (holds kc 0 (List.replicate 16 (entry 1))) .a, _, 0, by decide +kernel, ⟨rfl, (by decide +kernel)⟩, by decide +kernel⟩, ?_, ?_⟩
  · obtain ⟨s1, a, h, -⟩ := performs_of (s := mo (holds kc 0 (List.replicate 15 (entry 1)))) (c := holds kc 0 (List.replicate 15 (entry 1)))
      (i := .ldq 0 0 0 1 2 0) (p := fun _ _ => true) (.ldqRow (by decide)) (runs_mo (by decide +kernel)) (by decide +kernel)
    exact ⟨_, s1, _, 0, _, a, by decide +kernel, h, (by decide +kernel)⟩
  · obtain ⟨s1, a, h, -⟩ := performs_of (s := mo kc) (c := kc)
      (i := .stq 0 0 11 1 2) (p := fun _ _ => true) .stq (runs_mo (by decide +kernel)) (by decide +kernel)
    exact ⟨_, s1, _, 11, _, a, by decide +kernel, h, by decide +kernel⟩
  · obtain ⟨s1, a, h, -⟩ := performs_of (s := mo (holds kc 11 [entry 9])) (c := holds kc 11 [entry 9])
      (i := .stq 0 0 11 1 2) (p := fun _ _ => true) .stq (runs_mo (by decide +kernel)) (by decide +kernel)
    exact ⟨_, s1, _, 11, _, a, _, _, (by decide +kernel), h, rfl, rfl, rfl⟩

/-- Deterministic mode, in a phase that lets A read and write row 0 of its A-side. -/
def phasedCrew : Crew := { det kc with phase := some 0 }
def phased : State := pkT phasedCrew 0x00000000_00010000_00000000_00010000 .a

theorem test_meets_AtomicsAndReductions :
    (∃ s s1 c i f a new, Performs s c i f s1 a ∧ i = .atom 0 0 4 1 12 1 1 ∧ isPoisoned s a.key = false ∧
      AtomOp 8 (unitAt s f a) ((sRead c .a 4).toNat % 2 ^ 64) ((sRead c .a 5).toNat % 2 ^ 64) 12 new) ∧
    (∃ s s1 c i f a new, Performs s c i f s1 a ∧ i = .red 0 0 4 1 6 0 1 ∧ isPoisoned s a.key = false ∧
      AtomOp 4 (unitAt s f a) ((sRead c .a 4).toNat % 2 ^ 32) ((sRead c .a 5).toNat % 2 ^ 32) 6 new) ∧
    (∃ s s1 c i f a new, Performs s c i f s1 a ∧ i = .red 0 0 4 1 1 0 0 ∧ isPoisoned s a.key = false ∧ isDet c = true ∧
      ¬(a.tgt = 0 ∨ a.tgt = 1 ∨ a.tgt = 9) ∧
      AtomOp 4 (unitAt s f a) ((sRead c .a 4).toNat % 2 ^ 32) ((sRead c .a 5).toNat % 2 ^ 32) 1 new) ∧
    (∃ s s1 c i f a new, Performs s c i f s1 a ∧ i = .red 0 0 4 1 0 0 0 ∧ isPoisoned s a.key = false ∧ isDet c = false ∧ strong a = false ∧
      AtomOp 4 (unitAt s f a) ((sRead c .a 4).toNat % 2 ^ 32) ((sRead c .a 5).toNat % 2 ^ 32) 0 new) := by
  refine ⟨?_, ?_, ?_, ?_⟩
  · obtain ⟨s1, a, h, hp⟩ := performs_of (s := mo kc) (c := kc) (i := .atom 0 0 4 1 12 1 1)
      (p := fun _ a => !isPoisoned (mo kc) a.key) .atom (runs_mo (by decide +kernel)) (by decide +kernel)
    exact ⟨_, s1, _, _, _, a, _, h, rfl, by simpa using hp, .cas⟩
  · obtain ⟨s1, a, h, hp⟩ := performs_of (s := mo kc) (c := kc) (i := .red 0 0 4 1 6 0 1)
      (p := fun _ a => !isPoisoned (mo kc) a.key) .red (runs_mo (by decide +kernel)) (by decide +kernel)
    exact ⟨_, s1, _, _, _, a, _, h, rfl, by simpa using hp, .smax⟩
  · obtain ⟨s1, a, h, hp⟩ := performs_of (s := phased) (c := phasedCrew) (i := .red 0 0 4 1 1 0 0)
      (p := fun _ a => !isPoisoned (phased) a.key && decide (¬(a.tgt = 0 ∨ a.tgt = 1 ∨ a.tgt = 9))) .red
      ⟨rfl, by decide +kernel⟩ (by decide +kernel)
    simp only [Bool.and_eq_true, Bool.not_eq_true', decide_eq_true_eq] at hp
    exact ⟨_, s1, _, _, _, a, _, h, rfl, hp.1, by decide +kernel, hp.2, .fadd⟩
  · obtain ⟨s1, a, h, hp⟩ := performs_of (s := mo kc) (c := kc) (i := .red 0 0 4 1 0 0 0)
      (p := fun _ a => !isPoisoned (mo kc) a.key && !strong a) .red (runs_mo (by decide +kernel)) (by decide +kernel)
    simp only [Bool.and_eq_true, Bool.not_eq_true'] at hp
    exact ⟨_, s1, _, _, _, a, _, h, rfl, hp.1, (by decide +kernel), hp.2, .add⟩


/-- The monitor table that serves the crew's own scratchpad holds `n` entries. -/
def full (n : Nat) : State := { mo kc with monitors := List.replicate n ⟨monitorUnit (mo kc) ⟨8, spadKey 0 0 0 0, 1, 0, 0, 0, 0, 0⟩, 5, 9, 1, none⟩ }
def full1 (n : Nat) : State := { full n with crews := [(0, withA kc 3 1)] }

/-- A remote LDQ of the crew is on its way. -/
def pendingLoad (s : State) : State := sendMsg s (mkMsg s 0 0 tc ⟨4, 0, 1, 0, 7, 1, 0, 0⟩ 0 2 8 0x43 0 0 0 0 2 0)
theorem test_meets_FencesAndKeeping_acquire :
    (∃ s c, Runs s .a c ∧ Enabled c .a 0 0 ∧ Quiet s ∧ fnTScope s (fnOf s c.tenant) = false ∧ ldqPending s s.cur.core s.cur.slot = false) ∧
    ∃ s c, Runs s .a c ∧ Enabled c .a 0 0 ∧ Quiet s ∧ fnTScope s (fnOf s c.tenant) = false ∧ ldqPending s s.cur.core s.cur.slot = true :=
  ⟨⟨at_ tc .a, tc, ⟨rfl, by decide +kernel⟩, by decide +kernel, ⟨rfl, rfl⟩, (by decide +kernel)⟩,
   ⟨pendingLoad (at_ tc .a), tc, ⟨by decide +kernel, by decide +kernel⟩, (by decide +kernel), ⟨by decide +kernel, by decide +kernel⟩, (by decide +kernel)⟩⟩

theorem test_meets_WaitsFencesKeeping :
    (∃ s s1 c i f a d ready, Performs s c i f s1 a ∧ WaitsFor c i d ready ∧ isPoisoned s a.key = false ∧ ready (unitAt s f a)) ∧
    (∃ s s1 c i f a d ready, Performs s c i f s1 a ∧ WaitsFor c i d ready ∧ isPoisoned s a.key = false ∧ ¬ready (unitAt s f a) ∧
      monitorsOf s a = 63) ∧
    (∃ s s1 c i f a d ready, Performs s c i f s1 a ∧ WaitsFor c i d ready ∧ isPoisoned s a.key = false ∧ ¬ready (unitAt s f a) ∧
      monitorsOf s a = 64) ∧
    (∃ s c, Runs s .a c ∧ Enabled c .a 0 0 ∧ Quiet s ∧ fnTScope s (fnOf s c.tenant) = true ∧ fnDemTrap s (fnOf s c.tenant) = true ∧
      unacked s s.cur.core s.cur.slot = true) ∧
    (∃ s c, Runs s .a c ∧ Quiet s ∧ fnTScope s (fnOf s c.tenant) = false ∧ unacked s s.cur.core s.cur.slot = false) ∧
    (∃ s c x, Runs s .a c ∧ Quiet s ∧ capCheck (kRead c 1) rightKP (atOffset c 1 2 1) (sRead c .a 3).toNat = some x) ∧
    ∃ s c, Runs s .a c ∧ Quiet s ∧ capCheck (kRead c 2) rightKP (atOffset c 2 4 1) (sRead c .a 3).toNat = none ∧
      boundsCheck s s.cur.core c (capSpace (kRead c 2)) (atOffset c 2 4 1) (sRead c .a 3).toNat = none ∧ (sRead c .a 3).toNat = 16384 := by
  refine ⟨?_, ?_, ?_, ⟨narrow0 (pendingStore (at_ tc .a)), tc, ⟨by decide +kernel, by decide +kernel⟩, (by decide +kernel),
      ⟨by decide +kernel, by decide +kernel⟩, (by decide +kernel)⟩,
    ⟨at_ tc .a, tc, ⟨rfl, by decide +kernel⟩, ⟨rfl, rfl⟩, by decide +kernel⟩,
    ⟨at_ tc .a, tc, 0x05, ⟨rfl, (by decide +kernel)⟩, ⟨rfl, rfl⟩, by decide +kernel⟩,
    ⟨at_ (withA kc 3 16384) .a, withA kc 3 16384, ⟨rfl, by decide +kernel⟩, ⟨rfl, rfl⟩, (by decide +kernel)⟩⟩
  · obtain ⟨s1, a, h, hp⟩ := performs_of (s := mo (withA kc 3 1)) (c := withA kc 3 1) (i := .waitsig 0 0 3 1 2 1)
      (p := fun _ a => !isPoisoned (mo (withA kc 3 1)) a.key && decide (memReadN (mo (withA kc 3 1)).mem a.key 8 = 0)) .waitsig
      (runs_mo (by decide +kernel)) (by decide +kernel)
    simp only [Bool.and_eq_true, Bool.not_eq_true', decide_eq_true_eq] at hp
    refine ⟨_, s1, _, _, _, a, _, _, h, .waitsig, hp.1, ?_⟩
    show unitAt _ _ _ ≠ _
    unfold unitAt
    rw [show (8 : Nat) = wordSize 1 from rfl] at hp
    rw [hp.2]
    decide +kernel
  · obtain ⟨s1, a, h, hp⟩ := performs_of (s := full 63) (c := kc) (i := .waitsig 0 0 3 1 2 1)
      (p := fun _ a => !isPoisoned (full 63) a.key && decide (memReadN (full 63).mem a.key 8 = 0) && decide (monitorsOf (full 63) a = 63)) .waitsig
      ⟨by decide +kernel, by decide +kernel⟩ (by decide +kernel)
    simp only [Bool.and_eq_true, Bool.not_eq_true', decide_eq_true_eq] at hp
    refine ⟨_, s1, _, _, _, a, _, _, h, .waitsig, hp.1.1, ?_, hp.2⟩
    show ¬(unitAt _ _ _ ≠ _)
    unfold unitAt
    rw [show (8 : Nat) = wordSize 1 from rfl] at hp
    rw [hp.1.2]
    decide +kernel
  · obtain ⟨s1, a, h, hp⟩ := performs_of (s := full1 64) (c := withA kc 3 1) (i := .cwait 0 0 3 1 2)
      (p := fun _ a => !isPoisoned (full1 64) a.key && decide (memReadN (full1 64).mem a.key 8 = 0) && decide (monitorsOf (full1 64) a = 64)) .cwait
      ⟨(by decide +kernel), by decide +kernel⟩ (by decide +kernel)
    simp only [Bool.and_eq_true, Bool.not_eq_true', decide_eq_true_eq] at hp
    refine ⟨_, s1, _, _, _, a, _, _, h, .cwait, hp.1.1, ?_, hp.2⟩
    show ¬(_ ≤ unitAt _ _ _ % 2 ^ 63)
    unfold unitAt
    rw [hp.1.2]
    decide +kernel


/-! A ring of four slots in row 0 of the scratchpad: HEAD 2, TAIL 3, CLAIMED 5, no slot committed. -/

def ringRow : Row := 0x0002_0000_0000000000000000_00000000_00000005_00000003_00000002
theorem test_ring : ringHead ringRow = 2 ∧ ringTail ringRow = 3 ∧ ringClaimed ringRow = 5 ∧ ringSize ringRow = 4 ∧ ringOk ringRow = true := by
  decide +kernel

/-- The scratchpad's first row, the crew's s2 as the operand. -/
def ringAt (h : Row) (x : Word) : State := writeUnit (at_ (withA kc 2 x) .a) (spadKey 0 0 0 0) 64 h.toNat

theorem ring_of (i : Instr) (h : Row) (x : Word) {f : AccessForm} (hi : Accesses (withA kc 2 x) i f)
    (hr : crewAt (ringAt h x) 0 0 = some (withA kc 2 x)) (ha : active (withA kc 2 x) .a = true)
    (hp : performB (ringAt h x) (withA kc 2 x) f (fun _ a => !isPoisoned (ringAt h x) a.key && decide (rowAt (ringAt h x) a = h)) = true) :
    ∃ s1 a, Performs (ringAt h x) (withA kc 2 x) i f s1 a ∧ isPoisoned (ringAt h x) a.key = false ∧ rowAt (ringAt h x) a = h := by
  obtain ⟨s1, a, h1, h2⟩ := performs_of hi ⟨hr, ha⟩ hp
  simp only [Bool.and_eq_true, Bool.not_eq_true', decide_eq_true_eq] at h2
  exact ⟨s1, a, h1, h2.1, h2.2⟩

/-- What `RingsAndBarriers` asks of a ring instruction, its header row, and its operand. -/
def RingCase (i : Instr) (x : Nat) (p : Row → Prop) : Prop :=
  ∃ s s1 c f a b, RingOperand i b ∧ Performs s c i f s1 a ∧ isPoisoned s a.key = false ∧ (sRead c .a b).toNat % 2 ^ 32 = x ∧ p (rowAt s a)

theorem ring_case (i : Instr) (h : Row) (x : Word) (p : Row → Prop) {f : AccessForm} (ho : RingOperand i 2) (hi : Accesses (withA kc 2 x) i f)
    (hr : crewAt (ringAt h x) 0 0 = some (withA kc 2 x)) (ha : active (withA kc 2 x) .a = true)
    (hp : performB (ringAt h x) (withA kc 2 x) f (fun _ a => !isPoisoned (ringAt h x) a.key && decide (rowAt (ringAt h x) a = h)) = true)
    (n : Nat) (hx : (sRead (withA kc 2 x) .a 2).toNat % 2 ^ 32 = n) (hh : p h) : RingCase i n p := by
  obtain ⟨s1, a, h1, h2, h3⟩ := ring_of i h x hi hr ha hp
  exact ⟨_, s1, _, f, a, 2, ho, h1, h2, hx, by rw [h3]; exact hh⟩

theorem commits_one : Commits 4 3 (0 ||| 2 ^ 3) 1 0 := by
  refine ⟨by decide, by decide, ?_, by decide⟩
  intro b
  by_cases hb : b = 3
  · subst hb; decide
  · have : Nat.testBit (0 ||| 2 ^ 3) b = false := by
      rw [Nat.zero_or, Nat.testBit_two_pow]
      exact decide_eq_false fun h => hb h.symm
    rw [this, show Nat.testBit 0 b = false from Nat.zero_testBit b]
    rfl

theorem test_meets_RingsAndBarriers :
    RingCase (.rclaim 0 0 3 1 2) 1 (fun h => ringOk h = true ∧ ∃ e, RingDoes h 1 (.rclaim 0 0 3 1 2) e) ∧
    RingCase (.rclaim 0 0 3 1 2) 2 (fun h => ringOk h = true ∧ RingWaits h 2 (.rclaim 0 0 3 1 2)) ∧
    RingCase (.rclaim 0 0 3 1 2) 5 (fun h => ringOk h = true ∧ RingMisuse h 5 (.rclaim 0 0 3 1 2)) ∧
    RingCase (.rcommit 0 0 1 2) 3 (fun h => ringOk h = true ∧ ∃ e, RingDoes h 3 (.rcommit 0 0 1 2) e) ∧
    RingCase (.rcommit 0 0 1 2) 5 (fun h => ringOk h = true ∧ RingMisuse h 5 (.rcommit 0 0 1 2)) ∧
    RingCase (.rwaitf 0 0 3 1 2) 1 (fun h => ringOk h = true ∧ ∃ e, RingDoes h 1 (.rwaitf 0 0 3 1 2) e) ∧
    RingCase (.rwaitf 0 0 3 1 2) 2 (fun h => ringOk h = true ∧ RingWaits h 2 (.rwaitf 0 0 3 1 2)) ∧
    RingCase (.rwaite 0 0 3 1 2) 1 (fun h => ringOk h = true ∧ ∃ e, RingDoes h 1 (.rwaite 0 0 3 1 2) e) ∧
    RingCase (.rwaite 0 0 3 1 2) 5 (fun h => ringOk h = true ∧ RingMisuse h 5 (.rwaite 0 0 3 1 2)) ∧
    RingCase (.rrelease 0 0 1 2) 1 (fun h => ringOk h = true ∧ ∃ e, RingDoes h 1 (.rrelease 0 0 1 2) e) ∧
    RingCase (.rrelease 0 0 1 2) 2 (fun h => ringOk h = true ∧ RingMisuse h 2 (.rrelease 0 0 1 2)) ∧
    RingCase (.rrelease 0 0 1 2) 2 (fun h => ringOk h = false) := by
  refine ⟨?_, ?_, ?_, ?_, ?_, ?_, ?_, ?_, ?_, ?_, ?_, ?_⟩
  · exact ring_case _ ringRow 1 _ .rclaim .rclaim (by decide +kernel) (by decide +kernel) (by decide +kernel) 1 (by decide +kernel)
      ⟨by decide +kernel, _, .rclaim (by decide +kernel)⟩
  · exact ring_case _ ringRow 2 _ .rclaim .rclaim (by decide +kernel) (by decide +kernel) (by decide +kernel) 2 (by decide +kernel)
      ⟨(by decide +kernel), .rclaim (by decide +kernel) (by decide +kernel)⟩
  · exact ring_case _ ringRow 5 _ .rclaim .rclaim (by decide +kernel) (by decide +kernel) (by decide +kernel) 5 (by decide +kernel)
      ⟨by decide +kernel, .rclaim (by decide +kernel)⟩
  · exact ring_case _ ringRow 3 _ .rcommit .rcommit (by decide +kernel) (by decide +kernel) (by decide +kernel) 3 (by decide +kernel)
      ⟨by decide +kernel, _, .rcommit (by decide +kernel) (by decide +kernel) (m := 1) (bits := 0)
        (by rw [show ringSize ringRow = 4 by decide +kernel, show ringTail ringRow = 3 by decide +kernel, show ringCbits ringRow = 0 by decide +kernel]
            exact commits_one)⟩
  · exact ring_case _ ringRow 5 _ .rcommit .rcommit (by decide +kernel) (by decide +kernel) (by decide +kernel) 5 (by decide +kernel)
      ⟨(by decide +kernel), .rcommit (by decide +kernel)⟩
  · exact ring_case _ ringRow 1 _ .rwaitf .rwaitf (by decide +kernel) (by decide +kernel) (by decide +kernel) 1 (by decide +kernel)
      ⟨by decide +kernel, _, .rwaitf (by decide +kernel)⟩
  · exact ring_case _ ringRow 2 _ .rwaitf .rwaitf (by decide +kernel) (by decide +kernel) (by decide +kernel) 2 (by decide +kernel)
      ⟨by decide +kernel, .rwaitf (by decide +kernel) (by decide +kernel)⟩
  · exact ring_case _ ringRow 1 _ .rwaite .rwaite (by decide +kernel) (by decide +kernel) (by decide +kernel) 1 (by decide +kernel)
      ⟨(by decide +kernel), _, .rwaite (by decide +kernel)⟩
  · exact ring_case _ ringRow 5 _ .rwaite .rwaite (by decide +kernel) (by decide +kernel) (by decide +kernel) 5 (by decide +kernel)
      ⟨by decide +kernel, .rwaite (by decide +kernel)⟩
  · exact ring_case _ ringRow 1 _ .rrelease .rrelease (by decide +kernel) (by decide +kernel) (by decide +kernel) 1 (by decide +kernel)
      ⟨by decide +kernel, _, .rrelease (by decide +kernel)⟩
  · exact ring_case _ ringRow 2 _ .rrelease .rrelease (by decide +kernel) (by decide +kernel) (by decide +kernel) 2 (by decide +kernel)
      ⟨(by decide +kernel), .rrelease (by decide +kernel)⟩
  · exact ring_case _ (ringRow - 2) 2 _ .rrelease .rrelease (by decide +kernel) (by decide +kernel) (by decide +kernel) 2 (by decide +kernel)
      (by decide +kernel)

/-- R147's barrier object in row 0: PHASE 7, RELOAD 3, PEND 1. -/
def barRow : Row := BitVec.ofNat 512 (barWord 0 7 3 1)

theorem test_meets_RingsAndBarriers_barriers :
    (∃ s s1 c f a, Performs s c (.barinit 0 0 1 2) f s1 a ∧ isPoisoned s a.key = false ∧ (sRead c .a 2).toNat + 1 = 2 ^ 24) ∧
    (∃ s s1 c f a, Performs s c (.barinit 0 0 1 2) f s1 a ∧ isPoisoned s a.key = false ∧ (sRead c .a 2).toNat = 2 ^ 24) ∧
    (∃ s s1 c f a, Performs s c (.bararrive 0 0 1 2) f s1 a ∧ isPoisoned s a.key = false ∧ (sRead c .a 2).toNat = 1 ∧
      arrived' (memReadN s.mem a.key 8) 1 = barWord 0 8 3 3) ∧
    (∃ s s1 c f a, Performs s c (.bararrive 0 0 1 2) f s1 a ∧ isPoisoned s a.key = false ∧ (sRead c .a 2).toNat = 2 ^ 24) ∧
    (∃ s s1 c f a, Performs s c (.barwait 0 0 1 2) f s1 a ∧ isPoisoned s a.key = false ∧ barPhase (memReadN s.mem a.key 8) = (sRead c .a 2).toNat % 2 ^ 15) ∧
    ∃ s s1 c f a, Performs s c (.barwait 0 0 1 2) f s1 a ∧ isPoisoned s a.key = false ∧ barPhase (memReadN s.mem a.key 8) ≠ (sRead c .a 2).toNat % 2 ^ 15 := by
  have bar : ∀ (i : Instr) (x : Word) (f : AccessForm) (p : Nat → Bool), Accesses (withA kc 2 x) i f →
      crewAt (ringAt barRow x) 0 0 = some (withA kc 2 x) → active (withA kc 2 x) .a = true →
      performB (ringAt barRow x) (withA kc 2 x) f (fun _ a => !isPoisoned (ringAt barRow x) a.key && p (memReadN (ringAt barRow x).mem a.key 8)) = true →
      ∃ s1 a, Performs (ringAt barRow x) (withA kc 2 x) i f s1 a ∧ isPoisoned (ringAt barRow x) a.key = false ∧
        p (memReadN (ringAt barRow x).mem a.key 8) = true := by
    intro i x f p hi hr ha hp
    obtain ⟨s1, a, h1, h2⟩ := performs_of hi ⟨hr, ha⟩ hp
    simp only [Bool.and_eq_true, Bool.not_eq_true'] at h2
    exact ⟨s1, a, h1, h2.1, h2.2⟩
  refine ⟨?_, ?_, ?_, ?_, ?_, ?_⟩
  · obtain ⟨s1, a, h, hp, -⟩ := bar (.barinit 0 0 1 2) (2 ^ 24 - 1) _ (fun _ => true) .barinit (by decide +kernel) (by decide +kernel) (by decide +kernel)
    exact ⟨_, s1, _, _, a, h, hp, by decide +kernel⟩
  · obtain ⟨s1, a, h, hp, -⟩ := bar (.barinit 0 0 1 2) (2 ^ 24) _ (fun _ => true) .barinit (by decide +kernel) (by decide +kernel) (by decide +kernel)
    exact ⟨_, s1, _, _, a, h, hp, by decide +kernel⟩
  · obtain ⟨s1, a, h, hp, hq⟩ := bar (.bararrive 0 0 1 2) 1 _ (fun w => decide (arrived' w 1 = barWord 0 8 3 3)) .bararrive (by decide +kernel)
      (by decide +kernel) (by decide +kernel)
    exact ⟨_, s1, _, _, a, h, hp, (by decide +kernel), by simpa using hq⟩
  · obtain ⟨s1, a, h, hp, -⟩ := bar (.bararrive 0 0 1 2) (2 ^ 24) _ (fun _ => true) .bararrive (by decide +kernel) (by decide +kernel) (by decide +kernel)
    exact ⟨_, s1, _, _, a, h, hp, by decide +kernel⟩
  · obtain ⟨s1, a, h, hp, hq⟩ := bar (.barwait 0 0 1 2) (2 ^ 15 + 7) _ (fun w => decide (barPhase w = 7)) .barwait (by decide +kernel)
      (by decide +kernel) (by decide +kernel)
    exact ⟨_, s1, _, _, a, h, hp, by simp only [decide_eq_true_eq] at hq; rw [hq]; decide +kernel⟩
  · obtain ⟨s1, a, h, hp, hq⟩ := bar (.barwait 0 0 1 2) 6 _ (fun w => decide (barPhase w = 7)) .barwait (by decide +kernel)
      (by decide +kernel) (by decide +kernel)
    exact ⟨_, s1, _, _, a, h, hp, by simp only [decide_eq_true_eq] at hq; rw [hq]; decide +kernel⟩

/-! A copy of k1 to k2 and an LDV, descriptor in s6. -/

def copyCrew (w aux : Word) : Crew := withA (withA kc 6 w) 7 aux

/-- Within the crew's own partition: a COPY of one row, a COPYMC, a GATHER and a SCATTER, and an LDV of a row whose place is below 0 at
stride −1; a core whose outstanding requests are all in use. -/
def ownCrew (w aux : Word) : Crew := withA (withA (withK (withK tc 1 capS) 2 capS) 6 w) 7 aux
theorem test_meets_CopiesAndLoadsFork_own :
    (∀ kind, 2 ≤ kind → kind ≤ 5 → ∃ i c s, Copies i kind 0 0 2 1 6 ∧ Runs s .a c ∧ Enabled c .a 0 0 ∧
      OwnCopy c kind (sRead c .a 6) (sRead c .a 7) (kRead c 2) (kRead c 1) ∧ MayFork s c (fld (sRead c .a 6) 16 3)) ∧
    (∃ (c : Crew) (s : State), Runs s .a c ∧ Enabled c .a 0 0 ∧ fld (sRead c .a 6) 36 28 = 0 ∧ (sRead c .a 6).getLsbD 19 = false ∧
      fld (sRead c .a 6) 10 6 = 1 ∧ fld (sRead c .a 6) 0 10 + 1 ≤ c.nv ∧ atOffset c 1 0 64 < 2 ^ 64 ∧ isDet c = false ∧ capSpace (kRead c 1) = 1 ∧
      hasRights (capRights (kRead c 1)) rightR = true ∧ (∀ j, j < 1 → (capCursor (kRead c 1) : Int) ≤ ldvAt c 6 1 0 j ∧
        ldvAt c 6 1 0 j + 64 ≤ (capLimit (kRead c 1) : Int) ∧ ldvAt c 6 1 0 j + 64 ≤ 64 * ((c.ra : Int) + c.rb)) ∧
      MayFork s c (fld (sRead c .a 6) 16 3)) ∧
    (∃ (c : Crew) (s : State) (st : Nat → State) (pl : Nat → Acc), Runs s .a c ∧ Enabled c .a 0 0 ∧ fld (sRead c .a 6) 36 28 = 0 ∧
      (sRead c .a 6).getLsbD 19 = false ∧ fld (sRead c .a 6) 10 6 = 2 ∧ fld (sRead c .a 6) 0 10 + 2 ≤ c.nv ∧ st 0 = s ∧
      (∀ j, j < 1 → 0 ≤ ldvAt c 6 1 0 j ∧
        access (st j) (st j).cur.core (st j).cur.slot c (kRead c 1) kLdv (ldvAt c 6 1 0 j).toNat 64 = (st (j + 1), .ok (pl j)) ∧
        ((pl j).tgt = 8 → phaseOk (st (j + 1)) c .a true false (keyRow c (pl j).key) = true) ∧ strong (pl j) = false) ∧
      ldvAt c 6 1 0 1 < 0) ∧
    ∃ s : State, ¬MaySend s True := by
  refine ⟨?_, ⟨ownCrew (2 ^ 10) 0, at_ (ownCrew (2 ^ 10) 0) .a, ⟨rfl, by decide +kernel⟩, (by decide +kernel), by decide +kernel, by decide +kernel, (by decide +kernel),
      by decide +kernel, by decide +kernel, (by decide +kernel), by decide +kernel, by decide +kernel, ?_, by unfold MayFork; decide +kernel⟩, ?_,
    ⟨{ pk tc with fabric := { (pk tc).fabric with msgs := List.replicate 256 (mkMsg (pk tc) 0 0 tc ⟨4, 0, 1, 0, 7, 1, 0, 0⟩ 0 2 8 0x43 0 0 0 0 2 0) } },
      fun h => absurd (h trivial) (by decide +kernel)⟩⟩
  · intro kind h1 h2
    obtain rfl | rfl | rfl | rfl : kind = 2 ∨ kind = 3 ∨ kind = 4 ∨ kind = 5 := by omega
    · exact ⟨_, ownCrew 1 0, at_ (ownCrew 1 0) .a, .copy, ⟨rfl, (by decide +kernel)⟩, by decide +kernel, by unfold OwnCopy OwnRange; decide +kernel, by unfold MayFork; decide +kernel⟩
    · exact ⟨_, ownCrew 1 0, at_ (ownCrew 1 0) .a, .copymc, ⟨rfl, by decide +kernel⟩, (by decide +kernel), by unfold OwnCopy OwnRange; decide +kernel, by unfold MayFork; decide +kernel⟩
    · exact ⟨_, ownCrew 1 0, at_ (ownCrew 1 0) .a, .gather, ⟨rfl, by decide +kernel⟩, by decide +kernel, by unfold OwnCopy OwnRange; decide +kernel, by unfold MayFork; decide +kernel⟩
    · exact ⟨_, ownCrew 1 0, at_ (ownCrew 1 0) .a, .scatter, ⟨rfl, (by decide +kernel)⟩, by decide +kernel, by unfold OwnCopy OwnRange; decide +kernel, by unfold MayFork; decide +kernel⟩
  · intro j hj
    obtain rfl : j = 0 := by omega
    decide +kernel
  · obtain ⟨s1, a, h, hp⟩ := reaches_of (s := at_ (ownCrew (2 * 2 ^ 10 + 0xFFFF * 2 ^ 20) 0) .a) (c := ownCrew (2 * 2 ^ 10 + 0xFFFF * 2 ^ 20) 0)
      (f := ⟨0, 0, capS, kLdv, 64, 0, true, false, strong⟩) (p := fun _ a => !strong a) (by decide +kernel)
    refine ⟨ownCrew (2 * 2 ^ 10 + 0xFFFF * 2 ^ 20) 0, at_ (ownCrew (2 * 2 ^ 10 + 0xFFFF * 2 ^ 20) 0) .a,
      fun j => if j = 0 then at_ (ownCrew (2 * 2 ^ 10 + 0xFFFF * 2 ^ 20) 0) .a else s1, fun _ => a,
      ⟨rfl, by decide +kernel⟩, (by decide +kernel), by decide +kernel, by decide +kernel, (by decide +kernel), by decide +kernel, rfl, ?_, by decide +kernel⟩
    intro j hj
    obtain rfl : j = 0 := by omega
    have hk : kRead (ownCrew (2 * 2 ^ 10 + 0xFFFF * 2 ^ 20) 0) 1 = capS := by decide +kernel
    have hl : ldvAt (ownCrew (2 * 2 ^ 10 + 0xFFFF * 2 ^ 20) 0) 6 1 0 0 = 0 := by decide +kernel
    rw [hk, hl]
    exact ⟨by decide, h.1, h.2.1, by simpa using hp⟩

/-- A state and crew for COPY of four rows on d0, for one with a reserved bit, for a range beyond the capability, with d0 at its limit, and
nulled; an LDV of one row to v5, one to v767 and one beyond. -/
theorem test_meets_CopiesAndLoadsFork :
    (∃ i c s, Copies i 3 1 0 2 1 6 ∧ Runs s .a c ∧ Disabled c .a 1 0 ∧ MayFork s c (fld (sRead c .a 6) 16 3)) ∧
    (∃ i c s, Copies i 4 1 0 2 1 6 ∧ Runs s .a c ∧ Disabled c .a 1 0 ∧ ¬MayFork s c (fld (sRead c .a 6) 16 3) ∧ dRead c .a 0 = 1023) ∧
    (∃ i c s, Copies i 2 0 0 2 1 6 ∧ Runs s .a c ∧ Enabled c .a 0 0 ∧ fld (sRead c .a 6) 41 23 ≠ 0) ∧
    (∃ i c s, Copies i 5 0 0 2 1 6 ∧ Runs s .a c ∧ Enabled c .a 0 0 ∧ (sRead c .a 6).getLsbD 40 = true) ∧
    (∃ i c s x, Copies i 2 0 0 2 1 6 ∧ Runs s .a c ∧ copyIllegal 2 (sRead c .a 6) (copyOp s c 2 2 1 6).aux = false ∧
      copyChecks s c (copyOp s c 2 2 1 6) = some x) ∧
    (∃ i c s s1, Copies i 2 0 0 2 1 6 ∧ Runs s .a c ∧ copyIllegal 2 (sRead c .a 6) (copyOp s c 2 2 1 6).aux = false ∧
      copyChecks s c (copyOp s c 2 2 1 6) = none ∧ targetChecks s c (copyOp s c 2 2 1 6) = (s1, none) ∧ MayFork s c (fld (sRead c .a 6) 16 3)) ∧
    (∃ i c s s1, Copies i 2 0 0 2 1 6 ∧ Runs s .a c ∧ copyIllegal 2 (sRead c .a 6) (copyOp s c 2 2 1 6).aux = false ∧
      copyChecks s c (copyOp s c 2 2 1 6) = none ∧ targetChecks s c (copyOp s c 2 2 1 6) = (s1, none) ∧ ¬MayFork s c (fld (sRead c .a 6) 16 3)) ∧
    (∃ c s, Runs s .a c ∧ Enabled c .a 0 0 ∧ fld (sRead c .a 6) 36 28 = 0 ∧ (sRead c .a 6).getLsbD 19 = true) ∧
    (∃ c s, Runs s .a c ∧ Enabled c .a 0 0 ∧ fld (sRead c .a 6) 36 28 = 0 ∧ (sRead c .a 6).getLsbD 19 = false ∧
      fld (sRead c .a 6) 0 10 + fld (sRead c .a 6) 10 6 = 769) ∧
    ∃ (c : Crew) (s : State) (st : Nat → State) (pl : Nat → Acc), Runs s .a c ∧ fld (sRead c .a 6) 36 28 = 0 ∧ (sRead c .a 6).getLsbD 19 = false ∧ fld (sRead c .a 6) 10 6 = 1 ∧
      fld (sRead c .a 6) 0 10 + 1 = 768 ∧ 768 ≤ c.nv ∧ atOffset c 2 0 64 < 2 ^ 64 ∧ st 0 = s ∧
      (∀ j, j < 1 → 0 ≤ ldvAt c 6 2 0 j ∧
        access (st j) (st j).cur.core (st j).cur.slot c (kRead c 2) kLdv (ldvAt c 6 2 0 j).toNat 64 = (st (j + 1), .ok (pl j)) ∧
        ((pl j).tgt = 8 → phaseOk (st (j + 1)) c .a true false (keyRow c (pl j).key) = true) ∧ strong (pl j) = false) ∧
      MayFork s c (fld (sRead c .a 6) 16 3) := by
  refine ⟨⟨_, kc, at_ kc .a, .copymc, ⟨rfl, (by decide +kernel)⟩, by decide +kernel, by unfold MayFork; decide +kernel⟩,
    ⟨_, dWrite kc .a 0 1023, at_ (dWrite kc .a 0 1023) .a, .gather, ⟨rfl, by decide +kernel⟩, (by decide +kernel), by unfold MayFork; decide +kernel, by decide +kernel⟩,
    ⟨_, copyCrew (4 + 2 ^ 63) 0, at_ (copyCrew (4 + 2 ^ 63) 0) .a, .copy, ⟨rfl, by decide +kernel⟩, (by decide +kernel), by decide +kernel⟩,
    ⟨_, copyCrew (4 + 2 ^ 40) 0, at_ (copyCrew (4 + 2 ^ 40) 0) .a, .scatter, ⟨rfl, by decide +kernel⟩, (by decide +kernel), by decide +kernel⟩,
    ⟨_, copyCrew 257 0, mo (copyCrew 257 0), 0x03, .copy, ⟨by decide +kernel, (by decide +kernel)⟩, by decide +kernel⟩,
    ⟨_, copyCrew 256 0, mo (copyCrew 256 0), _, .copy, ⟨by decide +kernel, (by decide +kernel)⟩, by decide +kernel, by decide +kernel, rfl,
      by unfold MayFork; decide +kernel⟩,
    ⟨_, dWrite (copyCrew 4 0) .a 0 1023, mo (dWrite (copyCrew 4 0) .a 0 1023), _, .copy, ⟨(by decide +kernel), by decide +kernel⟩, by decide +kernel,
      (by decide +kernel), rfl, by unfold MayFork; decide +kernel⟩,
    ⟨copyCrew (2 ^ 19) 0, at_ (copyCrew (2 ^ 19) 0) .a, ⟨rfl, by decide +kernel⟩, by decide +kernel⟩,
    ⟨copyCrew (768 + 2 ^ 10) 0, at_ (copyCrew (768 + 2 ^ 10) 0) .a, ⟨rfl, (by decide +kernel)⟩, by decide +kernel⟩, ?_⟩
  obtain ⟨s1, a, h, hp⟩ := reaches_of (s := mo (copyCrew (767 + 2 ^ 10) 0)) (c := copyCrew (767 + 2 ^ 10) 0)
    (f := ⟨0, 0, kRead (copyCrew (767 + 2 ^ 10) 0) 2, kLdv, 64, (ldvAt (copyCrew (767 + 2 ^ 10) 0) 6 2 0 0).toNat, true, false, strong⟩)
    (p := fun _ a => !strong a) (by decide +kernel)
  refine ⟨copyCrew (767 + 2 ^ 10) 0, mo (copyCrew (767 + 2 ^ 10) 0), fun j => if j = 0 then mo (copyCrew (767 + 2 ^ 10) 0) else s1, fun _ => a,
    ⟨by decide +kernel, (by decide +kernel)⟩, by decide +kernel, by decide +kernel, (by decide +kernel), by decide +kernel, by decide +kernel,
    (by decide +kernel), rfl, ?_, by unfold MayFork; decide +kernel⟩
  intro j hj
  obtain rfl : j = 0 := by omega
  exact ⟨by decide +kernel, h.1, h.2.1, by simpa using hp⟩


theorem test_meets_RowsByElement : ∃ w k : Nat, (w = 4 ∨ w = 8 ∨ w = 16 ∨ w = 32 ∨ w = 64) ∧ k < 512 / w ∧ k = 127 ∧ w = 4 := ⟨4, 127, by decide⟩

/-! VADD.f32 v1, v2, v3 of one repeat, VSEL and VRSUM; the same word from q0 and q7 into q4. -/

def va : VWord := ⟨false, 0, 8, 0, 1, 64, 128, 192, 0⟩
def vq : VWord := ⟨false, 0, 8, 0, 1, 2 ^ 16 + 8 * 64, 2 ^ 16, 2 * 2 ^ 16 + 5 * 64, 0⟩
theorem vready (c : Crew) (i : Instr) (h : active c .v = true) (hq : ∀ q ∈ vQueues i, peerActive c .v q = true) : VReady (at_ c .v) c i :=
  ⟨⟨rfl, h⟩, hq, rfl⟩

/-- An instruction of one repeat. -/
theorem one_repeat {s : State} {c : Crew} {i : Instr} {w : VWord} {body : VEnv → Instr → Crew → Crew → Prop} {c1 : Crew}
    (hn : FieldCheck.repOf w - c.vctx.vrep = 1) (hl : vWaitsForLdv s s.cur.core (started c w) (vRegsAt i (started c w).vctx.vrep) = false)
    (hr : isReversible i = true → vWaitsForMrdrain s s.cur.core (started c w) = false)
    (hb : body (envOf (started c w) w) i (started c w) c1) :
    Repeats s i w body (FieldCheck.repOf w - c.vctx.vrep) (started c w) (committed (started c w) c1) := by
  rw [hn]; exact .next hl hr hb .none

theorem spec_va {i : Instr} {sp : FieldCheck.VSpec} (h : FieldCheck.vspecOf i = some (va, sp)) :
    ∀ sp, FieldCheck.vspecOf i = some sp → sp.1 = va := by
  intro sp' h'
  rw [h] at h'
  cases h'
  rfl

theorem test_meets_VectorLanes : ∃ (s : State) (c c2 : Crew) (i : Instr) (w : VWord), VReady s c i ∧
    Repeats s i w LaneBody (FieldCheck.repOf w - c.vctx.vrep) (started c w) c2 ∧ FieldCheck.vspecOf i ≠ none ∧
      (∀ sp, FieldCheck.vspecOf i = some sp → sp.1 = w) ∧ c.vctx.vrep < FieldCheck.repOf w := by
  have h := one_repeat (s := at_ tc .v) (c := tc) (i := .vadd va) (w := va) (body := LaneBody) (by decide +kernel) (by decide +kernel)
    (by intro h; cases h) (.two .vadd (.reg rfl) (.reg rfl) (.reg rfl))
  exact ⟨at_ tc .v, tc, _, .vadd va, va, vready _ _ (by decide +kernel) (by decide +kernel), h, by decide, spec_va rfl, by decide +kernel⟩

/-- A popped row and a popped scalar, and a queue as the destination. -/
theorem test_meets_VectorLanes_queues : ∃ (s : State) (c c2 : Crew) (i : Instr) (w : VWord), VReady s c i ∧ vQueues i ≠ [] ∧
    Repeats s i w LaneBody (FieldCheck.repOf w - c.vctx.vrep) (started c w) c2 ∧ c.vctx.vrep < FieldCheck.repOf w := by
  have h := one_repeat (s := at_ (holds (holds tc 0 [entry 3]) 5 [entry 4]) .v) (c := holds (holds tc 0 [entry 3]) 5 [entry 4]) (i := .vmul vq)
    (w := vq) (body := LaneBody) (by decide +kernel) (by decide +kernel) (by intro h; cases h)
    (.two .vmul (.row rfl ⟨rfl, rfl, rfl⟩) (.scalar rfl (.once rfl rfl ⟨rfl, rfl, rfl⟩)) (.row rfl (by decide +kernel)))
  exact ⟨_, _, _, _, _, vready _ _ (by decide +kernel) (by decide +kernel), (by decide +kernel), h, by decide +kernel⟩

theorem test_meets_VectorMovesAndReductions :
    (∃ (s : State) (c c2 : Crew) (i : Instr) (w : VWord), VReady s c i ∧
      Repeats s i w MoveBody (FieldCheck.repOf w - c.vctx.vrep) (started c w) c2 ∧ FieldCheck.vspecOf i ≠ none ∧
        (∀ sp, FieldCheck.vspecOf i = some sp → sp.1 = w) ∧ c.vctx.vrep < FieldCheck.repOf w) ∧
    (∃ (s : State) (c c2 : Crew) (i : Instr) (w : VWord), VReady s c i ∧
      Repeats s i w ConvertBody (FieldCheck.repOf w - c.vctx.vrep) (started c w) c2 ∧ FieldCheck.vspecOf i ≠ none ∧
        (∀ sp, FieldCheck.vspecOf i = some sp → sp.1 = w) ∧ c.vctx.vrep < FieldCheck.repOf w) := by
  have h1 := one_repeat (s := at_ tc .v) (c := tc) (i := .vsel va) (w := va) (body := MoveBody) (by decide +kernel) (by decide +kernel)
    (by intro h; cases h) (.vsel (.reg rfl) (.reg rfl) (.reg rfl))
  have h2 := one_repeat (s := at_ tc .v) (c := tc) (i := .vrsum va) (w := va) (body := ConvertBody) (by decide +kernel) (by decide +kernel)
    (by intro h; cases h) (.reduce (.sumF32 (by decide)) (.reg rfl) (.reg rfl))
  exact ⟨⟨at_ tc .v, tc, _, .vsel va, va, vready _ _ (by decide +kernel) (by decide +kernel), h1, by decide, spec_va rfl, by decide +kernel⟩,
    ⟨at_ tc .v, tc, _, .vrsum va, va, vready _ _ (by decide +kernel) (by decide +kernel), h2, by decide, spec_va rfl, (by decide +kernel)⟩⟩

/-- An LDV of v1 to v4 still under way. -/
def loading (c : Crew) : Crew := { c with ops := [fresh (pk c) c 1 (1 + 4 * 2 ^ 10) 0 capS 0 0 false], strV := { c.strV with path := 64 } }
def vmq : VWord := ⟨false, 0, 8, 0, 3, 64 + 1, 2 ^ 16, 0, 0⟩

theorem test_meets_VectorRepeatsStop :
    (∃ (s : State) (c : Crew) (i : Instr) (w : VWord) (q : Nat) (rest : List Nat), Runs s .v c ∧ (∃ sp, FieldCheck.vspecOf i = some (w, sp)) ∧
      c.vctx.vrep < FieldCheck.repOf w ∧ vQueues i = q :: rest ∧ peerActive c .v q = false) ∧
    (∃ (s : State) (c c2 : Crew) (i : Instr) (w : VWord), Runs s .v c ∧ (∃ sp, FieldCheck.vspecOf i = some (w, sp)) ∧ c.vctx.vrep + 0 < FieldCheck.repOf w ∧
      VReady s c i ∧ Repeats s i w LaneBody 0 (started c w) c2 ∧ vWaitsForLdv s s.cur.core c2 (vRegsAt i c2.vctx.vrep) = true) ∧
    (∃ (s : State) (c c2 : Crew) (i : Instr) (w : VWord), Runs s .v c ∧ (∃ sp, FieldCheck.vspecOf i = some (w, sp)) ∧ c.vctx.vrep + 1 < FieldCheck.repOf w ∧
      VReady s c i ∧ (∃ f, Lane1 w i f) ∧ Repeats s i w LaneBody 1 (started c w) c2 ∧
      vWaitsForLdv s s.cur.core c2 (vRegsAt i c2.vctx.vrep) = false ∧ FieldCheck.dMode w.d1 = 1 ∧ queueOf c2 (FieldCheck.dBase w.d1 % 16) = []) := by
  refine ⟨⟨_, { tc with eng := 6 }, .vmul vq, vq, _, _, runs_at (e := .v) (by decide +kernel), ⟨_, rfl⟩, by decide +kernel, rfl, by decide +kernel⟩,
    ⟨at_ (loading tc) .v, loading tc, _, .vadd va, va, ⟨rfl, (by decide +kernel)⟩, ⟨_, rfl⟩, by decide +kernel,
      vready _ _ (by decide +kernel) (by decide +kernel), .none, by decide +kernel⟩, ?_⟩
  have h : Repeats (at_ (holds tc 0 [entry 3]) .v) (.vmov vmq) vmq LaneBody 1 (started (holds tc 0 [entry 3]) vmq) _ :=
    .next (by decide +kernel) (by intro h; cases h) (.one .vmov (.row rfl ⟨rfl, rfl, rfl⟩) (.reg rfl)) .none
  exact ⟨_, holds tc 0 [entry 3], _, .vmov vmq, vmq, ⟨rfl, (by decide +kernel)⟩, ⟨_, rfl⟩, by decide +kernel,
    vready _ _ (by decide +kernel) (by decide +kernel), ⟨_, .vmov⟩, h, by decide +kernel, (by decide +kernel), by decide +kernel⟩

/-- One row of RADD.f32 on the stack; a stack with room for one row. -/
def oneResidue : Crew := pushRow tc 0 (mkTag RevOp.add.cls 8 16 false)
def almostFull : Crew := { tc with rem := { tc.rem with rdepth := 4095 } }
/-- RDROP of mark 9, with that mark on the stack below a residue row. -/
def vmark : VWord := ⟨false, 0, 0, 0, 1, 0, 0, 3 * 2 ^ 16 + 9 * 64, 0⟩

/-- v1, a source of the VADD, is poisoned. -/
theorem test_meets_VectorRepeatsStop_poison : ∃ (s : State) (c : Crew) (i : Instr) (w : VWord), Runs s .v c ∧ (∃ sp, FieldCheck.vspecOf i = some (w, sp)) ∧
    c.vctx.vrep + 0 < FieldCheck.repOf w ∧ (∀ q ∈ vQueues i, peerActive c .v q = true) ∧
    vWaitsForLdv s s.cur.core (started c w) (vRegsAt i c.vctx.vrep) = false ∧ isReversible i = false ∧
    ∃ r ∈ vReads i c.vctx.vrep, unitPoisoned s s.cur.core s.cur.slot 0 r = true :=
  ⟨{ at_ tc .v with host := { (at_ tc .v).host with poison := (vReads (.vadd va) 0).map fun r => (1, crewUnit 0 0 0 r) } }, tc, .vadd va, va, ⟨rfl, by decide +kernel⟩,
    ⟨_, rfl⟩, (by decide +kernel), by decide +kernel, by decide +kernel, rfl, _, List.mem_of_mem_head? (a := (vReads (.vadd va) 0).headD 0) (by decide +kernel),
    (by decide +kernel)⟩

/-- A repeat of RADD, and what it leaves. -/
def forwardAdd (s : State) (v : VEnv) (c : Crew) (h : stackRoom s c 2 = none) : { c' : Crew // RevBody s v (.radd v.w) c c' } :=
  ⟨_, .forward (fun k => revLane .add (fmtOf v.ty) (slopeOf v.w.d2) (revX c v .add k) (revA c v .add k) (revB c v .add k)) .radd h (fun _ => rfl) (fun _ => rfl)⟩

theorem test_meets_ReversibleRepeats :
    (∃ (s : State) (c c2 : Crew) (i : Instr) (w : VWord), VReady s c i ∧ c.vctx.vrep < FieldCheck.repOf w ∧ Forward w i .add ∧
      Repeats s i w (RevBody s) (FieldCheck.repOf w - c.vctx.vrep) (started c w) c2) ∧
    (∃ (s : State) (c c2 : Crew) (i : Instr) (w : VWord), VReady s c i ∧ c.vctx.vrep < FieldCheck.repOf w ∧ Undo w i .add ∧
      Repeats s i w (RevBody s) (FieldCheck.repOf w - c.vctx.vrep) (started c w) c2) ∧
    ∃ (s : State) (c c2 : Crew) (i : Instr) (w : VWord), VReady s c i ∧ c.vctx.vrep < FieldCheck.repOf w ∧ i = .rdrop w ∧
      Repeats s i w (RevBody s) (FieldCheck.repOf w - c.vctx.vrep) (started c w) c2 := by
  have h1 := one_repeat (s := at_ tc .v) (c := tc) (i := .radd va) (w := va) (body := RevBody (at_ tc .v)) (by decide +kernel) (by decide +kernel)
    (by decide +kernel) (forwardAdd _ _ _ (by decide +kernel)).2
  have h2 := one_repeat (s := at_ oneResidue .v) (c := oneResidue) (i := .unadd va) (w := va) (body := RevBody (at_ oneResidue .v)) (by decide +kernel)
    (by decide +kernel) (by decide +kernel) (.undo 1 false _ .unadd (by rfl) (by intro h; cases h) (fun _ _ => rfl))
  have h3 := one_repeat (s := at_ (pushRow (pushRow tc 0 (9 * 32)) 0 (mkTag 1 8 16 false)) .v) (c := pushRow (pushRow tc 0 (9 * 32)) 0 (mkTag 1 8 16 false))
    (i := .rdrop vmark) (w := vmark) (body := RevBody (at_ (pushRow (pushRow tc 0 (9 * 32)) 0 (mkTag 1 8 16 false)) .v)) (by decide +kernel)
    (by decide +kernel) (by decide +kernel) (.rdrop (p := 0) (by decide +kernel) ⟨288, by decide +kernel, by decide, by decide⟩ (by
      intro r hr h2
      have : r < 2 := h2
      obtain rfl : r = 1 := by omega
      exact ⟨mkTag 1 8 16 false, by decide +kernel, by decide⟩))
  exact ⟨⟨at_ tc .v, tc, _, _, va, vready _ _ (by decide +kernel) (by decide +kernel), (by decide +kernel), .radd, h1⟩,
    ⟨_, oneResidue, _, _, va, vready _ _ (by decide +kernel) (by decide +kernel), by decide +kernel, .unadd, h2⟩,
    ⟨_, _, _, _, vmark, vready _ _ (by decide +kernel) (by decide +kernel), by decide +kernel, rfl, h3⟩⟩

/-- V of the crew stands before a reversible instruction of one repeat, and neither an LDV nor an MRDRAIN keeps it back. -/
def RevAt (s : State) (c : Crew) (i : Instr) : Prop :=
  Runs s .v c ∧ c.vctx.vrep < FieldCheck.repOf va ∧ (∀ q ∈ vQueues i, peerActive c .v q = true) ∧ isReversible i = true ∧ FieldCheck.vspecOf i ≠ none ∧
    (∀ sp, FieldCheck.vspecOf i = some sp → sp.1 = va) ∧ vWaitsForLdv s s.cur.core (started c va) (vRegsAt i c.vctx.vrep) = false ∧
    vWaitsForMrdrain s s.cur.core (started c va) = false
/-- With this unit of the crew's storage poisoned, and with a spill area of 64 rows. -/
def tainted (s : State) (kind idx : Nat) : State := { s with host := { s.host with poison := [(1, crewUnit 0 0 kind idx)] } }
def spacious (c : Crew) : State := { pk c { tl with rem := 1 } with cur := ⟨0, 0, .v⟩ }

theorem test_meets_ReversibleRepeats_stops :
    (∃ s c i, RevAt s c i ∧ Undo va i .add ∧ c.rem.rdepth = 0) ∧
    (∃ s c i r, RevAt s c i ∧ Undo va i .add ∧ undoCheck c .add (envOf (started c va) va).ty (min (envOf (started c va) va).n 16) = .ok r ∧
      unitPoisoned s s.cur.core s.cur.slot 3 (c.rem.rdepth - 1 - 0) = true) ∧
    (∃ s c i, RevAt s c i ∧ Forward va i .add ∧ windowRows - inWindowRows c + (spillCap s c - c.rem.rspill) = 1) ∧
    (∃ s c i, RevAt s c i ∧ Forward va i .add ∧ windowRows - inWindowRows c = 1 ∧ spillCap s c - c.rem.rspill = 64) ∧
    ∃ s c i, RevAt s c i ∧ Forward va i .add ∧ 2 ≤ windowRows - inWindowRows c ∧ ∃ d ∈ revSources va .add, unitPoisoned s s.cur.core s.cur.slot 0 (dRegNo d c.vctx.vrep) = true := by
  have ok : ∀ (s : State) (c : Crew) (i : Instr), crewAt s s.cur.core s.cur.slot = some c → active c .v = true → c.vctx.vrep < FieldCheck.repOf va →
      vQueues i = [] → isReversible i = true → FieldCheck.vspecOf i ≠ none → (∀ sp, FieldCheck.vspecOf i = some sp → sp.1 = va) →
      vWaitsForLdv s s.cur.core (started c va) (vRegsAt i c.vctx.vrep) = false → vWaitsForMrdrain s s.cur.core (started c va) = false → RevAt s c i :=
    fun _ _ _ h1 h2 h3 h4 h5 h6 h7 h8 h9 => ⟨⟨h1, h2⟩, h3, by rw [h4]; exact fun _ h => absurd h (List.not_mem_nil), h5, h6, h7, h8, h9⟩
  refine ⟨⟨at_ tc .v, tc, .unadd va, ok _ _ _ rfl ?_ ?_ ?_ ?_ ?_ (spec_va rfl) ?_ ?_, .unadd, rfl⟩,
    ⟨tainted (at_ oneResidue .v) 3 0, oneResidue, .unadd va, (1, false), ok _ _ _ rfl ?_ ?_ ?_ ?_ ?_ (spec_va rfl) ?_ ?_, .unadd, by rfl, (by decide +kernel)⟩,
    ⟨at_ almostFull .v, almostFull, .radd va, ok _ _ _ rfl ?_ ?_ ?_ ?_ ?_ (spec_va rfl) ?_ ?_, .radd, by decide +kernel⟩,
    ⟨spacious almostFull, almostFull, .radd va, ok _ _ _ rfl ?_ ?_ ?_ ?_ ?_ (spec_va rfl) ?_ ?_, .radd, by decide +kernel⟩,
    ⟨tainted (at_ tc .v) 0 3, tc, .radd va, ok _ _ _ rfl ?_ ?_ ?_ ?_ ?_ (spec_va rfl) ?_ ?_, .radd, (by decide +kernel), 192, by decide, by decide +kernel⟩⟩ <;>
    first | decide +kernel | decide

theorem ok_of {ε α : Type} {o : Except ε α} {x : α} (h : o.toOption = some x) : o = .ok x := by
  cases o with
  | ok y => cases h; rfl
  | error e => cases h

/-- RADD of v2 and v3 into v1, and UNADD of v1 and v3 into v2, on what the first leaves. -/
def vback : VWord := ⟨false, 0, 8, 0, 1, 128, 64, 192, 0⟩
theorem test_meets_ReversibleRepeats_restores : ∃ (s t : State) (v u : VEnv) (i j : Instr) (c c1 e : Crew), Forward v.w i .add ∧ Undo u.w j .add ∧
    RevTypes v .add ∧ RevBody s v i c c1 ∧ c.rem.rspill ≤ c.rem.rdepth ∧ Matches v u .add c c1 c1 ∧ RevBody t u j c1 e := by
  have h := (forwardAdd (at_ tc .v) (envOf (started tc va) va) (started tc va) (by decide +kernel)).2
  refine ⟨_, at_ tc .v, _, { envOf (started tc va) va with w := vback }, _, .unadd vback, _, _, _, .radd, .unadd, ⟨.inr (.inr ⟨by decide, by decide⟩), by intro h; cases h⟩, h, by decide +kernel,
    ⟨rfl, rfl, rfl, fun _ => rfl, rfl, rfl, fun h => (by cases h), fun _ => ?_⟩, .undo 1 false _ .unadd (ok_of (by decide +kernel)) (by intro h; cases h) (fun _ _ => rfl)⟩
  decide +kernel


/-! MSTEP of one group of 16 slices of E4M3 on counter 1, its format word at the head of q9; the same at each of its stops. -/

def ms : MWord := ⟨0, true, false, 0, 0, 1, 2 ^ 14, 1, 16, false, 0, false, 0, false, false, 0⟩
def fw8 : Word := 0x56B0
def mcr : Crew := holds tc 9 [entry 0x56B0, entry 7]

theorem error_of {α : Type} {o : Except Nat α} {n : Nat} (h : (match o with | .error x => x == n | .ok _ => false) = true) : o = .error n := by
  split at h
  · simpa using h
  · cases h

/-- The same command latched, before its first group. -/
def underway : Crew := { mcr with mctx := { mcr.mctx with fw := some fw8 } }

theorem exists_ok {ε α : Type} {o : Except ε α} (h : o.toOption.isSome = true) : ∃ x, o = .ok x := by
  cases o with
  | ok x => exact ⟨x, rfl⟩
  | error e => cases h

theorem mstep_once (s : State) (c : Crew) (h0 : c.mctx.mprog = 0) : ∃ t d, MRuns .step ms fw8 (mUnits .step ms fw8 - c.mctx.mprog) s c t d := by
  have hu : mUnits .step ms fw8 = 1 := by decide +kernel
  have hq : ms.aq = false := rfl
  rw [hu, h0]
  exact ⟨_, _, .next (.step ⟨16, 12, false⟩ [] c (by decide) (by decide +kernel) (by rw [hq]; rfl) _ (fun _ _ => rfl)) .none⟩

theorem test_meets_MatrixCommands :
    (∃ (s : State) (c : Crew) (i : Instr) (k : MKind) (w : MWord), MatrixForm w i k ∧ Runs s .m c ∧
      ∃ fw c1 t d, s.host.poison = [] ∧ MRuns k w fw (mUnits k w fw - c1.mctx.mprog) s c1 t d ∧
        (c.mctx.fw = none ∧ (k = .rdrain → mrdrainWaitsForV s s.cur.core c = false) ∧ ∃ e rest g sc, HasData c 9 e rest ∧
          fw = e.data.setWidth 64 ∧ fwValid k w c fw = true ∧ mChecks s s.cur.core c k w fw = .ok (g, sc) ∧
          dRead c .m (fwDc fw) < 1023 ∧ c1 = latched c k w rest fw g sc)) ∧
    (∃ (s : State) (c : Crew) (i : Instr) (k : MKind) (w : MWord), MatrixForm w i k ∧ Runs s .m c ∧
      ∃ fw c1 t d, s.host.poison = [] ∧ MRuns k w fw (mUnits k w fw - c1.mctx.mprog) s c1 t d ∧ c.mctx.fw = some fw ∧ c1 = c) ∧
    (∃ (s : State) (c : Crew) (i : Instr) (k : MKind) (w : MWord), MatrixForm w i k ∧ Runs s .m c ∧ c.mctx.fw = none ∧ k ≠ .rdrain ∧
      queueOf c 9 = [] ∧ cPassed c = false) ∧
    (∃ (s : State) (c : Crew) (i : Instr) (k : MKind) (w : MWord), MatrixForm w i k ∧ Runs s .m c ∧ c.mctx.fw = none ∧ k ≠ .rdrain ∧
      queueOf c 9 = [] ∧ cPassed c = true) ∧
    (∃ (s : State) (c : Crew) (i : Instr) (k : MKind) (w : MWord) (e : QEntry) (rest : List QEntry), MatrixForm w i k ∧ Runs s .m c ∧
      c.mctx.fw = none ∧ k ≠ .rdrain ∧ HasData c 9 e rest ∧ fwValid k w c (e.data.setWidth 64) = false) ∧
    (∃ (s : State) (c : Crew) (i : Instr) (k : MKind) (w : MWord) (e : QEntry) (rest : List QEntry) (x : Nat), MatrixForm w i k ∧ Runs s .m c ∧
      c.mctx.fw = none ∧ k ≠ .rdrain ∧ HasData c 9 e rest ∧ fwValid k w c (e.data.setWidth 64) = true ∧
      mChecks s s.cur.core c k w (e.data.setWidth 64) = .error x) ∧
    (∃ (s : State) (c : Crew) (i : Instr) (k : MKind) (w : MWord) (e : QEntry) (rest : List QEntry) (l : Sp 16 × Sp 16), MatrixForm w i k ∧
      Runs s .m c ∧ c.mctx.fw = none ∧ k ≠ .rdrain ∧ HasData c 9 e rest ∧ fwValid k w c (e.data.setWidth 64) = true ∧
      mChecks s s.cur.core c k w (e.data.setWidth 64) = .ok l ∧ 1023 = dRead c .m (fwDc (e.data.setWidth 64))) := by
  obtain ⟨⟨g, sc⟩, hc⟩ := exists_ok (o := mChecks (at_ mcr .m) 0 mcr .step ms fw8) (by decide +kernel)
  obtain ⟨l, hl⟩ := exists_ok (o := mChecks (at_ (dWrite mcr .m 1 1023) .m) 0 (dWrite mcr .m 1 1023) .step ms fw8) (by decide +kernel)
  have hfw : (entry 0x56B0).data.setWidth 64 = fw8 := by decide +kernel
  obtain ⟨t, d, h1⟩ := mstep_once (at_ mcr .m) (latched mcr .step ms [entry 7] fw8 g sc) rfl
  obtain ⟨t2, d2, hm⟩ := mstep_once (at_ underway .m) underway rfl
  refine ⟨⟨at_ mcr .m, mcr, _, .step, ms, .mstep, ⟨rfl, (by decide +kernel)⟩, fw8, _, _, _, rfl,
      h1, rfl, (by intro h; cases h), entry 0x56B0, [entry 7], g, sc, ⟨rfl, rfl, rfl⟩, hfw.symm,
      by decide +kernel, hc, by decide +kernel, rfl⟩,
    ⟨at_ underway .m, _, _, .step, ms, .mstep, ⟨rfl, (by decide +kernel)⟩, fw8, _, _, _, rfl, hm, rfl, rfl⟩,
    ⟨_, tc, _, .step, ms, .mstep, runs_at (e := .m) (by decide +kernel), rfl, by decide, rfl, by decide +kernel⟩,
    ⟨_, { tc with strC := { tc.strC with pc := 4 } }, _, .step, ms, .mstep, runs_at (e := .m) (by decide +kernel), rfl, by decide, rfl, by decide +kernel⟩,
    ⟨_, holds tc 9 [entry 1], _, .step, ms, _, _, .mstep, runs_at (e := .m) (by decide +kernel), rfl, by decide, ⟨rfl, rfl, rfl⟩, (by decide +kernel)⟩,
    ⟨_, mcr, _, .step, { ms with strideA := 2 }, _, _, 0x08, .mstep, runs_at (e := .m) (by decide +kernel), rfl, by decide, ⟨rfl, rfl, rfl⟩,
      by decide +kernel, error_of (by decide +kernel)⟩,
    ⟨at_ (dWrite mcr .m 1 1023) .m, _, _, .step, ms, entry 0x56B0, [entry 7], l, .mstep, ⟨rfl, by decide +kernel⟩, rfl, by decide, ⟨rfl, rfl, rfl⟩,
      (by decide +kernel), by rw [hfw]; exact hl, by decide +kernel⟩⟩

/-- A turn that serves no boundary of the command; a command whose A or DQ endpoint is inactive. -/
theorem test_meets_MatrixCommands_stops :
    (∃ (s : State) (c : Crew) (i : Instr) (k : MKind) (w : MWord) (fw : Word) (n : Nat), MatrixForm w i k ∧ Runs s .m c ∧ s.host.poison = [] ∧
      MRuns k w fw n s c s c ∧ c.mctx.fw = some fw ∧ n < mUnits k w fw - c.mctx.mprog ∧ s.part = some n) ∧
    ∃ (s : State) (c : Crew) (i : Instr) (k : MKind) (w : MWord) (e : QEntry) (rest : List QEntry), MatrixForm w i k ∧ Runs s .m c ∧
      c.mctx.fw = none ∧ k ≠ .rdrain ∧ HasData c 9 e rest ∧ fwValid k w c (e.data.setWidth 64) = true ∧
      mChecks s s.cur.core c k w (e.data.setWidth 64) = .error 0x0B ∧ w.aq = true ∧ active c .a = false :=
  ⟨⟨{ at_ underway .m with part := some 0 }, underway, _, .step, ms, fw8, 0, .mstep, ⟨rfl, by decide +kernel⟩, rfl, .none, rfl, (by decide +kernel), rfl⟩,
   ⟨_, { mcr with eng := 0x1E }, _, .step, { ms with aq := true }, _, _, .mstep, runs_at (e := .m) (by decide +kernel), rfl, by decide, ⟨rfl, rfl, rfl⟩,
     by decide +kernel, error_of (by decide +kernel), rfl, by decide +kernel⟩⟩


/-! The scan engine: an instruction issued now, one under way, and each of its stops. -/

def sw1 : SWord := ⟨0, 0, 1, 0, false, false, 0, 0, 0, 4⟩
/-- The same with its row operand at the head of q5, and with q4 named. -/
def swx : SWord := { sw1 with xq := true }
def swq : SWord := { sw1 with qe := true, q := 13 }
/-- The crew once an instruction of S is issued. -/
def issuedS (c : Crew) : Crew :=
  dWrite { c with sctx := { active := true, sprog := 0, flags := 0, rowX := none } } .s 0 (dRead c .s 0 + 1)
theorem s_issues {s : State} {c : Crew} {k : SKind} (hc : sChecks s s.cur.core c k sw1 0 = none) (hd : dRead c .s 0 < 1023) :
    SIssues s c k sw1 (issuedS c) :=
  ⟨0, none, c, by intro h; (cases h), .field rfl, hc, hd, rfl⟩
/-- A STEP with its tile and parameters ready; an SZERO under way. -/
def underS : Crew := { tc with sctx := { active := true, sprog := 0, flags := 0, rowX := none } }

theorem test_meets_ScanInstructions :
    (∃ (s : State) (c c1 : Crew) (i : Instr) (k : SKind) (w : SWord) (t : State) (d : Crew), ScanForm w i k ∧ Runs s .s c ∧ s.host.poison = [] ∧
      c.sctx.active = false ∧ SIssues s c k w c1 ∧ SRuns k w (sUnits k c1 w - c1.sctx.sprog) s c1 t d ∧ i = .step w) ∧
    (∃ (s : State) (c : Crew) (i : Instr) (k : SKind) (w : SWord) (t : State) (d : Crew), ScanForm w i k ∧ Runs s .s c ∧ s.host.poison = [] ∧
      c.sctx.active = true ∧ SRuns k w (sUnits k c w - c.sctx.sprog) s c t d) ∧
    (∃ (s : State) (c : Crew) (i : Instr) (k : SKind) (w : SWord), ScanForm w i k ∧ Runs s .s c ∧ c.sctx.active = false ∧
      w.qe = true ∧ peerActive c .s w.q.toNat = false) ∧
    (∃ (s : State) (c : Crew) (i : Instr) (k : SKind) (w : SWord), ScanForm w i k ∧ Runs s .s c ∧ c.sctx.active = false ∧ w.qe = false ∧
      w.xq = true ∧ queueOf c 5 = []) ∧
    (∃ (s : State) (c : Crew) (i : Instr) (k : SKind) (w : SWord) (e : QEntry) (rest : List QEntry), ScanForm w i k ∧ Runs s .s c ∧
      c.sctx.active = false ∧ w.qe = false ∧ w.xq = true ∧ HasData c 5 e rest ∧ k = .read ∧ 2 ^ 7 = e.data.toNat % 2 ^ 64) ∧
    (∃ (s : State) (c : Crew) (i : Instr) (k : SKind) (w : SWord) (e : QEntry) (rest : List QEntry), ScanForm w i k ∧ Runs s .s c ∧
      c.sctx.active = false ∧ w.qe = false ∧ w.xq = true ∧ HasData c 5 e rest ∧ k = .zero ∧ 2 ^ 15 = e.data.toNat % 2 ^ 64) ∧
    (∃ (s : State) (c : Crew) (i : Instr) (k : SKind) (w : SWord) (f : Nat), ScanForm w i k ∧ Runs s .s c ∧ c.sctx.active = false ∧ w.qe = false ∧
      RowOperand c k w 0 none c ∧ sChecks s s.cur.core c k w 0 = some f) ∧
    (∃ (s : State) (c c0 : Crew) (i : Instr) (k : SKind) (w : SWord), ScanForm w i k ∧ Runs s .s c ∧ c.sctx.active = false ∧ w.qe = false ∧
      RowOperand c k w 3 (some 3) c0 ∧ sChecks s s.cur.core c0 k w 3 = none ∧ dRead c .s 0 = 1023) := by
  have hu : sUnits .step (issuedS tc) sw1 - (issuedS tc).sctx.sprog = 1 := by decide +kernel
  have h1 : SRuns .step sw1 1 (at_ tc .s) (issuedS tc) _ _ :=
    .next (.inl ⟨(by decide +kernel), rfl⟩) (by decide +kernel) (.state sw1.h.toNat 0 _ (.inl ⟨rfl, rfl, rfl, rfl⟩) (.off (by decide +kernel))) .none
  have h2 : SRuns .zero sw1 1 (at_ underS .s) underS _ _ := .next (.inl ⟨by decide +kernel, rfl⟩) (by decide +kernel) .zero .none
  refine ⟨⟨at_ tc .s, tc, issuedS tc, _, .step, sw1, _, _, .step, ⟨rfl, by decide +kernel⟩, rfl, rfl, s_issues (by decide +kernel) (by decide +kernel),
      by rw [hu]; exact h1, rfl⟩,
    ⟨at_ underS .s, underS, _, .zero, sw1, _, _, .szero, ⟨rfl, (by decide +kernel)⟩, rfl, rfl, h2⟩,
    ⟨_, { tc with eng := 0x1E }, _, .load, swq, .sload, runs_at (e := .s) (by decide +kernel), rfl, rfl, by decide +kernel⟩,
    ⟨_, tc, _, .load, swx, .sload, runs_at (e := .s) (by decide +kernel), rfl, rfl, rfl, rfl⟩,
    ⟨_, holds tc 5 [entry 128], _, .read, swx, _, _, .sread, runs_at (e := .s) (by decide +kernel), rfl, rfl, rfl, ⟨rfl, rfl, rfl⟩, rfl, by decide +kernel⟩,
    ⟨_, holds tc 5 [entry (2 ^ 15)], _, .zero, swx, _, _, .szero, runs_at (e := .s) (by decide +kernel), rfl, rfl, rfl, ⟨rfl, rfl, rfl⟩, rfl, (by decide +kernel)⟩,
    ⟨_, tc, _, .agg, { sw1 with h := 15 }, 0x02, .sagg, runs_at (e := .s) (by decide +kernel), rfl, rfl, .field rfl, by decide +kernel⟩, ?_⟩
  · have hc : HasData (holds (dWrite tc .s 0 1023) 5 [entry 3]) 5 (entry 3) [] := ⟨rfl, rfl, rfl⟩
    have hr : RowOperand (holds (dWrite tc .s 0 1023) 5 [entry 3]) .load swx ((entry 3).data.toNat % 2 ^ 64)
        (some ((entry 3).data.toNat % 2 ^ 64)) (popped (holds (dWrite tc .s 0 1023) 5 [entry 3]) 5 []) := .entry rfl hc (by decide +kernel)
    rw [show (entry 3).data.toNat % 2 ^ 64 = 3 by decide +kernel] at hr
    exact ⟨at_ (holds (dWrite tc .s 0 1023) 5 [entry 3]) .s, _, _, _, .load, swx, .sload, ⟨rfl, by decide +kernel⟩, rfl, rfl, hr, (by decide +kernel),
      by decide +kernel⟩

/-! A scan group of two chunks: rank 0 on die `d0`, rank 1 on die 0 or 1. -/

def gl : Launch := { tl with levels := [⟨2, 0, 0⟩], scanl := some 1 }
def gc (r : Nat) : Crew := freshCrew gl r 0
def home (s : State) (r die : Nat) : State :=
  { s with fabric := { s.fabric with homes := spSet s.fabric.homes r (BitVec.ofNat 16 (die + 1)) } }
def gs (c : Crew) (l : Launch := gl) : State := home { pk c l with cur := ⟨0, 0, .s⟩ } c.rank 0
/-- The same with one exchange on die 0. -/
def gx (c : Crew) (x : Exchange) : State := { gs c with fabric := { (gs c).fabric with exchanges := [x] } }
/-- An exchange that a member has opened. -/
def ox : Exchange := { freshExchange 0 0 0 0 with opened := true }
/-- A member that has contributed to exchange 0 and waits. -/
def waitingS (r : Nat) : Crew := { gc r with exchNo := 1, sctx := { active := true, sprog := 1, flags := 0, rowX := none } }
/-- An acting CRECV that waits, and the last packet of a list of one entry. -/
def recvS : Crew := { gc 1 with sctx := { active := true, sprog := 1, flags := 0, rowX := none } }
def lastPacket : CarryPacket := { packetOf (pk tc) gl ox with nentry := 1, npkt := 1, w := 2 }

theorem gs_issues (k : SKind) {c : Crew} {l : Launch} (hc : sChecks (gs c l) 0 c k sw1 0 = none) (ha : c.sctx.active = false) (he : active c .s = true)
    (hd : dRead c .s 0 < 1023) (hg : (groupOf (gs c l) (issuedS c)).isSome = true) : NetReady (gs c l) c k sw1 (issuedS c) :=
  ⟨⟨rfl, he⟩, .inr ⟨ha, hg, s_issues hc hd⟩⟩

theorem test_meets_ScanStops :
    (∃ (s : State) (c c1 : Crew) (k : SKind) (w : SWord) (n : Nat), Runs s .s c ∧ SReady s c k w c1 ∧ SRuns k w n s c1 s c1 ∧
      n < sUnits k c1 w - c1.sctx.sprog ∧ Divisible k ∧ s.part = some n) ∧
    (∃ (s : State) (c c1 c0 : Crew) (k : SKind) (w : SWord), Runs s .s c ∧ s.host.poison = [] ∧ SReady s c k w c1 ∧ SRuns k w 0 s c1 s c1 ∧
      0 < sUnits k c1 w - c1.sctx.sprog ∧ s.part = none ∧ VectorRead s k w c1 c0 ∧ unitPhaseOk s c0 k w = false) :=
  ⟨⟨{ at_ underS .s with part := some 0 }, underS, underS, .load, sw1, 0, ⟨rfl, by decide +kernel⟩, .inl ⟨rfl, rfl⟩, .none, (by decide +kernel),
      .inr (.inr (.inr (.inl rfl))), rfl⟩,
    ⟨pkT { phasedCrew with sctx := underS.sctx } 0x00000000_00010000_00000000_00010000 .s, { phasedCrew with sctx := underS.sctx }, _, _, .load, { sw1 with nsel := 0 },
      ⟨rfl, by decide +kernel⟩, rfl, .inl ⟨rfl, rfl⟩, .none, by decide +kernel, rfl, .inl ⟨(by decide +kernel), rfl⟩, by decide +kernel⟩⟩

theorem test_meets_NetworkAndCarries_snet :
    (∃ (s : State) (c c1 : Crew) (w : SWord), Runs s .s c ∧ c.sctx.active = false ∧ SIssues s c .net w c1 ∧ groupOf s c1 = none) ∧
    (∃ (s : State) (c c1 : Crew) (w : SWord) (l : Launch) (g idx inst : Nat), NetReady s c .net w c1 ∧ Member s c1 l g idx inst ∧ g = 1) ∧
    (∃ (s : State) (c c1 : Crew) (w : SWord) (l : Launch) (g idx inst : Nat), NetReady s c .net w c1 ∧ Member s c1 l g idx inst ∧ g = 2 ∧
      c1.sctx.sprog = 0 ∧
      (∀ y ∈ s.fabric.exchanges, y.die = dieOf s.cur.core → y.launch = l.id → y.inst = inst → y.exch ≠ c1.exchNo → y.opened = false) ∧
      ∀ y, exchangeAt s (dieOf s.cur.core) l.id inst c1.exchNo = some y → y.failed = 0) ∧
    (∃ (s : State) (c c1 : Crew) (w : SWord) (l : Launch) (g idx inst : Nat) (x : Exchange), NetReady s c .net w c1 ∧ Member s c1 l g idx inst ∧
      g = 2 ∧ c1.sctx.sprog ≠ 0 ∧ exchangeAt s (dieOf s.cur.core) l.id inst (c1.exchNo - 1) = some x ∧ x.failed ≠ 0) ∧
    (∃ (s : State) (c c1 : Crew) (w : SWord) (l : Launch) (g idx inst : Nat) (x : Exchange), NetReady s c .net w c1 ∧ Member s c1 l g idx inst ∧
      g = 2 ∧ c1.sctx.sprog ≠ 0 ∧ exchangeAt s (dieOf s.cur.core) l.id inst (c1.exchNo - 1) = some x ∧ x.failed = 0 ∧ ∀ k ∈ x.kept, k.1 ≠ c1.rank) ∧
    (∃ (s : State) (c c1 : Crew) (w : SWord) (l : Launch) (g idx inst : Nat) (x : Exchange) (write : Bool) (agg : Sp 32), NetReady s c .net w c1 ∧
      Member s c1 l g idx inst ∧ g = 2 ∧ c1.sctx.sprog ≠ 0 ∧ exchangeAt s (dieOf s.cur.core) l.id inst (c1.exchNo - 1) = some x ∧ x.failed = 0 ∧
      s.host.poison = [] ∧ carryBads x c1.rank = [] ∧ x.kept.find? (fun k => decide (k.1 = c1.rank)) = some (c1.rank, write, agg)) ∧
    (∃ (s : State) (c c1 : Crew) (w : SWord) (l : Launch) (g idx inst : Nat) (x : Exchange) (agg : Sp 32), NetReady s c .net w c1 ∧
      Member s c1 l g idx inst ∧ g = 2 ∧ c1.sctx.sprog ≠ 0 ∧ exchangeAt s (dieOf s.cur.core) l.id inst (c1.exchNo - 1) = some x ∧ x.failed = 0 ∧
      127 ∈ carryBads x c1.rank ∧ x.kept.find? (fun k => decide (k.1 = c1.rank)) = some (c1.rank, true, agg)) := by
  have hw (x : Exchange) : NetReady (gx (waitingS 1) x) (waitingS 1) .net sw1 (waitingS 1) := ⟨⟨rfl, by decide +kernel⟩, .inl ⟨rfl, rfl⟩⟩
  exact ⟨⟨at_ tc .s, tc, _, sw1, ⟨rfl, (by decide +kernel)⟩, rfl, s_issues (by decide +kernel) (by decide +kernel), by decide +kernel⟩,
    ⟨gs (gc 0) { gl with scanl := some 0 }, gc 0, _, sw1, _, 1, 0, 0, gs_issues .net (by decide +kernel) rfl (by decide +kernel) (by decide +kernel) (by decide +kernel),
      ⟨rfl, by decide +kernel⟩, rfl⟩,
    ⟨gs (gc 1), gc 1, _, sw1, gl, 2, 1, 0, gs_issues .net (by decide +kernel) rfl (by decide +kernel) (by decide +kernel) (by decide +kernel),
      ⟨rfl, (by decide +kernel)⟩, rfl, rfl, (by intro y hy; cases hy), (by intro y hy; cases hy)⟩,
    ⟨_, _, _, sw1, gl, 2, 1, 0, _, hw { ox with failed := 0x14 }, ⟨rfl, by decide +kernel⟩, rfl, by decide, by rfl, by decide⟩,
    ⟨_, _, _, sw1, gl, 2, 1, 0, _, hw ox, ⟨rfl, by decide +kernel⟩, rfl, by decide, by rfl, by decide, (by intro k hk; cases hk)⟩,
    ⟨_, _, _, sw1, gl, 2, 1, 0, _, true, _, hw { ox with kept := [(1, true, [(7, 9)])] }, ⟨rfl, (by decide +kernel)⟩, rfl, by decide, by rfl, by decide, rfl, rfl, by rfl⟩,
    ⟨_, _, _, sw1, gl, 2, 1, 0, _, _, hw { ox with kept := [(1, true, [(7, 9)])], bads := [(1, [127])] }, ⟨rfl, by decide +kernel⟩, rfl, by decide, by rfl, by decide,
      by decide, by rfl⟩⟩

/-- The same list with the kind and length that the CRECV names. -/
def listFor : CarryPacket := { lastPacket with kind := dKind (descOf recvS sw1), clen := clenOf sw1 }

theorem test_meets_NetworkAndCarries_carry :
    (∃ (s : State) (c c1 : Crew) (w : SWord) (l : Launch) (g idx inst : Nat), Member s c1 l g idx inst ∧ NetReady s c .recv w c1 ∧ idx = 0) ∧
    (∃ (s : State) (c c1 : Crew) (w : SWord) (l : Launch) (g idx inst : Nat) (x : Exchange), Member s c1 l g idx inst ∧ NetReady s c .recv w c1 ∧ idx ≠ 0 ∧
      (dieRanks s l inst (dieOf s.cur.core)).headD c1.rank = c1.rank ∧ exchangeAt s (dieOf s.cur.core) l.id inst c1.exchNo = some x ∧
      x.opened = true ∧ x.failed ≠ 0) ∧
    (∃ (s : State) (c c1 : Crew) (w : SWord) (l : Launch) (g idx inst : Nat) (x : Exchange), Member s c1 l g idx inst ∧ NetReady s c .recv w c1 ∧ idx ≠ 0 ∧
      (dieRanks s l inst (dieOf s.cur.core)).headD c1.rank = c1.rank ∧ exchangeAt s (dieOf s.cur.core) l.id inst c1.exchNo = some x ∧
      x.opened = true ∧ x.failed = 0 ∧ (incomingList x).isSome = true ∧ heldDiffers (nameParams x (dKind (descOf c1 w)) (clenOf w)) = false) ∧
    (∃ (s : State) (c c1 : Crew) (w : SWord) (l : Launch) (g idx inst : Nat) (x : Exchange), Member s c1 l g idx inst ∧ NetReady s c .recv w c1 ∧ idx ≠ 0 ∧
      (dieRanks s l inst (dieOf s.cur.core)).headD c1.rank = c1.rank ∧ exchangeAt s (dieOf s.cur.core) l.id inst c1.exchNo = some x ∧
      x.opened = true ∧ x.failed = 0 ∧ (incomingList x).isSome = true ∧ heldDiffers (nameParams x (dKind (descOf c1 w)) (clenOf w)) = true) ∧
    (∃ (s : State) (c c1 : Crew) (w : SWord) (l : Launch) (g idx inst : Nat) (x : Exchange), Member s c1 l g idx inst ∧ NetReady s c .recv w c1 ∧ idx ≠ 0 ∧
      (dieRanks s l inst (dieOf s.cur.core)).headD c1.rank = c1.rank ∧ exchangeAt s (dieOf s.cur.core) l.id inst c1.exchNo = some x ∧
      x.opened = true ∧ x.failed = 0 ∧ incomingList x = none ∧ c1.sctx.sprog ≠ 0) ∧
    (∃ (s : State) (c c1 : Crew) (w : SWord) (l : Launch) (g idx inst : Nat), Member s c1 l g idx inst ∧ NetReady s c .send w c1 ∧
      exitLink s l inst (dieOf s.cur.core) = none) ∧
    (∀ p ∈ [(0x13, 0), (0, 2), (0, 3), (0, 1)], ∃ (s : State) (c c1 : Crew) (w : SWord) (l : Launch) (g idx inst : Nat) (x : Exchange) (n : Nat), Member s c1 l g idx inst ∧
      NetReady s c .send w c1 ∧ exitLink s l inst (dieOf s.cur.core) = some n ∧
      (dieRanks s l inst (dieOf s.cur.core)).getLast?.getD c1.rank = c1.rank ∧
      exchangeAt s (dieOf s.cur.core) l.id inst (c1.exchNo - 1) = some x ∧ (x.failed, x.sent) = p ∧ x.carried = false) := by
  have hr (x : Exchange) : NetReady (gx recvS x) recvS .recv sw1 recvS := ⟨⟨rfl, by decide +kernel⟩, .inl ⟨rfl, rfl⟩⟩
  have hl : (incomingList { ox with held := [listFor] }).isSome = true := by decide +kernel
  have hl2 : (incomingList { ox with held := [listFor], params := [(7, 0)] }).isSome = true := by decide +kernel
  have ht (x : Exchange) : (dieRanks (home (gx (waitingS 0) x) 1 1) gl 0 0).getLast?.getD 0 = 0 := by
    rw [show dieRanks (home (gx (waitingS 0) x) 1 1) gl 0 0 = dieRanks (home (gx (waitingS 0) ox) 1 1) gl 0 0 by rfl]; decide +kernel
  have he (x : Exchange) : exitLink (home (gx (waitingS 0) x) 1 1) gl 0 0 = some 0 := by
    rw [show exitLink (home (gx (waitingS 0) x) 1 1) gl 0 0 = exitLink (home (gx (waitingS 0) ox) 1 1) gl 0 0 by rfl]; decide +kernel
  refine ⟨⟨gs (gc 0), gc 0, _, sw1, gl, 2, 0, 0, ⟨rfl, (by decide +kernel)⟩,
      gs_issues .recv (by decide +kernel) rfl (by decide +kernel) (by decide +kernel) (by decide +kernel), rfl⟩,
    ⟨_, _, _, sw1, gl, 2, 1, 0, _, ⟨rfl, by decide +kernel⟩, hr { ox with failed := 0x13 }, by decide, by decide +kernel, by rfl, rfl, by decide⟩,
    ⟨_, _, _, sw1, gl, 2, 1, 0, _, ⟨rfl, (by decide +kernel)⟩, hr { ox with held := [listFor] }, by decide, by decide +kernel, by rfl, rfl, rfl, hl, by decide +kernel⟩,
    ⟨_, _, _, sw1, gl, 2, 1, 0, _, ⟨rfl, (by decide +kernel)⟩, hr { ox with held := [listFor], params := [(7, 0)] }, by decide, by decide +kernel, by rfl, rfl, rfl, hl2,
      by decide +kernel⟩,
    ⟨_, _, _, sw1, gl, 2, 1, 0, _, ⟨rfl, (by decide +kernel)⟩, hr ox, by decide, by decide +kernel, by rfl, rfl, rfl, rfl, by decide⟩,
    ⟨gs (gc 1), gc 1, _, sw1, gl, 2, 1, 0, ⟨rfl, by decide +kernel⟩,
      gs_issues .send (by decide +kernel) rfl (by decide +kernel) (by decide +kernel) (by decide +kernel), (by decide +kernel)⟩,
    ?_⟩
  have send (failed sent : Nat) (h : decide (exchangeAt (home (gx (waitingS 0) { ox with failed := failed, sent := sent }) 1 1) 0 0 0 0 =
      some { ox with failed := failed, sent := sent }) = true) : ∃ (s : State) (c c1 : Crew) (w : SWord) (l : Launch) (g idx inst : Nat) (x : Exchange)
      (n : Nat), Member s c1 l g idx inst ∧ NetReady s c .send w c1 ∧ exitLink s l inst (dieOf s.cur.core) = some n ∧
      (dieRanks s l inst (dieOf s.cur.core)).getLast?.getD c1.rank = c1.rank ∧
      exchangeAt s (dieOf s.cur.core) l.id inst (c1.exchNo - 1) = some x ∧ (x.failed, x.sent) = (failed, sent) ∧ x.carried = false := by
    have hd : dieOf (home (gx (waitingS 0) { ox with failed := failed, sent := sent }) 1 1).cur.core = 0 := show dieOf 0 = 0 from rfl
    refine ⟨home (gx (waitingS 0) { ox with failed := failed, sent := sent }) 1 1, waitingS 0, waitingS 0, sw1, gl, 2, 0, 0,
      { ox with failed := failed, sent := sent }, 0, ⟨rfl, ?_⟩, ⟨⟨rfl, by decide +kernel⟩, .inl ⟨rfl, rfl⟩⟩, ?_, ?_, ?_, rfl, rfl⟩
    · show groupOf (home (gx (waitingS 0) ox) 1 1) (waitingS 0) = _
      decide +kernel
    · rw [hd]; exact he _
    · rw [hd]; exact ht _
    · rw [hd]; exact of_decide_eq_true h
  intro p hp
  simp only [List.mem_cons, List.not_mem_nil, or_false] at hp
  obtain rfl | rfl | rfl | rfl := hp <;> exact send _ _ (by decide +kernel)


/-! Events of crews: a fault met, an arrival, a stall, a debug stop; and contexts. -/

def faulting (c : Crew) (f : FaultInfo) : Crew := { c with strC := { c.strC with status := .faulted f } }
/-- Every stream with this status. -/
def allStand (c : Crew) (st : StreamStatus) : Crew :=
  { c with strC := { c.strC with status := st }, strA := { c.strA with status := st }, strV := { c.strV with status := st }
           strM := { c.strM with status := st }, strS := { c.strS with status := st } }
theorem all_engines (p : Eng → Bool) (h : (p .c && p .a && p .v && p .m && p .s) = true) : ∀ e, p e = true := by
  simp only [Bool.and_eq_true] at h
  obtain ⟨⟨⟨⟨h1, h2⟩, h3⟩, h4⟩, h5⟩ := h
  intro e
  cases e
  · exact h1
  · exact h2
  · exact h3
  · exact h4
  · exact h5

theorem test_meets_CrewEvents :
    (∃ (s : State) (c : Crew), Runs s s.cur.eng c) ∧
    (∃ (s : State) (c : Crew) (f : FaultInfo) (h : Handler), crewAt s s.ev.core s.ev.slot = some c ∧ pendingFault c = some f ∧ handleable f.cause = true ∧
      handlerFor s c.tenant f.cause = some h) ∧
    (∃ (s : State) (c : Crew) (f : FaultInfo), crewAt s s.ev.core s.ev.slot = some c ∧ pendingFault c = some f ∧ f.cause ≠ 0x10 ∧ handleable f.cause = false) ∧
    (∃ (s : State) (c : Crew) (f : FaultInfo), crewAt s s.ev.core s.ev.slot = some c ∧ pendingFault c = some f ∧ f.cause ≠ 0x10 ∧
      handlerFor s c.tenant f.cause = none) ∧
    (∃ (s : State) (c : Crew), crewAt s s.ev.core s.ev.slot = some c ∧ stallLimit s c = c.ctl.stall ∧ stallHolds c = false) ∧
    (∃ (s s1 : State) (c : Crew), crewAt s s.ev.core s.ev.slot = some c ∧ debugStopped c = false ∧ (∀ e, active c e = true → (strOf c e).status = .arrived) ∧
      releaseReady s s.ev.core s.ev.slot c = some s1 ∧ opsComplete c = true ∧ faultedOp c = none) ∧
    (∃ (s : State) (c : Crew), crewAt s s.ev.core s.ev.slot = some c ∧ c.ctl.stepping = 2) ∧
    (∃ (s : State) (c : Crew), crewAt s s.ev.core s.ev.slot = some c ∧ s.ev.v.getLsbD 2 = true) ∧
    (∃ (s : State) (c : Crew), crewAt s s.ev.core s.ev.slot = some c ∧ s.ev.v.getLsbD 2 = false ∧ s.ev.v.getLsbD 3 = false) ∧
    (∃ (s : State) (c : Crew), crewAt s s.ev.core s.ev.slot = some c ∧ s.ev.v.getLsbD 2 = false ∧ s.ev.v.getLsbD 3 = true ∧ fld s.ev.v 5 3 = 5) ∧
    (∃ (s : State) (c : Crew), crewAt s s.ev.core s.ev.slot = some c ∧ s.ev.v.getLsbD 2 = false ∧ s.ev.v.getLsbD 3 = true ∧ fld s.ev.v 5 3 = 4) := by
  obtain ⟨s1, h, -⟩ := exists_some (o := releaseReady (pk (allStand tc .arrived)) 0 0 (allStand tc .arrived)) (fun _ => true) (by decide +kernel)
  exact ⟨⟨at_ tc .m, tc, rfl, by decide +kernel⟩,
    ⟨handled (pk (faulting tc badQueue)) 0x0B, _, badQueue, _, rfl, by rfl, by decide, by rfl⟩,
    ⟨pk (faulting tc { badQueue with cause := 0x12 }), _, { badQueue with cause := 0x12 }, rfl, by rfl, by decide, by decide⟩,
    ⟨pk (faulting tc badQueue), _, badQueue, rfl, by rfl, by decide, rfl⟩,
    ⟨pk { tc with ctl := { tc.ctl with stall := 2 ^ 24 } }, _, rfl, by rfl, (by decide +kernel)⟩,
    ⟨pk (allStand tc .arrived), s1, _, rfl, by decide +kernel,
      (by intro e _; cases e <;> rfl), h, by decide +kernel, (by decide +kernel)⟩,
    ⟨pk { tc with ctl := { tc.ctl with stepping := 2 } }, _, rfl, rfl⟩,
    ⟨{ pk tc with ev := { v := 4 } }, tc, rfl, rfl⟩, ⟨{ pk tc with ev := { v := 1 } }, tc, rfl, rfl, rfl⟩,
    ⟨{ pk tc with ev := { v := 0xA8 } }, tc, rfl, rfl, rfl, by decide⟩, ⟨{ pk tc with ev := { v := 0x88 } }, tc, rfl, rfl, rfl, by decide⟩⟩

/-- Every stream at a taken YIELD; in one crew. -/
def yc : Crew := allStand sc0 (.yielded 0)
def ys : State := pkS yc .c
/-- The same crew saved: its context held by the scheduler, and the header of its record in object 3. -/
def yx : SavedCtx := { launch := 0, rank := 0, seq := 1, kind := 1, needF := false, waits := none, group := none, side := sideOf yc, order := 0 }
def saved : State :=
  { regSet (regSet ys 0 (rVNCFG 0 0) 1) 0 (rLQCFG 0) 0xF0_0001 with
    crews := [], sched := { ys.sched with saved := [yx] }
    mem := memWriteN ys.mem ((extentKey ys 0 3 0).getD 0) (headerRow small yc 0 1 1 1 (64 * recRowCount small) 0).toNat 64 }
/-- Row 1 of the saved record holds an uncorrectable error. -/
def spoilt : State := { saved with host := { saved.host with poison := [(0, (extentKey saved 0 3 0).getD 0 / 64 + 1)] } }
/-- Every row of the save area lies in a frame that its tenant owns. -/
theorem saved_rows (off : Nat) (h : off < 344064) : (extentKey saved 0 3 off).isSome = true := by
  have ho : lookupObj saved 0 3 = .ok ⟨10379671241183526912, 1, 72057594037932224, 0⟩ := ok_of (by decide +kernel)
  have hr : rdTable saved 0 4288 = .ok 23643898043826176 := ok_of (by decide +kernel)
  have hs : ssEnabled saved 0 = false := by decide +kernel
  have hm : regGet saved 0 (rMEMIL 0) = 0x1f := by decide +kernel
  have hf : ∀ f, f < 21 → frameOwned saved 0 (131072 + 16384 * f) = true := by
    have : (List.range 21).all (fun f => frameOwned saved 0 (131072 + 16384 * f)) = true := by decide +kernel
    simpa using this
  have hq : (131072 + off) / 0x3000000000 = 0 := Nat.div_eq_of_lt (by omega)
  have hw : inWindow saved 0 (131072 + off) = true := by
    unfold inWindow
    simp [hq]
  have hp : ∃ st o, hbmPlace saved (131072 + off) = some (st, o) := by
    unfold hbmPlace
    simp only [hq, hm]
    exact ⟨_, _, rfl⟩
  have hfo : frameOwned saved 0 (131072 + off) = true := by
    have h1 := hf (off / 16384) (by omega)
    have h2 : (131072 + off) / 16384 * 16384 = (131072 + 16384 * (off / 16384)) / 16384 * 16384 := by omega
    unfold frameOwned at h1 ⊢
    rw [h2]
    exact h1
  obtain ⟨st, o, hp⟩ := hp
  have he : extentAt saved 0 4288 off 1 = .ok (131072 + off) := by
    unfold extentAt
    rw [hr]
    have h1 : bitsOf 23643898043826176 0 14 = 0 := by decide +kernel
    have h2 : bitsOf 23643898043826176 40 8 = 0 := by decide +kernel
    have h3 : bitsOf 23643898043826176 48 16 = 84 := by decide +kernel
    have h4 : bitsOf 23643898043826176 14 26 = 8 := by decide +kernel
    simp only [h1, h2, h3, h4]
    rw [if_neg (by omega), if_pos (by omega)]
  have hx : (⟨10379671241183526912, 1, 72057594037932224, 0⟩ : ObjEnt).xlist = 4288 := by decide +kernel
  have hc : (⟨10379671241183526912, 1, 72057594037932224, 0⟩ : ObjEnt).count = 1 := by decide +kernel
  have hz : (⟨10379671241183526912, 1, 72057594037932224, 0⟩ : ObjEnt).size = 1376256 := by decide +kernel
  have hg : (⟨10379671241183526912, 1, 72057594037932224, 0⟩ : ObjEnt).paged = false := by decide +kernel
  unfold extentKey extentPlace
  rw [ho]
  simp only [hx, hc, hz, hg, he]
  rw [if_neg (by simp; omega)]
  unfold tenantPhys
  simp [hs, hp, hw, hfo]

theorem saved_whole : recordWhole saved small yx = true := by
  have hw : saveWord small = BitVec.ofNat 64 (3 * 2 ^ 40) := by decide +kernel
  unfold recordWhole
  simp only [List.all_eq_true, List.mem_range, Bool.or_eq_true]
  intro i hi
  right
  have hn : recRowCount small = 5259 := by decide +kernel
  have hk := saved_rows (recOffset small yx.rank i) (by
    unfold recOffset
    rw [hw, hn] 
    have h1 : fld (BitVec.ofNat 64 (3 * 2 ^ 40)) 0 40 = 0 := by decide +kernel
    have h2 : yx.rank = 0 := rfl
    rw [h1, h2]
    omega)
  rw [hw]
  have h3 : fld (BitVec.ofNat 64 (3 * 2 ^ 40)) 40 24 = 3 := by decide +kernel
  rw [h3]
  have h4 : small.tenant = 0 := rfl
  rw [h4]
  cases hx : extentKey saved 0 3 (recOffset small yx.rank i) with
  | none => rw [hx] at hk; cases hk
  | some k => rfl

theorem spoilt_not : recordWhole spoilt small yx = false := by
  unfold recordWhole
  rw [List.all_eq_false]
  exact ⟨1, by decide +kernel, by decide +kernel⟩

/-- The package suspends. -/
def resting (s : State) : State := { s with power := .suspending 0 none }

theorem test_meets_ContextsSaveAndRestore :
    (∃ (s : State) (c : Crew) (l : Launch), crewAt s s.ev.core s.ev.slot = some c ∧ launchById s c.launch = some l ∧ s.ev.slot < 2 ∧
      saveReady s s.ev.core s.ev.slot c = true ∧ debugStopped c = false ∧ (∀ e, active c e = true → ∃ a, (strOf c e).status = .yielded a) ∧
      RecordFits (putCrew s s.ev.core s.ev.slot (passAll c)) s.ev.core s.ev.slot (passAll c) l ∧ SaveKind s 1 1) ∧
    (∃ s : State, SaveKind s 1 5) ∧
    (∃ (s : State) (c : Crew) (l : Launch), crewAt s s.ev.core s.ev.slot = some c ∧ launchById s c.launch = some l ∧ s.ev.slot < 2 ∧
      saveReady s s.ev.core s.ev.slot c = true ∧ mayStop s s.ev.core s.ev.slot c = true ∧ deadlineRuns c = true ∧ c.ctl.deadline = 0 ∧
      (∀ e a, active c e = true → (strOf c e).status ≠ .yielded a) ∧
      RecordFits (tenantError s c.tenant [forcedRecord s c s.ev.core]) s.ev.core s.ev.slot c l) ∧
    (∃ (s : State) (c : Crew) (l : Launch), crewAt s s.ev.core s.ev.slot = some c ∧ launchById s c.launch = some l ∧ s.ev.slot < 2 ∧
      saveReady s s.ev.core s.ev.slot c = false) ∧
    (∃ (s : State) (c : Crew) (l : Launch), crewAt s s.ev.core s.ev.slot = some c ∧ launchById s c.launch = some l ∧ s.ev.slot < 2 ∧
      saveReady s s.ev.core s.ev.slot c = true ∧ mayStop s s.ev.core s.ev.slot c = true ∧ (∃ e p u, active c e = true ∧ statusOf c e = .held p u) ∧ s.sched.ready ≠ [] ∧
      RecordFits s s.ev.core s.ev.slot c l) ∧
    (∃ (s : State) (c : Crew) (l : Launch), crewAt s s.ev.core s.ev.slot = some c ∧ launchById s c.launch = some l ∧ s.ev.slot < 2 ∧
      migratePending c = true ∧
      (∀ p, Mates s l c p → mayStop s (p.1 / 2) (p.1 % 2) p.2 = true ∧ saveReady s (p.1 / 2) (p.1 % 2) p.2 = true ∧ exchangeOpen s (p.1 / 2) p.2 = false) ∧
      (∀ p, Mates s l c p → p.1 = 2 * s.ev.core + s.ev.slot) ∧ RecordFits s s.ev.core s.ev.slot c l) ∧
    (∃ (s : State) (c : Crew) (l : Launch), crewAt s s.ev.core s.ev.slot = some c ∧ launchById s c.launch = some l ∧ s.ev.slot < 2 ∧
      saveReady s s.ev.core s.ev.slot c = true ∧ debugStopped c = true) ∧
    (∃ (s : State) (c : Crew) (l : Launch), crewAt s s.ev.core s.ev.slot = some c ∧ launchById s c.launch = some l ∧ s.ev.slot < 2 ∧
      saveReady s s.ev.core s.ev.slot c = true ∧ isIssuer s s.ev.core s.ev.slot = true) ∧
    ∀ whole : Bool, ∃ (s : State) (l : Launch) (x : SavedCtx), launchById s s.ev.launch = some l ∧ l.scanl = none ∧
      s.sched.saved.find? (fun y => decide (y.launch = l.id) && decide (y.rank = s.ev.idx) && decide (y.kind ≠ 7)) = some x ∧ x.group = none ∧
      s.ev.flag = false ∧ s.ev.slots = [] ∧ outranked s l [(s.ev.core, s.ev.slot)] false = false ∧ restorable s l x s.ev.core s.ev.slot = true ∧ headerOk s l x = true ∧ recordWhole s l x = whole := by
  have hk : ∀ s : State, s.power = .run → SaveKind s 1 1 := by
    intro s h
    refine ⟨?_, fun _ => rfl⟩
    intro p w h2
    rw [h] at h2
    cases h2
  obtain ⟨l, hl, hl2⟩ := exists_some (o := launchById saved 0) (fun l : Launch => decide (l.scanl = none) &&
    (saved.sched.saved.find? fun y : SavedCtx => decide (y.launch = l.id) && decide (y.rank = 0) && decide (y.kind ≠ 7)).any fun x : SavedCtx => decide (x.group = none) &&
      (!outranked saved l [(0, 0)] false && restorable saved l x 0 0 && (headerOk saved l x && (decide (l = small) && decide (x = yx))))) (by decide +kernel)
  simp only [Bool.and_eq_true, decide_eq_true_eq] at hl2
  obtain ⟨x, hx, hx2⟩ := exists_some _ hl2.2
  simp only [Bool.and_eq_true, decide_eq_true_eq, Bool.not_eq_true'] at hx2
  obtain ⟨l1, hl1, hl3⟩ := exists_some (o := launchById spoilt 0) (fun l : Launch => decide (l.scanl = none) &&
    (spoilt.sched.saved.find? fun y : SavedCtx => decide (y.launch = l.id) && decide (y.rank = 0) && decide (y.kind ≠ 7)).any fun x : SavedCtx => decide (x.group = none) &&
      (!outranked spoilt l [(0, 0)] false && restorable spoilt l x 0 0 && (headerOk spoilt l x && (decide (l = small) && decide (x = yx))))) (by decide +kernel)
  simp only [Bool.and_eq_true, decide_eq_true_eq] at hl3
  obtain ⟨x1, hx1, hx3⟩ := exists_some _ hl3.2
  simp only [Bool.and_eq_true, decide_eq_true_eq, Bool.not_eq_true'] at hx3
  obtain ⟨g1, ⟨g0, g2⟩, g3, rfl, rfl⟩ := hx3
  obtain ⟨k1, ⟨k0, k2⟩, k3, rfl, rfl⟩ := hx2
  refine ⟨⟨ys, yc, small, (by decide +kernel), by decide +kernel, by decide, by decide +kernel, (by decide +kernel), ?_, by unfold RecordFits; decide +kernel, hk _ (by decide +kernel)⟩,
    ⟨resting (pk tc), fun _ _ _ => rfl, fun h => absurd (show (resting (pk tc)).power = .suspending 0 none by rfl) (h 0 none)⟩,
    ⟨pkS { sc0 with ctl := { sc0.ctl with preq := true, deadline := 0 } } .c, { sc0 with ctl := { sc0.ctl with preq := true, deadline := 0 } }, small,
      by decide +kernel, by decide +kernel, by decide, (by decide +kernel), by decide +kernel, by decide +kernel, rfl, ?_, by unfold RecordFits; decide +kernel⟩,
    ⟨pkS (holds yc 0 [{ entry 0 with pending := true }]) .c, holds yc 0 [{ entry 0 with pending := true }], small, (by decide +kernel), by decide +kernel, by decide, by decide +kernel⟩,
    ⟨{ pkS (allStand sc0 (.held 1 0)) .c with sched := { (pkS (allStand sc0 (.held 1 0)) .c).sched with ready := [0] } }, allStand sc0 (.held 1 0), small,
      (by decide +kernel), by decide +kernel, by decide, by decide +kernel, (by decide +kernel), ⟨.c, 1, 0, by decide +kernel, rfl⟩, by decide +kernel,
      by unfold RecordFits; decide +kernel⟩,
    ⟨pkS (faulting sc0 { badQueue with cause := 0x10 }) .c, faulting sc0 { badQueue with cause := 0x10 }, small,
      (by decide +kernel), by decide +kernel, by decide, by decide +kernel, ?_, ?_, by unfold RecordFits; decide +kernel⟩,
    ⟨pkS (halted sc0) .c, halted sc0, small, (by decide +kernel), by decide +kernel, by decide, by decide +kernel, (by decide +kernel)⟩,
    ⟨{ pkS sc0 .c with power := .suspending 0 (some (0, 0)) }, sc0, small, by decide +kernel, by decide +kernel, by decide, (by decide +kernel), by decide +kernel⟩,
    fun whole => match whole with
    | true => ⟨saved, small, yx, hl, hl2.1, hx, k1, rfl, rfl, k0, k2, k3, saved_whole⟩
    | false => ⟨spoilt, small, yx, hl1, hl3.1, hx1, g1, rfl, rfl, g0, g2, g3, spoilt_not⟩⟩
  · intro e _; exact ⟨0, by cases e <;> rfl⟩
  · intro e a _ h
    cases e <;> cases h
  · intro p h
    obtain ⟨h, -, -⟩ := h
    obtain rfl := List.mem_singleton.mp h
    decide +kernel
  · intro p h
    obtain ⟨h, -, -⟩ := h
    obtain rfl := List.mem_singleton.mp h
    rfl


/-! The engines' own work: a row of a COPY from object 2 to the scratchpad, a row of an LDV, the answer to an LDQ, a completed
operation with its completion object in the scratchpad, and the remainder stack. -/

theorem access_ok {s : State} {core slot : Nat} {c : Crew} {cap : Cap} {k : AccKind} {off size : Nat} {p : State → Acc → Bool}
    (h : (match access s core slot c cap k off size with | (s1, .ok a) => p s1 a | (_, .error _) => false) = true) :
    ∃ s1 a, access s core slot c cap k off size = (s1, .ok a) ∧ p s1 a = true := by
  split at h
  · rename_i s1 a heq
    exact ⟨s1, a, heq, h⟩
  · cases h

def ldvOp : EngOp := fresh (pk tc) tc 1 (1 + 1 * 2 ^ 10) 0 capO 0 0 false
def ldving : Crew := { kc with ops := [ldvOp] }
/-- An operation of one row with CE = 1, its row moved; its object in the scratchpad's second row. -/
def countOp : EngOp := { fresh (pk tc) tc 2 (1 + 2 ^ 19) 0 capO capS (mkCap 1 0xFF 0 0 (64 * 32768) 64) false with next := 1 }
def counting : Crew := dWrite { kc with ops := [countOp] } .a 0 1
def sent : Crew := dWrite { kc with ops := [{ countOp with signalled := true }] } .a 0 1
/-- An LDQ whose request has been answered, or has failed. -/
def askedQ : Crew := holds kc 0 [{ entry 0 with pending := true }]
def answerQ (ph : Nat) : FabMsg := { mkMsg (pk tc) 0 0 tc ⟨4, 0, 1, 0, 7, 1, 0, 0⟩ 0 0 8 0 0 0 0 0 2 0 with id := 0, phase := ph, reply := .raw 5, cause := 0x11 }
def withMsg (s : State) (m : FabMsg) (a : EvArgs := {}) : State := { s with fabric := { s.fabric with msgs := [m] }, ev := a }

/-- A row of operation `o` may move. -/
def Turn (s : State) (c : Crew) (o : EngOp) : Prop :=
  crewAt s s.ev.core s.ev.slot = some c ∧ c.ops[s.ev.idx]? = some o ∧ rowsDone o = false ∧ o.heldBy = none ∧ o.req = none ∧ o.skipped = [] ∧
    debugStopped c = false ∧ earlierPending s s.ev.core s.ev.slot c o = false
def rowReadB (s : State) (c : Crew) (o : EngOp) (p : State → Acc → Bool) : Bool :=
  (decide (o.kind ≠ 4 ∧ o.kind ≠ 5) || (!isPoisoned s (rowFormKey s.ev.core c (fld o.aux 0 15 + o.next / 16)) &&
    phaseOk s c .a true false (fld o.aux 0 15 + o.next / 16))) &&
  (match access s s.ev.core s.ev.slot c o.src kCopyR (opSrc s s.ev.core c o) 64 with
   | (s1, .ok a) => (decide (a.tgt ≠ 8) || phaseOk s c .a true false (keyRow c a.key)) && decide (a.tgt ≠ 4 ∧ a.tgt ≠ 10 ∧ a.tgt ≠ 2) &&
       !isPoisoned s a.key && decide (rowDemotion s c a = 0) && p s1 a
   | (_, .error _) => false)
theorem rowRead_of {s : State} {c : Crew} {o : EngOp} {p : State → Acc → Bool} (h : rowReadB s c o p = true) :
    ∃ s1 a, RowRead s s.ev.core s.ev.slot c o s1 a ∧ p s1 a = true := by
  unfold rowReadB at h
  rw [Bool.and_eq_true] at h
  obtain ⟨hl, h⟩ := h
  split at h
  · rename_i s1 a heq
    simp only [Bool.and_eq_true, Bool.or_eq_true, decide_eq_true_eq, Bool.not_eq_true'] at h hl
    exact ⟨s1, a, ⟨fun hk => hl.resolve_left (by omega), heq, fun h8 => h.1.1.1.1.resolve_left fun hn => hn h8, h.1.1.1.2, h.1.1.2, h.1.2⟩, h.2⟩
  · cases h
def rowWrittenB (s s1 : State) (c : Crew) (o : EngOp) (p : Acc → Bool) : Bool :=
  match access s1 s.ev.core s.ev.slot c o.dst kCopyW (opDst s1 s.ev.core c o) 64 with
  | (_, .ok b) => (decide (b.tgt ≠ 8) || phaseOk s1 c .a false true (keyRow c b.key)) && decide (b.tgt ≠ 4 ∧ b.tgt ≠ 10 ∧ b.tgt ≠ 2) &&
      decide (rowDemotion s1 c b = 0) && p b
  | (_, .error _) => false
theorem rowWritten_of {s s1 : State} {c : Crew} {o : EngOp} {p : Acc → Bool} (h : rowWrittenB s s1 c o p = true) :
    ∃ s2 b, RowWritten s1 s.ev.core s.ev.slot c o s2 b ∧ p b = true := by
  unfold rowWrittenB at h
  split at h
  · rename_i s2 b heq
    simp only [Bool.and_eq_true, Bool.or_eq_true, decide_eq_true_eq] at h
    exact ⟨s2, b, ⟨heq, fun h8 => h.1.1.1.resolve_left fun hn => hn h8, h.1.1.2, h.1.2⟩, h.2⟩
  · cases h
def ringAtB (s s1 : State) (c : Crew) (o : EngOp) (p : Acc → Bool) : Bool :=
  match access s1 s.ev.core s.ev.slot c o.dst kRingCopy (unitOf 64 (capCursor o.dst)) 64 with
  | (_, .ok a) => decide (a.tgt ≠ 4 ∧ a.tgt ≠ 10 ∧ a.tgt ≠ 2) && ringOk (rowAt s1 a) && p a
  | (_, .error _) => false
theorem ringAt_of {s s1 : State} {c : Crew} {o : EngOp} {p : Acc → Bool} (h : ringAtB s s1 c o p = true) :
    ∃ s2 a, RingAt s1 s.ev.core s.ev.slot c o s2 a ∧ p a = true := by
  unfold ringAtB at h
  split at h
  · rename_i s2 a heq
    simp only [Bool.and_eq_true, decide_eq_true_eq] at h
    exact ⟨s2, a, ⟨heq, h.1.1, h.1.2⟩, h.2⟩
  · cases h

/-- The crew with one operation of a kind, from object 2 to the scratchpad, in a package that holds these objects. -/
def moving (kind : Nat) (d aux : Word) : Crew := { kc with ops := [fresh (pk tc) tc kind d aux capO capS 0 false] }
def movingOp (kind : Nat) (d aux : Word) : EngOp := fresh (pk tc) tc kind d aux capO capS 0 false

theorem test_meets_EngineAndBankEvents_copy : ∀ kind, kind = 2 ∨ kind = 4 ∨ kind = 5 → ∃ (s s1 s2 : State) (c : Crew) (o : EngOp) (a b : Acc), Turn s c o ∧
    o.kind = kind ∧ cpRng o.desc = false ∧ cpBe o.desc = false ∧ RowRead s s.ev.core s.ev.slot c o s1 a ∧ RowWritten s1 s.ev.core s.ev.slot c o s2 b := by
  intro kind hk
  have h : rowReadB (mo (moving kind 1 16)) (moving kind 1 16) (movingOp kind 1 16)
      (fun s1 _ => rowWrittenB (mo (moving kind 1 16)) s1 (moving kind 1 16) (movingOp kind 1 16) fun _ => true) = true := by
    rcases hk with rfl | rfl | rfl <;> decide +kernel
  obtain ⟨s1, a, h, h2⟩ := rowRead_of h
  obtain ⟨s2, b, h2, -⟩ := rowWritten_of h2
  refine ⟨mo (moving kind 1 16), s1, s2, _, movingOp kind 1 16, a, b, ⟨?_, rfl, ?_⟩, rfl, ?_, ?_, h, h2⟩ <;>
    rcases hk with rfl | rfl | rfl <;> decide +kernel

/-- With BE, counted at the barrier in row 5. -/
theorem test_meets_EngineAndBankEvents_counted : ∃ (s s1 s2 : State) (c rc : Crew) (o : EngOp) (a b : Acc), Turn s c o ∧ o.kind = 2 ∧ cpRng o.desc = false ∧
    cpBe o.desc = true ∧ RowRead s s.ev.core s.ev.slot c o s1 a ∧ RowWritten s1 s.ev.core s.ev.slot c o s2 b ∧ b.tgt = 8 ∧
    crewAt s (b.slotKey / 2) (b.slotKey % 2) = some rc ∧ rowFormOk rc (cpBrow o.desc) = true ∧ phaseOk s c .a true true (cpBrow o.desc) = true := by
  let d : Word := 1 + 2 ^ 24 + 5 * 2 ^ 25
  obtain ⟨s1, a, h, h2⟩ := rowRead_of (s := mo (moving 2 d 0)) (c := moving 2 d 0) (o := movingOp 2 d 0) (p := fun s1 _ => rowWrittenB (mo (moving 2 d 0)) s1
    (moving 2 d 0) (movingOp 2 d 0) fun b => decide (b.tgt = 8) && (crewAt (mo (moving 2 d 0)) (b.slotKey / 2) (b.slotKey % 2)).any fun rc => rowFormOk rc 5)
    (by decide +kernel)
  obtain ⟨s2, b, h2, h3⟩ := rowWritten_of h2
  rw [Bool.and_eq_true] at h3
  obtain ⟨rc, hc, h4⟩ := exists_some _ h3.2
  exact ⟨mo (moving 2 d 0), s1, s2, _, rc, movingOp 2 d 0, a, b, ⟨by decide +kernel, rfl, (by decide +kernel)⟩, rfl, by decide +kernel, by decide +kernel, h, h2,
    of_decide_eq_true h3.1, hc, by rw [show cpBrow (movingOp 2 d 0).desc = 5 by decide +kernel]; exact h4, (by decide +kernel)⟩

/-- A COPYMC whose one receiver stands, and one to a core without a crew. -/
theorem test_meets_EngineAndBankEvents_multicast : ∀ absent : Bool, ∃ (s s1 : State) (c : Crew) (o : EngOp) (a : Acc), Turn s c o ∧ o.kind = 3 ∧ cpBe o.desc = false ∧
    RowRead s s.ev.core s.ev.slot c o s1 a ∧ (s.ev.core ∈ maskCores s.ev.core (fld o.aux 0 32) →
      phaseOk s c .a false true (keyRow c (crewRowKey s.ev.core c (opDst s s.ev.core c o))) = true) ∧
    (absent = false → ∀ r ∈ maskCores s.ev.core (fld o.aux 0 32), ∃ rc, crewAt s r s.ev.slot = some rc ∧ rc.launch = c.launch) ∧
    (absent = true → ∃ r ∈ maskCores s.ev.core (fld o.aux 0 32), ∀ rc, crewAt s r s.ev.slot = some rc → rc.launch ≠ c.launch) := by
  intro absent
  let m : Word := if absent then 2 else 1
  have h : rowReadB (mo (moving 3 1 m)) (moving 3 1 m) (movingOp 3 1 m) (fun _ _ => true) = true := by cases absent <;> decide +kernel
  obtain ⟨s1, a, h, -⟩ := rowRead_of h
  refine ⟨mo (moving 3 1 m), s1, _, movingOp 3 1 m, a, ⟨?_, rfl, ?_⟩, rfl, ?_, h, fun _ => ?_, fun h0 => ?_, fun h0 => ?_⟩
  · cases absent <;> decide +kernel
  · cases absent <;> decide +kernel
  · cases absent <;> decide +kernel
  · cases absent <;> decide +kernel
  · subst h0
    intro r hr
    obtain rfl : r = 0 := by
      have : maskCores 0 (fld (movingOp 3 1 1).aux 0 32) = [0] := by decide +kernel
      exact List.mem_singleton.mp (this ▸ hr)
    exact ⟨moving 3 1 1, by decide +kernel, rfl⟩
  · subst h0
    refine ⟨1, by decide +kernel, fun rc hc => ?_⟩
    have : crewAt (mo (moving 3 1 2)) 1 0 = none := by decide +kernel
    rw [show crewAt (mo (moving 3 1 m)) 1 (mo (moving 3 1 m)).ev.slot = crewAt (mo (moving 3 1 2)) 1 0 from rfl, this] at hc
    cases hc

/-- A ring copy of `rows` rows before its header, four slots with three in use. -/
def ringing (rows : Word) (claim : Option Nat) : Crew := { kc with ops := [{ movingOp 2 (rows + 2 ^ 40) 0 with claim := claim }] }
def ringingAt (rows : Word) (claim : Option Nat) : State := writeUnit (mo (ringing rows claim)) (spadKey 0 0 0 0) 64 ringRow.toNat
theorem test_meets_EngineAndBankEvents_claim : ∀ rows : Word, rows = 1 ∨ rows = 2 → ∃ (s s1 : State) (c : Crew) (o : EngOp) (a : Acc), Turn s c o ∧ o.kind = 2 ∧
    cpRng o.desc = true ∧ o.claim = none ∧ RingAt s s.ev.core s.ev.slot c o s1 a ∧ (a.tgt = 8 → phaseOk s c .a true true (keyRow c a.key) = true) ∧
    ringUsed (rowAt s a) + (opRows o + ringSrows (rowAt s a) - 1) / ringSrows (rowAt s a) = ringSize (rowAt s a) + (rows.toNat - 1) := by
  intro rows hr
  have h : ringAtB (ringingAt rows none) (ringingAt rows none) (ringing rows none) { movingOp 2 (rows + 2 ^ 40) 0 with claim := none } (fun a =>
      phaseOk (ringingAt rows none) (ringing rows none) .a true true (keyRow (ringing rows none) a.key) && decide (ringUsed (rowAt (ringingAt rows none) a) +
        (rows.toNat + ringSrows (rowAt (ringingAt rows none) a) - 1) / ringSrows (rowAt (ringingAt rows none) a) = ringSize (rowAt (ringingAt rows none) a) +
        (rows.toNat - 1))) = true := by
    rcases hr with rfl | rfl <;> decide +kernel
  obtain ⟨s1, a, h, hp⟩ := ringAt_of h
  rw [Bool.and_eq_true, decide_eq_true_eq] at hp
  refine ⟨ringingAt rows none, s1, ringing rows none, { movingOp 2 (rows + 2 ^ 40) 0 with claim := none }, a, ⟨?_, rfl, ?_⟩, rfl, ?_, rfl, h, fun _ => hp.1, ?_⟩
  · rcases hr with rfl | rfl <;> decide +kernel
  · rcases hr with rfl | rfl <;> decide +kernel
  · rcases hr with rfl | rfl <;> decide +kernel
  · rw [show opRows { movingOp 2 (rows + 2 ^ 40) 0 with claim := none } = rows.toNat by rcases hr with rfl | rfl <;> decide +kernel]
    exact hp.2

/-- The row of a ring copy that has claimed slot 3; it is the slot's one row, and the commit moves TAIL on by one. -/
theorem test_meets_EngineAndBankEvents_ring : ∃ (s s1 s2 : State) (c rc : Crew) (o : EngOp) (a b : Acc) (e : RingEffect), Turn s c o ∧ o.kind = 2 ∧ cpRng o.desc = true ∧
    cpBe o.desc = false ∧ o.claim = some 3 ∧ RowRead s s.ev.core s.ev.slot c o s1 a ∧ RingAt s1 s.ev.core s.ev.slot c o s2 b ∧ b.tgt = 8 ∧ asGet s.crews b.slotKey = some rc ∧
    (o.next + 1) % ringSrows (rowAt s b) = 0 ∧ rowFormOk rc (ringBase (rowAt s b) + 3 % ringSize (rowAt s b)) = true ∧
    phaseOk s c .a true true (keyRow c b.key) = true ∧ RingDoes (rowAt s b) 3 (.rcommit 0 0 1 2) e := by
  obtain ⟨s1, a, h, h2⟩ := rowRead_of (s := ringingAt 1 (some 3)) (c := ringing 1 (some 3)) (o := { movingOp 2 (1 + 2 ^ 40) 0 with claim := some 3 }) (p := fun s1 _ =>
    ringAtB (ringingAt 1 (some 3)) s1 (ringing 1 (some 3)) { movingOp 2 (1 + 2 ^ 40) 0 with claim := some 3 } fun b => decide (b.tgt = 8) &&
      phaseOk (ringingAt 1 (some 3)) (ringing 1 (some 3)) .a true true (keyRow (ringing 1 (some 3)) b.key) && decide (rowAt (ringingAt 1 (some 3)) b = ringRow) &&
      (asGet (ringingAt 1 (some 3)).crews b.slotKey).any fun rc => rowFormOk rc 3) (by decide +kernel)
  obtain ⟨s2, b, h2, h3⟩ := ringAt_of h2
  simp only [Bool.and_eq_true, decide_eq_true_eq] at h3
  obtain ⟨rc, hc, h4⟩ := exists_some _ h3.2
  refine ⟨ringingAt 1 (some 3), s1, s2, ringing 1 (some 3), rc, _, a, b, ⟨none, 2, 4, 5, 0⟩, ⟨(by decide +kernel), rfl, by decide +kernel⟩, rfl, by decide +kernel,
    (by decide +kernel), rfl, h, h2, h3.1.1.1, hc, by rw [h3.1.2]; decide +kernel, by rw [h3.1.2, show ringBase ringRow + 3 % ringSize ringRow = 3 by decide +kernel]; exact h4, h3.1.1.2, ?_⟩
  rw [h3.1.2]
  have : (⟨none, 2, 4, 5, 0⟩ : RingEffect) = ⟨none, ringHead ringRow, (ringTail ringRow + 1) % 2 ^ 32, ringClaimed ringRow, 0⟩ := by
    rw [show ringHead ringRow = 2 by decide +kernel, show ringTail ringRow = 3 by decide +kernel, show ringClaimed ringRow = 5 by decide +kernel] <;> rfl
  rw [this]
  refine .rcommit (m := 1) (by decide +kernel) (by decide +kernel) ⟨by decide +kernel, by decide +kernel, ?_, (by decide +kernel)⟩
  intro b
  have hs : ringSize ringRow = 4 := by decide +kernel
  have ht : ringTail ringRow = 3 := by decide +kernel
  have hb : ringCbits ringRow = 0 := by decide +kernel
  rw [hs, ht, hb]
  by_cases h : b = 3
  · subst h; decide
  · rw [Nat.zero_testBit, show (0 ||| 2 ^ (3 % 4) : Nat) = 2 ^ 3 by decide, Nat.testBit_two_pow]
    simp [Ne.symm h]

theorem test_meets_EngineAndBankEvents_engine :
    (∃ (s s1 : State) (c : Crew) (o : EngOp) (a : Acc), Turn s c o ∧ o.kind = 1 ∧ s.ev.flag = true ∧
      access s s.ev.core s.ev.slot c o.src kLdv (opSrc s s.ev.core c o) 64 = (s1, .ok a) ∧ a.tgt ≠ 8 ∧ Local a ∧ isPoisoned s a.key = false ∧
      ldvWaitsForV s1 s.ev.core c o (fld o.desc 0 10 + o.next) = false) ∧
    (∀ ph, ph = 2 ∨ ph = 3 → ∃ (s : State) (c d : Crew) (m : FabMsg), crewAt s s.ev.core s.ev.slot = some c ∧ s.ev.flag = false ∧
      s.fabric.msgs.find? (fun m => decide (m.id = s.ev.idx)) = some m ∧ m.inbound = false ∧ m.waiter = 2 ∧ crewAt s m.core m.slot = some d ∧ m.phase = ph) ∧
    (∃ (s s1 : State) (c : Crew) (o : EngOp) (a : Acc), crewAt s s.ev.core s.ev.slot = some c ∧ c.ops[s.ev.idx]? = some o ∧ rowsDone o = true ∧
      opCe o = true ∧ o.nulled = false ∧ o.signalled = false ∧ o.heldBy = none ∧ o.req = none ∧ s.ev.kind ≠ 1 ∧
      access s s.ev.core s.ev.slot c o.ccap kCount (unitOf 8 (capCursor o.ccap)) 8 = (s1, .ok a) ∧ Local a ∧
      (a.tgt = 8 → phaseOk s c .a true true (keyRow c a.key) = true) ∧ isPoisoned s a.key = false) ∧
    (∃ (s : State) (c : Crew) (o : EngOp), crewAt s s.ev.core s.ev.slot = some c ∧ c.ops[s.ev.idx]? = some o ∧ opDone o = true ∧ o.fell = false ∧
      ∀ p ∈ c.ops.take s.ev.idx, p.fell = true ∨ opDc p ≠ opDc o) ∧
    (∃ (s : State) (c : Crew) (k kt : Nat), crewAt s s.ev.core s.ev.slot = some c ∧ SpillPlaces s c c.rem.rspill k kt ∧
      min 64 (min (inWindowRows c - highWater s c) (spillCap s c - c.rem.rspill)) = 1) ∧
    (∃ (s : State) (c : Crew), crewAt s s.ev.core s.ev.slot = some c ∧ c.rem.rspill = 64 ∧ (∀ i, i < c.rem.rspill → ∃ k kt, SpillPlaces s c i k kt) ∧
      c.rem.rspill ≤ c.rem.rdepth ∧ 0 < min 64 (highWater s c / 3 / 64 * 64 - inWindowRows c)) ∧
    (∃ (s : State) (c : Crew), crewAt s s.ev.core s.ev.slot = some c ∧ c.strA.status = .polling) := by
  have places : ∀ (s : State) (c : Crew) i, ((spillKey s c (spillRowAt s c i)).any fun _ => true) = true → ((spillKey s c (spillTagAt s c i)).any fun _ => true) = true →
      ∃ k kt, SpillPlaces s c i k kt := by
    intro s c i h1 h2
    obtain ⟨k, hk, -⟩ := exists_some _ h1
    obtain ⟨kt, hkt, -⟩ := exists_some _ h2
    exact ⟨k, kt, hk, hkt⟩
  let spilling : Crew := { tc with rem := { tc.rem with rdepth := 65 } }
  let spills : State := withObjects (pk spilling { tl with rem := 3 * 2 ^ 40 + 2 ^ 16 + 256 })
  let refills : State := withObjects (pk { tc with rem := { tc.rem with rdepth := 64, rspill := 64 } } { tl with rem := 3 * 2 ^ 40 + 256 })
  obtain ⟨k, kt, hp⟩ := places spills spilling 0 (by decide +kernel) (by decide +kernel)
  refine ⟨?_, ?_, ?_, ⟨pk sent, sent, _, rfl, rfl, by decide +kernel, rfl, by intro p hp; cases hp⟩, ⟨spills, spilling, k, kt, rfl, hp, by decide +kernel⟩,
    ⟨refills, _, rfl, rfl, ?_, by decide, (by decide +kernel)⟩, ⟨pk { tc with strA := { tc.strA with status := .polling } }, _, rfl, rfl⟩⟩
  · obtain ⟨s1, a, h, hp⟩ := access_ok (s := { mo ldving with ev := { flag := true } }) (core := 0) (slot := 0) (c := ldving) (cap := capO) (k := kLdv) (off := 0) (size := 64)
      (p := fun s1 a => decide (a.tgt ≠ 8 ∧ a.tgt ≠ 4 ∧ a.tgt ≠ 10 ∧ a.tgt ≠ 2) && !isPoisoned (mo ldving) a.key && !ldvWaitsForV s1 0 ldving ldvOp 1) (by decide +kernel)
    simp only [Bool.and_eq_true, decide_eq_true_eq, Bool.not_eq_true'] at hp
    exact ⟨_, s1, ldving, ldvOp, a, ⟨by decide +kernel, rfl, by decide +kernel⟩, rfl, rfl, h, hp.1.1.1, hp.1.1.2, hp.1.2, hp.2⟩
  · rintro ph (rfl | rfl)
    · exact ⟨withMsg (pk askedQ) (answerQ 2), askedQ, askedQ, answerQ 2, rfl, rfl, by rfl, rfl, rfl, rfl, rfl⟩
    · exact ⟨withMsg (pk askedQ) (answerQ 3), askedQ, askedQ, answerQ 3, rfl, rfl, by rfl, rfl, rfl, rfl, rfl⟩
  · obtain ⟨s1, a, h, hp⟩ := access_ok (s := pk counting) (core := 0) (slot := 0) (c := counting) (cap := countOp.ccap) (k := kCount) (off := 64) (size := 8)
      (p := fun _ a => decide (a.tgt ≠ 4 ∧ a.tgt ≠ 10 ∧ a.tgt ≠ 2) && phaseOk (pk counting) counting .a true true (keyRow counting a.key) &&
        !isPoisoned (pk counting) a.key) (by decide +kernel)
    simp only [Bool.and_eq_true, decide_eq_true_eq, Bool.not_eq_true'] at hp
    exact ⟨_, s1, counting, countOp, a, rfl, rfl, (by decide +kernel), by decide +kernel, rfl, rfl, rfl, rfl, by decide, h, hp.1.1, fun _ => hp.1.2, hp.2⟩
  · have h : ∀ i, i < 64 → ((spillKey refills { tc with rem := { tc.rem with rdepth := 64, rspill := 64 } } (spillRowAt refills { tc with rem := { tc.rem with rdepth := 64, rspill := 64 } } i)).any fun _ => true) = true ∧
        ((spillKey refills { tc with rem := { tc.rem with rdepth := 64, rspill := 64 } } (spillTagAt refills { tc with rem := { tc.rem with rdepth := 64, rspill := 64 } } i)).any fun _ => true) = true := by
      decide +kernel
    exact fun i hi => places refills _ i (h i hi).1 (h i hi).2

/-- An update of the crew's launch held for key 0 of rank 0; one that a later key waits behind. -/
def heldUpdate (issue : Nat) : Keyed := ⟨0, issue, 0, 0x40, 0x3F80_0000, false, false, false, 0, 0⟩
def holding (l : List Keyed) (n : Nat) : State := { pk tc with keyed := l, ev := { idx := n } }
/-- A walk of object 2 at an offset. -/
def walking (off : Nat) : State := { withObjects (pk tc) with ev := { cap := capO, off := off } }

theorem test_meets_EngineAndBankEvents_bank :
    (∃ (s : State) (r : Resting), s.resting[s.ev.idx]? = some r ∧ restBlocked s r = false ∧ r.size < 64 ∧
      (s.resting.filter fun x => decide (x.core = r.core) && decide (x.key / 64 = r.key / 64)) = [r]) ∧
    (∃ (s : State) (k : Keyed), s.keyed[s.ev.idx]? = some k ∧ keyedMayApply s k = false) ∧
    (∃ (s : State) (k : Keyed), s.keyed[s.ev.idx]? = some k ∧ keyedMayApply s k = true ∧ ∀ r ∈ s.resting, r.due = false) ∧
    (∃ (s s1 : State) (a : Acc), 4 ≤ capSpace s.ev.cap ∧ capSpace s.ev.cap ≤ 6 ∧
      portAccess s s.ev.die s.ev.tenant (capSpace s.ev.cap) (capObj s.ev.cap) (some (capGen s.ev.cap)) s.ev.off (kindOf s.ev.form) = (s1, .ok a)) ∧
    (∃ (s s1 : State) (x : XFail), 4 ≤ capSpace s.ev.cap ∧ capSpace s.ev.cap ≤ 6 ∧
      portAccess s s.ev.die s.ev.tenant (capSpace s.ev.cap) (capObj s.ev.cap) (some (capGen s.ev.cap)) s.ev.off (kindOf s.ev.form) = (s1, .error x) ∧
      x.cause ≠ 0x06) := by
  obtain ⟨s1, x, h, hx⟩ := portAccess_error (s := walking (2 ^ 30)) (die := 0) (tenant := 0) (space := 4)
    (obj := 2) (off := 2 ^ 30) (gen := some 1) (k := kLoad) (by decide +kernel)
  have ok : ∃ s1 a, portAccess (walking 128) 0 0 4 2 (some 1) 128 kLoad = (s1, .ok a) := by
    have : (match portAccess (walking 128) 0 0 4 2 (some 1) 128 kLoad with | (_, .ok _) => true | _ => false) = true := by decide +kernel
    split at this
    · rename_i s1 a heq; exact ⟨s1, a, heq⟩
    · cases this
  obtain ⟨s2, a, h2⟩ := ok
  exact ⟨⟨{ pk tc with resting := [⟨0, [(0, 0)], false, 64, 4, 0, 1⟩, ⟨0, [(0, 0)], false, 128, 4, 0, 1⟩] }, ⟨0, [(0, 0)], false, 64, 4, 0, 1⟩, rfl, by decide⟩,
    ⟨holding [heldUpdate 0, heldUpdate 1] 1, heldUpdate 1, rfl, by decide +kernel⟩,
    ⟨holding [heldUpdate 0, heldUpdate 1] 0, heldUpdate 0, rfl, (by decide +kernel), by decide⟩,
    ⟨walking 128, s2, a, by decide +kernel, by decide +kernel, h2⟩,
    ⟨walking (2 ^ 30), s1, x, (by decide +kernel), by decide +kernel, h, hx⟩⟩

/-- A held update whose frame has still to be pulled, and one whose frame has been; an absent page that a walk meets; a row that waits
behind a due one. -/
theorem test_meets_EngineAndBankEvents_pulled :
    (∃ (s : State) (k : Keyed), s.keyed[s.ev.idx]? = some k ∧ keyedMayApply s k = true ∧ keyPend s k.key = true) ∧
    (∃ (s : State) (k : Keyed), s.keyed[s.ev.idx]? = some k ∧ keyedMayApply s k = true ∧ keyPend s k.key = false ∧ (∀ r ∈ s.resting, r.due = false)) ∧
    (∃ (s : State) (r : Resting), s.resting[s.ev.idx]? = some r ∧ restBlocked s r = false ∧ r.size < 64 ∧ (∃ x ∈ s.resting, x ≠ r ∧ x.due = true) ∧
      (∀ x ∈ s.resting, x ≠ r → x.due = true → restMeets x r = false) ∧
      (s.resting.filter fun x => decide (x.core = r.core) && decide (x.key / 64 = r.key / 64)) = [r]) ∧
    ∃ (s s1 : State) (x : XFail), 4 ≤ capSpace s.ev.cap ∧ capSpace s.ev.cap ≤ 6 ∧
      portAccess s s.ev.die s.ev.tenant (capSpace s.ev.cap) (capObj s.ev.cap) (some (capGen s.ev.cap)) s.ev.off (kindOf s.ev.form) = (s1, .error x) ∧
      x.cause = 0x06 := by
  have absent : ∃ s1 x, portAccess (unmapped (walking 128)) 0 0 4 2 (some 1) 128 kLoad = (s1, .error x) ∧ x.cause = 0x06 := by
    have : (match portAccess (unmapped (walking 128)) 0 0 4 2 (some 1) 128 kLoad with | (_, .error x) => decide (x.cause = 0x06) | _ => false) = true := by decide +kernel
    split at this
    · rename_i s1 x heq; exact ⟨s1, x, heq, of_decide_eq_true this⟩
    · cases this
  obtain ⟨s1, x, h, hx⟩ := absent
  exact ⟨⟨setFrameRec (holding [heldUpdate 0] 0) 0 0 5, heldUpdate 0, rfl, by decide +kernel, (by decide +kernel)⟩,
    ⟨holding [heldUpdate 0] 0, heldUpdate 0, rfl, by decide +kernel, by decide +kernel, by decide⟩,
    ⟨{ pk tc with resting := [⟨0, [(0, 0)], false, 64, 4, 0, 1⟩, ⟨0, [(0, 0)], true, 128, 4, 0, 1⟩] }, ⟨0, [(0, 0)], false, 64, 4, 0, 1⟩, rfl, (by decide +kernel), by decide,
      by decide, by decide, by decide⟩,
    ⟨unmapped (walking 128), s1, x, by decide +kernel, by decide +kernel, h, hx⟩⟩

/-- What one member of a group of one has contributed; the exchange of `gx` on die 0 as the event's. -/
def given : Contribution := contributionOf (gs (gc 0)) 0 0 (gc 0) sw1 0
def g1 : Launch := { gl with levels := [⟨1, 0, 0⟩] }
def netState (x : Exchange) (now : Word) : State :=
  { home (pk (freshCrew g1 0 0) g1) 0 0 with fabric := { (home (pk (freshCrew g1 0 0) g1) 0 0).fabric with exchanges := [x] }, cycle := now }
/-- The first link with these contents. -/
def link0 : CarryLink := { id := 0, up := true, pending := [], unacked := [], flight := [], acks := [], nextSeq := 0, expect := 0, credits := 16, freed := [], resend := false, resends := 0 }
def linked (k : CarryLink) : State := setLink (pk tc) k
/-- Two dies share the group, and the link between them is down. -/
def linkDown (x : Exchange) : State := setLink (home { gx (gc 0) x with cycle := 2 ^ 20 + 5 } 1 1) { link0 with up := false }

theorem test_meets_CarryAndFabricEvents_carry :
    (∃ (s : State) (l : Launch) (x : Exchange), launchById s s.ev.launch = some l ∧
      exchangeAt s s.ev.die s.ev.launch s.ev.idx s.ev.off = some x ∧ networkReady s l x = false) ∧
    (∃ (s : State) (l : Launch) (x : Exchange), launchById s s.ev.launch = some l ∧
      exchangeAt s s.ev.die s.ev.launch s.ev.idx s.ev.off = some x ∧ networkReady s l x = true ∧ x.params.length = 1) ∧
    (∃ (s : State) (l : Launch) (x : Exchange), launchById s s.ev.launch = some l ∧
      exchangeAt s s.ev.die s.ev.launch s.ev.idx s.ev.off = some x ∧ networkReady s l x = true ∧ x.params.length ≠ 1) ∧
    (∃ (s : State) (l : Launch) (x : Exchange) (n : Nat), launchById s s.ev.launch = some l ∧
      exchangeAt s s.ev.die s.ev.launch s.ev.idx s.ev.off = some x ∧ x.recvAt = some n ∧ n + l.cto = s.cycle.toNat ∧ incomingList x = none ∧ x.failed = 0) ∧
    (∃ (s : State) (l : Launch) (x : Exchange) (n i : Nat), launchById s s.ev.launch = some l ∧
      exchangeAt s s.ev.die s.ev.launch s.ev.idx s.ev.off = some x ∧ x.sendAt = some n ∧ exitLink s l x.inst x.die = some i ∧
      n + l.cto = s.cycle.toNat ∧ x.sent = 1 ∧ linkUp s i = false) ∧
    (∀ late : Bool, ∃ (s : State) (k : CarryLink) (x : WirePacket) (rest : List WirePacket), linkAt s s.ev.unit = some k ∧ s.ev.unit < 7 ∧ k.flight = x :: rest ∧
      k.up = true ∧ s.ev.flag = late ∧ (s.ev.flag = true ∨ readPacket x = none)) ∧
    (∃ (s : State) (k : CarryLink) (x : WirePacket) (rest : List WirePacket) (p : CarryPacket), linkAt s s.ev.unit = some k ∧ s.ev.unit < 7 ∧ k.flight = x :: rest ∧
      k.up = true ∧ s.ev.flag = false ∧ readPacket x = some p ∧ p.seq = k.expect + 1) ∧
    (∃ (s : State) (k : CarryLink) (x : WirePacket) (rest : List WirePacket) (p : CarryPacket), linkAt s s.ev.unit = some k ∧ s.ev.unit < 7 ∧ k.flight = x :: rest ∧
      k.up = true ∧ s.ev.flag = false ∧ readPacket x = some p ∧ p.seq = k.expect) ∧
    (∃ (s : State) (k : CarryLink) (a : WirePacket) (rest : List WirePacket), linkAt s s.ev.unit = some k ∧ replyIn s k 3 k.acks = some (a, rest) ∧
      s.ev.unit < 7) ∧
    (∃ (s : State) (k : CarryLink) (a : WirePacket) (rest : List WirePacket), linkAt s s.ev.unit = some k ∧ k.pending = [] ∧
      replyIn s k 4 k.freed = some (a, rest)) ∧
    (∃ (s : State) (k : CarryLink) (l r : List CarryPacket), linkAt s s.ev.unit = some k ∧ k.resend = true ∧ k.id < 7 ∧ k.resends + 1 = 64 ∧
      k.unacked = l ++ r ∧ (∀ p ∈ l, p.seq ≠ k.expect) ∧ (∀ p, r.head? = some p → p.seq = k.expect) ∧ l ≠ [] ∧ r ≠ []) ∧
    (∃ (s : State) (k : CarryLink), linkAt s s.ev.unit = some k ∧ k.resend = true ∧ k.resends = 64) ∧
    (∃ (s : State) (k : CarryLink), linkAt s s.ev.unit = some k ∧ k.resend = false) :=
  ⟨⟨netState ox 0, g1, ox, rfl, by rfl, (by decide +kernel)⟩,
   ⟨netState { ox with contribs := [given], params := [(0, 4)] } 0, g1, _, rfl, by rfl, by decide +kernel, rfl⟩,
   ⟨netState { ox with contribs := [given], params := [(0, 4), (0, 8)] } 0, g1, _, rfl, by rfl, by decide +kernel, by decide⟩,
   ⟨netState { ox with recvAt := some 5 } (2 ^ 20 + 5), g1, _, 5, rfl, by rfl, rfl, (by decide +kernel), rfl, rfl⟩,
   ⟨linkDown { ox with sendAt := some 5, sent := 1 }, gl, { ox with sendAt := some 5, sent := 1 }, 5, 0, by rfl, by decide +kernel, rfl, by decide +kernel,
     (by decide +kernel), rfl, by decide +kernel⟩,
   fun late => match late with
     | false => ⟨linked { link0 with flight := [{ wireOf lastPacket with bad := true }] }, _, _, _, by rfl, by decide, rfl, rfl, rfl, .inr rfl⟩
     | true => ⟨{ linked { link0 with flight := [wireOf lastPacket] } with ev := { flag := true } }, _, _, _, by rfl, by decide, rfl, rfl, rfl, .inl rfl⟩,
   (have ⟨p, h, hp⟩ := exists_some (o := readPacket (wireOf { lastPacket with seq := 1 })) (fun p => decide (p.seq = 1)) (by decide +kernel)
    ⟨linked { link0 with flight := [wireOf { lastPacket with seq := 1 }] }, _, _, _, p, by rfl, by decide, rfl, rfl, rfl, h, of_decide_eq_true hp⟩),
   (have ⟨p, h, hp⟩ := exists_some (o := readPacket (wireOf lastPacket)) (fun p => decide (p.seq = 0)) (by decide +kernel)
    ⟨linked { link0 with flight := [wireOf lastPacket] }, _, _, _, p, by rfl, by decide, rfl, rfl, rfl, h, of_decide_eq_true hp⟩),
   ⟨linked { link0 with acks := [linkReply 3 3] }, _, linkReply 3 3, [], by rfl, rfl, by decide +kernel⟩,
   ⟨linked { link0 with freed := [linkReply 4 0] }, _, linkReply 4 0, [], by rfl, rfl, rfl⟩,
   ⟨linked { link0 with resend := true, resends := 63, expect := 1, unacked := [lastPacket, { lastPacket with seq := 1 }] }, _, [lastPacket],
     [{ lastPacket with seq := 1 }], by rfl, rfl, by decide, rfl, rfl, by intro p hp; rw [List.mem_singleton.mp hp]; decide, by intro p hp; cases hp; rfl,
     by decide, by decide⟩,
   ⟨linked { link0 with resend := true, resends := 64 }, _, by rfl, rfl, rfl⟩, ⟨linked link0, _, by rfl, rfl⟩⟩

/-- A packet that another package sends to an entry port; the resend requests of an exit port, for a copy that it keeps, after 63 and 64
resends, and for none. -/
def portLink (n : Nat) : CarryLink := { link0 with id := 8, resends := n, unacked := [lastPacket, { lastPacket with seq := 1 }] }
def ported8 (n : Nat) (seq : Nat) : State := { linked (portLink n) with ev := { unit := 8, off := seq } }
theorem test_meets_CarryAndFabricEvents_ports :
    (∃ (s : State) (k k1 : CarryLink) (x : WirePacket) (p : CarryPacket), linkAt s s.ev.unit = some k ∧ Arrives s k x k1 ∧ 7 ≤ s.ev.unit ∧ k.up = true ∧
      s.ev.flag = false ∧ readPacket x = some p ∧ p.seq = k.expect) ∧
    (∃ (s : State) (k : CarryLink) (l r : List CarryPacket) (p : CarryPacket), linkAt s s.ev.unit = some k ∧ k.resend = false ∧ s.ev.unit = 8 ∧ k.resends + 1 = 64 ∧
      k.unacked = l ++ p :: r ∧ (∀ q ∈ l, q.seq ≠ s.ev.off) ∧ p.seq = s.ev.off) ∧
    (∃ (s : State) (k : CarryLink), linkAt s s.ev.unit = some k ∧ k.resend = false ∧ s.ev.unit = 8 ∧ (∃ p ∈ k.unacked, p.seq = s.ev.off) ∧ k.resends = 64) ∧
    ∃ (s : State) (k : CarryLink), linkAt s s.ev.unit = some k ∧ k.resend = false ∧ s.ev.unit = 8 ∧ k.unacked ≠ [] ∧ ∀ p ∈ k.unacked, p.seq ≠ s.ev.off := by
  obtain ⟨p, h, hp⟩ := exists_some (o := readPacket (wireOf lastPacket)) (fun p => decide (p.seq = 0)) (by decide +kernel)
  refine ⟨⟨{ linked { link0 with id := 8 } with ev := { unit := 8, pkt := some (wireOf lastPacket) } }, _, _, _, p, by rfl, .inr ⟨by decide, rfl, rfl⟩, by decide, rfl, rfl, h,
      of_decide_eq_true hp⟩,
    ⟨ported8 63 1, _, [lastPacket], [], { lastPacket with seq := 1 }, by rfl, rfl, rfl, rfl, rfl, ?_, rfl⟩,
    ⟨ported8 64 1, _, by rfl, rfl, rfl, ⟨{ lastPacket with seq := 1 }, .tail _ (.head _), rfl⟩, rfl⟩, ⟨ported8 5 9, _, by rfl, rfl, rfl, ?_, ?_⟩⟩
  · intro q hq
    rw [List.mem_singleton.mp hq]
    decide
  · intro h; cases h
  · intro q hq
    rcases List.mem_cons.mp hq with rfl | hq
    · decide
    · rw [List.mem_singleton.mp hq]
      decide

/-- A request to another device, at this phase. -/
def askMsg (ph w : Nat) : FabMsg := { mkMsg (pk tc) 0 0 tc ⟨4, 0, 1, 0, 7, 1, 0, 0⟩ 0 0 8 0 0 0 0 0 w 0 with id := 0, dst := 9, unit := 2, phase := ph }

/-- A posted row to a member of group 3 of two devices. -/
def groupMsg : FabMsg := { askMsg 0 0 with peer := 2 ^ 62 + 3 * 16, members := [1, 2] }

theorem test_meets_CarryAndFabricEvents_fabric :
    (∀ k < 2, ∃ (s : State) (m : FabMsg), s.ev.msg = none ∧ s.fabric.msgs.find? (fun m => decide (m.id = s.ev.idx)) = some m ∧ m.inbound = false ∧ m.phase = 0 ∧
      (s.ev.kind = 6 ∨ m.data.row? = none) ∧ (k = 0 → s.ev.kind = 6) ∧ (k = 1 → m.data.row? = none) ∧ m.resends + 1 = 64) ∧
    (∀ late : Bool, ∃ (s : State) (m : FabMsg), s.ev.msg = none ∧ s.fabric.msgs.find? (fun m => decide (m.id = s.ev.idx)) = some m ∧ m.inbound = false ∧ m.phase = 0 ∧
      s.ev.kind ≠ 6 ∧ m.data.row? ≠ none ∧ s.ev.flag = late ∧ (s.ev.flag = false ∨ m.cls = 1 ∨ m.cls = 4) ∧ cidDead s m.cid = false ∧ groupStale s m = false ∧
      m.onPackage = false ∧ m.expires = none) ∧
    (∀ k < 2, ∃ (s : State) (m : FabMsg), s.ev.msg = none ∧ s.fabric.msgs.find? (fun m => decide (m.id = s.ev.idx)) = some m ∧ m.inbound = false ∧ m.phase = 0 ∧
      s.ev.kind ≠ 6 ∧ m.data.row? ≠ none ∧ s.ev.flag = true ∧ m.cls ≠ 1 ∧ m.cls ≠ 4 ∧ m.refused = k ∧ (k = 1 → m.retries + 1 = retryLimit s (m.cid / 256))) ∧
    (∃ (s : State) (m : FabMsg), s.ev.msg = none ∧ s.fabric.msgs.find? (fun m => decide (m.id = s.ev.idx)) = some m ∧ m.inbound = false ∧ m.phase = 0 ∧
      s.ev.kind ≠ 6 ∧ m.data.row? ≠ none ∧ s.ev.flag = true ∧ m.cls ≠ 1 ∧ m.cls ≠ 4 ∧ m.refused ≠ 0 ∧ m.retries = retryLimit s (m.cid / 256)) ∧
    (∃ (s : State) (m : FabMsg), s.fabric.msgs.find? (fun m => decide (m.id = s.ev.idx)) = some m ∧ m.inbound = false ∧ m.phase = 1 ∧ m.due = s.cycle.toNat) ∧
    (∃ s : State, s.fabric.msgs ≠ [] ∧ ∀ m ∈ s.fabric.msgs, m.id = s.ev.idx → (m.inbound = true ∧ m.forwarded = false) ∨ m.onPackage = true ∨ 1 < m.phase) ∧
    (∀ w < 2, ∀ k < 2, ∃ (s : State) (m : FabMsg),
      s.fabric.msgs.find? (fun m => decide (m.id = s.ev.idx) && (!m.inbound || m.forwarded) && !m.onPackage && decide (m.phase ≤ 1)) = some m ∧
      (s.ev.answer.getD (payloadOf m.size s.ev.row.toNat)).row? ≠ none ∧ m.inbound = false ∧ m.peer.testBit 62 = false ∧ m.waiter = w ∧ s.ev.kind = k) ∧
    (∀ sent : Bool, ∃ (s : State) (m : FabMsg),
      s.fabric.msgs.find? (fun m => decide (m.id = s.ev.idx) && (!m.inbound || m.forwarded) && !m.onPackage && decide (m.phase ≤ 1)) = some m ∧
      (sent = true → m.inbound = true ∧ (s.ev.answer.getD (payloadOf m.size s.ev.row.toNat)).row? ≠ none) ∧
      (sent = false → m.resends + 1 = 64 ∧ (s.ev.answer.getD (payloadOf m.size s.ev.row.toNat)).row? = none)) ∧
    (∃ (s : State) (m : FabMsg),
      s.fabric.msgs.find? (fun m => decide (m.id = s.ev.idx) && (!m.inbound || m.forwarded) && !m.onPackage && decide (m.phase ≤ 1)) = some m ∧
      (s.ev.answer.getD (payloadOf m.size s.ev.row.toNat)).row? ≠ none ∧ m.inbound = false ∧ m.peer.testBit 62 = true ∧ s.ev.unit ∉ m.members) ∧
    (∃ (s : State) (m : FabMsg) (n : Nat), s.fabric.msgs.find? (fun m => decide (m.id = s.ev.idx)) = some m ∧ m.inbound = false ∧ m.phase = 0 ∧
      m.peer.testBit 62 = false ∧ m.expires = some n ∧ n = s.cycle.toNat) := by
  refine ⟨?_, ?_, ?_, ⟨withMsg (regSet (pk tc) 0 rFABPOL 0x3_0000) { askMsg 0 1 with refused := 1, retries := 3 } { flag := true }, _, rfl, by rfl, rfl, rfl,
      by decide, (by decide +kernel), rfl, by decide, by decide, by decide, by decide +kernel⟩,
    ⟨withMsg (pk tc) (askMsg 1 1), _, by rfl, rfl, rfl, rfl⟩, ⟨withMsg (pk tc) (askMsg 2 1), by decide +kernel, ?_⟩, ?_, ?_,
    ⟨withMsg (pk tc) groupMsg, groupMsg, by rfl, (by decide +kernel), by rfl, by decide +kernel, by decide +kernel⟩,
    ⟨withMsg (pk tc) { askMsg 0 1 with expires := some 0 }, _, 0, by rfl, rfl, rfl, (by decide +kernel), rfl, rfl⟩⟩
  · intro k _
    by_cases h : k = 0
    · exact ⟨withMsg (pk tc) { askMsg 0 1 with resends := 63 } { kind := 6 }, _, rfl, by rfl, rfl, rfl, .inl rfl, fun _ => rfl, fun h2 => by omega, rfl⟩
    · exact ⟨withMsg (pk tc) { askMsg 0 1 with resends := 63, data := .record ⟨0xFF, []⟩ }, _, rfl, by rfl, rfl, rfl, .inr (by decide +kernel), fun h2 => absurd h2 h,
        fun _ => by decide +kernel, rfl⟩
  · intro late
    cases late
    · exact ⟨withMsg (pk tc) (askMsg 0 1), _, rfl, by rfl, rfl, rfl, by decide, by decide +kernel, rfl, .inl rfl, by decide +kernel, (by decide +kernel),
        by decide +kernel, rfl⟩
    · exact ⟨withMsg (pk tc) { askMsg 0 1 with cls := 4 } { flag := true }, _, rfl, by rfl, rfl, rfl, by decide, by decide +kernel, rfl, .inr (.inr rfl),
        (by decide +kernel), by decide +kernel, by decide +kernel, rfl⟩
  · intro k hk
    obtain rfl | rfl : k = 0 ∨ k = 1 := by omega
    · exact ⟨withMsg (pk tc) (askMsg 0 1) { flag := true }, _, rfl, by rfl, rfl, rfl, by decide, (by decide +kernel), rfl, by decide, by decide, rfl, fun h => by omega⟩
    · exact ⟨withMsg (regSet (pk tc) 0 rFABPOL 0x3_0000) { askMsg 0 1 with refused := 1, retries := 2 } { flag := true }, _, rfl, by rfl, rfl, rfl,
        by decide, by decide +kernel, rfl, by decide, by decide, rfl, fun _ => by decide +kernel⟩
  · intro m hm _
    rw [List.mem_singleton.mp hm]
    exact .inr (.inr (by decide))
  · intro w _ k _
    exact ⟨withMsg (pk tc) (askMsg 1 w) { kind := k, answer := some (.raw 5) }, askMsg 1 w, by rfl, (by intro h; cases h), rfl, by show Nat.testBit 7 62 = false; decide, rfl, rfl⟩
  · intro sent
    cases sent
    · exact ⟨withMsg (pk tc) { askMsg 1 1 with resends := 63 } { answer := some (.record ⟨0xFF, []⟩) }, { askMsg 1 1 with resends := 63 }, by rfl, (by intro h; cases h),
        fun _ => ⟨rfl, by decide +kernel⟩⟩
    · exact ⟨withMsg (pk tc) { askMsg 1 1 with inbound := true, forwarded := true } { answer := some (.raw 5) }, { askMsg 1 1 with inbound := true, forwarded := true }, by rfl,
        fun _ => ⟨rfl, by intro h; cases h⟩, by intro h; cases h⟩


/-! The scheduler: a record accepted and refused, a queue's head with its dependences, placement, pipelines, digests. -/

/-- A record of one crew: text object 1, DONE in object 2, save area in object 3. -/
def image : BitVec 4096 := BitVec.ofNat 4096 (1 + put 0x1F 4 1 + put 1 5 1 + put 1 8 4 + put (2 * 2 ^ 40) 16 8 + put 1 24 8 + put 16 32 2 + put 16 34 2 +
  put 8 38 2 + put (3 * 2 ^ 40) 40 8 + put 1 128 8)
def sub0 (x : BitVec 4096) : Submission := ⟨0, false, 0, 2, 512, x⟩
/-- Queue 0 enabled for tenant 0 on every quarter, a virtual network on die 0. -/
def open0 (s : State) : State := regSet (regSet s 0 (rVNCFG 0 0) 1) 0 (rLQCFG 0) 0xF0_0001
def arriving (s : State) (x : BitVec 4096) : State := { s with sched := { s.sched with arrivals := [sub0 x] } }
def accepting : State := arriving (open0 (withObjects (pk tc))) image

theorem test_meets_SchedulerEvents_records :
    (∃ (s : State) (sub : Submission) (rest : List Submission), s.sched.arrivals = sub :: rest ∧ s.ev.flag = false ∧
      recordHeld s (fnTenant s sub.fn) sub.image = none ∧ refuseReason (recordTaken s rest) sub (recordLaunch s sub rest) = none) ∧
    (∃ (s : State) (sub : Submission) (rest : List Submission), s.sched.arrivals = sub :: rest ∧ s.ev.flag = false ∧
      recordHeld s (fnTenant s sub.fn) sub.image = none ∧ BreaksLimits s sub (recordLaunch s sub rest)) ∧
    (∃ (s : State) (sub : Submission) (rest : List Submission) (r : Nat), s.sched.arrivals = sub :: rest ∧ s.ev.flag = false ∧
      recordHeld s (fnTenant s sub.fn) sub.image = none ∧
      refuseReason (recordTaken s rest) sub (recordLaunch s sub rest) = some r ∧
      extentFits (recordTaken s rest) (recordLaunch s sub rest).tenant (recordLaunch s sub rest).doneObj.toNat 0 8 = true) ∧
    (∃ (s : State) (sub : Submission) (rest : List Submission) (r : Nat), s.sched.arrivals = sub :: rest ∧ s.ev.flag = false ∧
      recordHeld s (fnTenant s sub.fn) sub.image = none ∧
      refuseReason (recordTaken s rest) sub (recordLaunch s sub rest) = some r ∧
      extentFits (recordTaken s rest) (recordLaunch s sub rest).tenant (recordLaunch s sub rest).doneObj.toNat 0 8 = false) :=
  ⟨⟨accepting, sub0 image, [], (by decide +kernel), rfl, by decide +kernel, by decide +kernel⟩,
   ⟨arriving (pk tc) (image + 2 ^ 256), sub0 (image + 2 ^ 256), [], rfl, rfl, (by decide +kernel), by unfold BreaksLimits; decide +kernel⟩,
   ⟨arriving (open0 (withObjects (pk tc))) (image + 1), sub0 (image + 1), [], 1, by decide +kernel, rfl, by decide +kernel, (by decide +kernel), by decide +kernel⟩,
   ⟨arriving (pk tc) image, sub0 image, [], 13, by decide +kernel, rfl, (by decide +kernel), by decide +kernel, by decide +kernel⟩⟩

/-- A launch at the head of queue 0 with these dependences; object 2 holding `x`. -/
def ql (deps : List (Word × Word × Bool)) : Launch := { small with nextRank := 0, deps := deps }
def depAt (x : Nat) (y : Word) : Launch := ql [(2 * 2 ^ 40, y, decide (x = 99))]
def queued (l : Launch) (ready : List Nat) (x : Nat) : State :=
  let s := open0 (withObjects { State.reset with sched := { State.reset.sched with launches := [l], nextLaunch := 1, queued := [(0, 0)], ready := ready } })
  { s with mem := memWriteN s.mem ((extentKey s 0 2 0).getD 0) x 8, ev := { slots := [(0, 0)] } }

/-- One whose inputs are digested: the first row of object 2. -/
def digging : Launch := { ql [] with flags := small.flags ||| 0x80, digList := [1, BitVec.ofNat 512 (2 * 2 ^ 40 + 64 * 2 ^ 64 + 1 * 2 ^ 120)] }

theorem test_meets_SchedulerEvents_queues :
    (∃ (s : State) (l : Launch), queueHead s s.ev.queue = some l ∧ s.ev.queue ∉ s.sched.ready ∧ ∃ d ∈ l.deps, ¬IsMet s l d) ∧
    (∃ (s : State) (l : Launch), queueHead s s.ev.queue = some l ∧ s.ev.queue ∉ s.sched.ready ∧ l.deps ≠ [] ∧ (∀ d ∈ l.deps, IsMet s l d) ∧
      ∀ d ∈ l.deps, ¬Cancels s l d) ∧
    (∃ (s : State) (l : Launch), queueHead s s.ev.queue = some l ∧ s.ev.queue ∉ s.sched.ready ∧ (∀ d ∈ l.deps, IsMet s l d) ∧ ∃ d ∈ l.deps, Cancels s l d) ∧
    (∃ (s : State) (l : Launch) (core slot : Nat), queueHead s s.ev.queue = some l ∧ s.ev.slots = [(core, slot)] ∧ slotEligible s l core slot false = false) ∧
    (∃ (s : State) (l : Launch) (core slot : Nat), queueHead s s.ev.queue = some l ∧ s.ev.slots = [(core, slot)] ∧ slotEligible s l core slot false = true ∧
      s.ev.queue ∈ s.sched.ready ∧ frontEndsOpen s = true ∧ l.nextRank < ordinaryCrews l ∧ placeUnit l = 1 ∧ unitPlaceOk l [(core, slot)] = true ∧
      outranked s l [(core, slot)] true = false) ∧
    (∃ (s : State) (l : Launch), queueHead s s.ev.queue = some l ∧ s.ev.queue ∉ s.sched.ready ∧ s.host.cloveError = false ∧ (∀ d ∈ l.deps, IsMet s l d) ∧
      (∀ d ∈ l.deps, ¬Cancels s l d) ∧ (digCheck (setLaunch s (observed s l)) (observed s l) 0).2 = true) ∧
    ∃ s : State, s.host.cloveError = true ∧ s.ev.flag = false := by
  refine ⟨⟨queued (depAt 4 5) [] 4, depAt 4 5, (by decide +kernel), by decide +kernel, _, List.mem_singleton.mpr rfl, ?_⟩,
    ⟨queued (depAt 5 5) [] 5, depAt 5 5, by decide +kernel, (by decide +kernel), by decide, ?_, ?_⟩,
    ⟨queued (depAt 5 (5 + 2 ^ 63)) [] (5 + 2 ^ 63), depAt 5 (5 + 2 ^ 63), by decide +kernel, by decide +kernel, ?_, _, List.mem_singleton.mpr rfl, ?_⟩,
    ⟨{ queued (ql []) [0] 0 with ev := { slots := [(0, 2)] } }, ql [], 0, 2, (by decide +kernel), rfl, by decide +kernel⟩,
    ⟨queued (ql []) [0] 0, ql [], 0, 0, by decide +kernel, (by decide +kernel), by decide +kernel, by decide +kernel, (by decide +kernel), by decide +kernel,
      by decide +kernel, (by decide +kernel), by decide +kernel⟩,
    ⟨regSet (unmapped (queued digging [] 0)) 0 rFQCFG 0x8000_0000, digging, by decide +kernel, (by decide +kernel), by decide +kernel, fun _ h => absurd h (List.not_mem_nil),
      fun _ h => absurd h (List.not_mem_nil), by decide +kernel⟩,
    ⟨{ pk tc with host := { (pk tc).host with cloveError := true } }, rfl, rfl⟩⟩
  · unfold IsMet; decide +kernel
  · intro d hd; obtain rfl := List.mem_singleton.mp hd; unfold IsMet; decide +kernel
  · intro d hd; obtain rfl := List.mem_singleton.mp hd; unfold Cancels; decide +kernel
  · intro d hd; obtain rfl := List.mem_singleton.mp hd; unfold IsMet; decide +kernel
  · unfold Cancels; decide +kernel

theorem test_meets_SchedulerEvents_calendar :
    (∃ s : State, s.sched.calPending ≠ [] ∧ ∀ e ∈ s.sched.calPending, e.1 = s.ev.die → s.cycle.toNat / 1024 ≤ e.2) ∧
    (∃ s : State, ∃ e ∈ s.sched.calPending, e.1 = s.ev.die ∧ e.2 + 1 = s.cycle.toNat / 1024) ∧ (∃ s : State, s.ev.v.getLsbD 0 = false) ∧
    ∃ s : State, s.ev.v.getLsbD 0 = true ∧ (∀ e ∈ s.sched.calPending, e.1 ≠ s.ev.die) ∧ s.ev.die = 7 ∧ regsAnswer s = true :=
  ⟨⟨{ pk tc with sched := { (pk tc).sched with calPending := [(0, 0)] } }, by decide, by decide⟩,
   ⟨{ pk tc with sched := { (pk tc).sched with calPending := [(0, 0)] }, cycle := 1024 }, (0, 0), by decide, by decide⟩, ⟨pk tc, rfl⟩,
   ⟨{ pk tc with ev := { v := 1, die := 7 } }, rfl, by decide, rfl, (by decide +kernel)⟩⟩

/-- A pipeline of two stages of at most two instances of one crew, one instance of each placed. -/
def pipe : Launch := { small with flags := 0x41, levels := [⟨1, 0, 0⟩, ⟨2, 0, 0⟩, ⟨2, 0, 0⟩], stages := [2 ^ 63 + 2 ^ 32 + 2 ^ 16 + 1, 2 ^ 32 + 2 ^ 16 + 1],
                                  nextRank := 2, placed := [1, 1] }
def piped (crews : List (Nat × Crew)) (a : EvArgs) : State :=
  let s := open0 (withObjects { State.reset with crews := crews, sched := { State.reset.sched with launches := [pipe], nextLaunch := 1, pipes := [(0, 1, 1, [(1, 1)])] } })
  { s with ev := a, mem := memWriteN s.mem ((extentKey s 0 1 0).getD 0) (encode (.rwaitf 0 0 3 1 2)) 24 }
/-- Object 5, one page: page 0 of the partition that binding 0 names, the crew of this rank of the first launch (R331 to R335). -/
def bound (s : State) (rank : Nat) : State :=
  let w (m : Memory) (a x : Nat) : Memory := memWriteN m (((hbmPlace s a).map fun p => hbmKey p.1 p.2).getD 0) x 8
  let done := ((s.sched.launches.head?).map fun l => l.doneObj.toNat).getD 0
  let m := [(0xA0, 2 ^ 63 + 2 ^ 62 + 0xFF * 2 ^ 50 + 16384), (0xA8, 1), (0x3000, done + 1), (0x3008, rank), (0x160000, 0x168001), (0x168000, 0x170001),
    (0x170000, 2 * 2 ^ 61 + 2 ^ 59 + 0x17)].foldl (fun m p => w m p.1 p.2) s.mem
  regSet (regSet { s with mem := m } 0 rFSROOT 0x8000_0000_0016_0000) 0 rBDBASE 0x0010_0000_0000_3000
/-- Its second instance of stage 1, every stream waiting, A on its RWAITF of the ring in instance 0's partition. -/
def idleCrew : Crew :=
  let c := withK (freshCrew pipe 3 0) 1 (mkCap 4 0xFF 5 1 16384 0)
  { c with strC := { c.strC with wait := 1 }, strA := { c.strA with wait := 9 }, strV := { c.strV with wait := 1 }
           strM := { c.strM with wait := 1 }, strS := { c.strS with wait := 1 }, ctl := { c.ctl with stall := 1024 } }
/-- Instance 0 of stage 1 on core 0, instance 1 on core 1. -/
def parking : State := bound (piped [(0, freshCrew pipe 2 0), (2, idleCrew)] { kind := 1, idx := 1 }) 2

/-- A held-back launch whose run has ended; object 2 holds a digest list of one entry of no row. -/
def ended (flags : BitVec 16) (run : Nat) (out : List (BitVec 128)) : Launch :=
  { small with flags := flags, held := 1, run := run, outDig := out, digl := 2 * 2 ^ 40, digList := [1, BitVec.ofNat 512 (put 2 15 1)] }
def digesting (l : Launch) : State :=
  withObjects { State.reset with sched := { State.reset.sched with launches := [l], nextLaunch := 1 } }

/-- Its output the first row of object 2. -/
def behind : Launch := { ended 0x83 0 [] with digList := [1, BitVec.ofNat 512 (2 * 2 ^ 40 + 64 * 2 ^ 64 + 2 * 2 ^ 120)] }
theorem free_of {s : State} {l : Launch} {b : Nat} (h : digRows l b = []) : digCheck s l b = (s, false) := by
  unfold digCheck
  rw [h]
  rfl

theorem test_meets_SchedulerEvents_pipelines :
    (∃ (s : State) (l : Launch) (core slot i : Nat), launchById s s.ev.launch = some l ∧ OneCrewStage l s.ev.kind ∧ l.completed = false ∧
      ordinaryCrews l = l.nextRank ∧ rankHere l (stageRank l s.ev.kind i 0) = true ∧ stHold (l.stages.getD s.ev.kind 0) = (pipeHistory s l.id s.ev.kind).1 ∧ s.ev.slots = [(core, slot)] ∧
      unitPlaceOk l [(core, slot)] = true ∧ slotEligible s l core slot false = true ∧ i + 1 = stageMax l ∧
      (l.placed.getD s.ev.kind 0).testBit i = false ∧ (∀ j, j < i → (l.placed.getD s.ev.kind 0).testBit j = true) ∧
      ∀ x ∈ s.sched.saved, ¬(x.launch = l.id ∧ x.rank = stageRank l s.ev.kind i 0 ∧ x.kind = 7)) ∧
    (∃ (s : State) (l : Launch) (k : Nat) (c : Crew), launchById s s.ev.launch = some l ∧ OneCrewStage l s.ev.kind ∧ l.completed = false ∧ s.ev.idx ≠ 0 ∧
      residentOf s l.id (stageRank l s.ev.kind s.ev.idx 0) = some k ∧ asGet s.crews k = some c ∧ c.launch = l.id ∧ c.rank = stageRank l s.ev.kind s.ev.idx 0 ∧
      stHold (l.stages.getD s.ev.kind 0) = (spGet (pipeHistory s l.id s.ev.kind).2 s.ev.idx).toNat ∧ 1024 * stHold (l.stages.getD s.ev.kind 0) = c.ctl.stall ∧
      (∃ key, ringHome s l s.ev.kind = some key ∧ instanceIdle s l s.ev.kind s.ev.idx key = true) ∧
      mayStop s (k / 2) (k % 2) c = true ∧ saveReady s (k / 2) (k % 2) c = true ∧ RecordFits s (k / 2) (k % 2) c l) ∧
    (∃ (s : State) (l : Launch), launchById s s.ev.launch = some l ∧ RunEnded s l ∧ digCheck s l 1 = (s, false) ∧ digCheck s l 0 = (s, false) ∧ l.flags.getLsbD 2 = true ∧ l.run = 0) ∧
    (∃ (s : State) (l : Launch), launchById s s.ev.launch = some l ∧ RunEnded s l ∧ digCheck s l 1 = (s, false) ∧ digCheck s l 0 = (s, false) ∧ l.flags.getLsbD 2 = false) ∧
    (∃ (s : State) (l : Launch), launchById s s.ev.launch = some l ∧ RunEnded s l ∧ (digCheck s l 1).2 = true) ∧
    (∃ (s : State) (l : Launch), launchById s s.ev.launch = some l ∧ RunEnded s l ∧ digCheck s l 1 = (s, false) ∧ digCheck s l 0 = (s, false) ∧
      l.flags.getLsbD 2 = true ∧ l.run ≠ 0 ∧ digests s l 1 = l.outDig ∧
      digests s l 0 = l.inDig) ∧
    (∃ (s : State) (l : Launch), launchById s s.ev.launch = some l ∧ RunEnded s l ∧ digCheck s l 1 = (s, false) ∧ digCheck s l 0 = (s, false) ∧
      l.flags.getLsbD 2 = true ∧ l.run ≠ 0 ∧ digests s l 1 ≠ l.outDig ∧
      (digests s l 1).length = l.outDig.length) :=
  ⟨⟨piped [] { kind := 1, slots := [(0, 0)] }, pipe, 0, 0, 1, by decide +kernel, by unfold OneCrewStage; decide +kernel, rfl, by decide +kernel, (by decide +kernel), by decide +kernel,
     by decide +kernel, (by decide +kernel), by decide +kernel, by decide +kernel, (by decide +kernel), by decide +kernel, by decide +kernel⟩,
   (have ⟨key, hk, hi⟩ := exists_some (o := ringHome parking pipe 1) (fun key => instanceIdle parking pipe 1 1 key) (by decide +kernel)
    ⟨parking, pipe, 2, idleCrew, (by decide +kernel), by unfold OneCrewStage; decide +kernel, rfl, by decide +kernel, by decide +kernel, (by decide +kernel), rfl,
     by decide +kernel, by decide +kernel, (by decide +kernel), ⟨key, hk, hi⟩, by decide +kernel, by decide +kernel, by unfold RecordFits; decide +kernel⟩),
   ⟨digesting (ended 0x05 0 []), ended 0x05 0 [], (by decide +kernel), by unfold RunEnded; decide +kernel, free_of (by decide +kernel), free_of (by decide +kernel),
     by decide, rfl⟩,
   ⟨digesting (ended 0x83 0 []), ended 0x83 0 [], by decide +kernel, by unfold RunEnded; decide +kernel, free_of (by decide +kernel), free_of (by decide +kernel),
     by decide⟩,
   ⟨regSet (unmapped (digesting behind)) 0 rFQCFG 0x8000_0000, behind, by decide +kernel, by unfold RunEnded; decide +kernel, (by decide +kernel)⟩,
   ⟨digesting (ended 0x05 1 []), ended 0x05 1 [], by decide +kernel, by unfold RunEnded; decide +kernel, free_of (by decide +kernel), free_of (by decide +kernel), by decide, by decide,
     by decide +kernel, (by decide +kernel)⟩,
   ⟨digesting (ended 0x85 1 [7]), ended 0x85 1 [7], by decide +kernel, by unfold RunEnded; decide +kernel, free_of (by decide +kernel), free_of (by decide +kernel), by decide, by decide,
     by decide +kernel, (by decide +kernel)⟩⟩


/-! The host queues: a submission ring of function `fn` at host address 0x40000 whose entry 1 is next, and each of its ends. -/

def hEntry (seq op lq note obj haddr rows : Nat) : Row :=
  BitVec.ofNat 512 (put seq 0 4 + put op 4 1 + put lq 5 1 + put note 6 1 + put obj 8 8 + put haddr 16 8 + put rows 24 4)
def posted (s : State) (fn : Nat) (e : Row) : State :=
  let s1 := regSet (regSet (regSet s fn rHSQCFG (2 ^ 31)) fn rHSQBASE 0x40000) fn rHSQDB 5
  { s1 with mem := memWriteN s1.mem (hostKey (ringSlot s1 fn rHSQBASE rHSQCFG 1)) e.toNat 64
            host := { s1.host with fetching := [fn] }, ev := { fn := fn } }
def hs : State := open0 (withObjects (pk tc))
/-- An echo, a launch, a copy, a suspend, and an entry of no known operation. -/
def eEcho : Row := hEntry 1 5 0 1 0 0 0
def eLaunch : Row := hEntry 1 1 0 1 (2 * 2 ^ 40 + 512) 0 0
def eCopy (op rows : Nat) : Row := hEntry 1 op 0 1 (2 * 2 ^ 40 + 64) 0x50000 rows
def eStop : Row := hEntry 1 4 0 1 0 0 0

theorem hands (s : State) (fn : Nat) (e : Row) (h : (decide (expected (posted s fn e) fn = some e) && decide (heSeq e = 1) &&
    decide ((regGet (posted s fn e) fn rHSQACK).toNat = 0) && !eventsWait (posted s fn e) fn && !(posted s fn e).host.cloveError) = true) :
    HandsOver (posted s fn e) fn e := by
  simp only [Bool.and_eq_true, decide_eq_true_eq, Bool.not_eq_true'] at h
  obtain ⟨⟨⟨⟨h1, h2⟩, h3⟩, h4⟩, h5⟩ := h
  exact ⟨h1, fun _ => h4, by omega, h5⟩

theorem test_meets_HostQueueEvents_entries :
    (∀ op ∈ [0, 6, 255], ∃ (s : State) (e : Row) (i : Instr), TakesEntries i ∧ s.ev.flag = false ∧ HandsOver s s.ev.fn e ∧ heOp e = op) ∧
    (∃ (s : State) (e : Row) (i : Instr), TakesEntries i ∧ s.ev.flag = false ∧ HandsOver s s.ev.fn e ∧ ¬IsFor i e ∧ heOp e = 5) ∧
    (∃ (s : State) (e : Row) (i : Instr), TakesEntries i ∧ s.ev.flag = false ∧ expected s s.ev.fn = some e ∧ (heNote e = true → eventsWait s s.ev.fn = false) ∧
      heSeq e ≠ ((regGet s s.ev.fn rHSQACK).toNat + 1) % 2 ^ 32 ∧ seqAbove (regGet s s.ev.fn rHSQACK).toNat (heSeq e) = true) ∧
    (∃ (s : State) (e : Row) (i : Instr), TakesEntries i ∧ s.ev.flag = false ∧ expected s s.ev.fn = some e ∧ (heNote e = true → eventsWait s s.ev.fn = false) ∧
      heSeq e ≠ ((regGet s s.ev.fn rHSQACK).toNat + 1) % 2 ^ 32 ∧ seqAbove (regGet s s.ev.fn rHSQACK).toNat (heSeq e) = false) ∧
    (∃ (s : State) (e : Row) (i : Instr), TakesEntries i ∧ s.ev.flag = false ∧ expected s s.ev.fn = some e ∧ (heNote e = true → eventsWait s s.ev.fn = false) ∧
      heSeq e = ((regGet s s.ev.fn rHSQACK).toNat + 1) % 2 ^ 32 ∧ s.host.cloveError = true) ∧
    (∃ (s : State) (i : Instr), TakesEntries i ∧ s.ev.flag = false ∧ expected s s.ev.fn = none) ∧
    (∃ (s : State) (e : Row), HandsOver s s.ev.fn e ∧ heOp e = 5) ∧
    (∀ fn < 2, ∃ (s : State) (e : Row), HandsOver s s.ev.fn e ∧ heOp e = 4 ∧ s.ev.fn = fn) := by
  refine ⟨?_, ⟨posted (pk tc) 0 eEcho, eEcho, .hostSuspend, by unfold TakesEntries; decide, rfl, hands _ _ _ (by decide +kernel), by unfold IsFor; decide +kernel,
      by decide +kernel⟩,
    ⟨posted (pk tc) 0 (hEntry 3 5 0 1 0 0 0), hEntry 3 5 0 1 0 0 0, .hostEcho, by unfold TakesEntries; decide, rfl, by decide +kernel, (fun _ => by decide +kernel),
      (by decide +kernel), by decide +kernel⟩,
    ⟨posted (pk tc) 0 (hEntry 0 5 0 1 0 0 0), hEntry 0 5 0 1 0 0 0, .hostEcho, by unfold TakesEntries; decide, rfl, by decide +kernel, (fun _ => by decide +kernel),
      (by decide +kernel), by decide +kernel⟩,
    ⟨{ posted (pk tc) 0 eEcho with host := { (posted (pk tc) 0 eEcho).host with cloveError := true } }, eEcho, .hostEcho, by unfold TakesEntries; decide, rfl,
      by decide +kernel, (fun _ => by decide +kernel), (by decide +kernel), rfl⟩,
    ⟨pk tc, .hostEcho, by unfold TakesEntries; decide, rfl, by decide +kernel⟩,
    ⟨posted (pk tc) 0 eEcho, eEcho, hands _ _ _ (by decide +kernel), by decide +kernel⟩, ?_⟩
  · intro op h
    simp only [List.mem_cons, List.not_mem_nil, or_false] at h
    obtain rfl | rfl | rfl := h
    · exact ⟨posted (pk tc) 0 (hEntry 1 0 0 1 0 0 0), _, .hostEcho, by unfold TakesEntries; decide, rfl, hands _ _ _ (by decide +kernel), (by decide +kernel)⟩
    · exact ⟨posted (pk tc) 0 (hEntry 1 6 0 1 0 0 0), _, .hostEcho, by unfold TakesEntries; decide, rfl, hands _ _ _ (by decide +kernel), by decide +kernel⟩
    · exact ⟨posted (pk tc) 0 (hEntry 1 255 0 1 0 0 0), _, .hostEcho, by unfold TakesEntries; decide, rfl, hands _ _ _ (by decide +kernel), by decide +kernel⟩
  · intro fn h
    obtain rfl | rfl : fn = 0 ∨ fn = 1 := by omega
    · exact ⟨posted (pk tc) 0 eStop, eStop, hands _ _ _ (by decide +kernel), (by decide +kernel), rfl⟩
    · exact ⟨posted (pk tc) 1 eStop, eStop, hands _ _ _ (by decide +kernel), by decide +kernel, rfl⟩

/-- The tables behind an absent page, whose pager's queue is on, or off. -/
def hidden (on : Bool) (e : Row) : State := posted (regSet (unmapped hs) 0 rFQCFG (if on then 0x8000_0000 else 0)) 0 e
theorem test_meets_HostQueueEvents_launches :
    (∃ (s : State) (e : Row), HandsOver s s.ev.fn e ∧ heOp e = 1 ∧ ¬SubmitNamed (advanceAck s s.ev.fn) s.ev.fn e) ∧
    (∃ (s : State) (e : Row), HandsOver s s.ev.fn e ∧ heOp e = 1 ∧ ¬SubmitFits (advanceAck s s.ev.fn) s.ev.fn e ∧ recordMiss (advanceAck s s.ev.fn) s.ev.fn e = none) ∧
    (∀ on : Bool, ∃ (s : State) (e : Row) (f : XFail), HandsOver s s.ev.fn e ∧ heOp e = 1 ∧ SubmitNamed (advanceAck s s.ev.fn) s.ev.fn e ∧
      recordMiss (advanceAck s s.ev.fn) s.ev.fn e = some f ∧
      (openFault s (fnTenant s s.ev.fn) f .load (refObj (heObj e)) (refOff (heObj e))).2.isSome = on) ∧
    (∃ (s : State) (e : Row), HandsOver s s.ev.fn e ∧ heOp e = 1 ∧ SubmitFits (advanceAck s s.ev.fn) s.ev.fn e ∧ recordMiss (advanceAck s s.ev.fn) s.ev.fn e = none ∧
      32 = queueLoad (advanceAck s s.ev.fn) (heLq e)) ∧
    (∃ (s : State) (e : Row) (rows : List Row), HandsOver s s.ev.fn e ∧ heOp e = 1 ∧ SubmitFits (advanceAck s s.ev.fn) s.ev.fn e ∧
      recordMiss (advanceAck s s.ev.fn) s.ev.fn e = none ∧ queueLoad (advanceAck s s.ev.fn) (heLq e) < 32 ∧
      extentRows (advanceAck s s.ev.fn) (fnTenant (advanceAck s s.ev.fn) s.ev.fn) (refObj (heObj e)) (refOff (heObj e)) 8 = some rows) := by
  obtain ⟨rows, hr, -⟩ := exists_some (o := extentRows (advanceAck (posted hs 0 eLaunch) 0)
    (fnTenant (advanceAck (posted hs 0 eLaunch) 0) 0) (refObj (heObj eLaunch)) (refOff (heObj eLaunch)) 8) (fun _ => true) (by decide +kernel)
  refine ⟨⟨posted hs 0 (hEntry 1 1 64 1 (2 * 2 ^ 40) 0 0), _, hands _ _ _ (by decide +kernel), by decide +kernel, by unfold SubmitNamed; decide +kernel⟩,
    ⟨posted hs 0 (hEntry 1 1 0 1 (2 * 2 ^ 40 + 16384) 0 0), _, hands _ _ _ (by decide +kernel), (by decide +kernel), by unfold SubmitFits SubmitNamed; decide +kernel,
      by decide +kernel⟩, fun on => ?_,
    ⟨posted { hs with sched := { hs.sched with queued := List.replicate 32 (0, 0) } } 0 eLaunch, eLaunch, hands _ _ _ (by decide +kernel), by decide +kernel,
      by unfold SubmitFits SubmitNamed; decide +kernel, (by decide +kernel), by decide +kernel⟩,
    ⟨posted hs 0 eLaunch, eLaunch, rows, hands _ _ _ (by decide +kernel), by decide +kernel, by unfold SubmitFits SubmitNamed; decide +kernel, (by decide +kernel),
      by decide +kernel, hr⟩⟩
  obtain ⟨f, hf, hx⟩ := exists_some (o := recordMiss (advanceAck (hidden on eLaunch) 0) 0 eLaunch)
    (fun f => decide ((openFault (hidden on eLaunch) (fnTenant (hidden on eLaunch) 0) f .load (refObj (heObj eLaunch)) (refOff (heObj eLaunch))).2.isSome = on))
    (by cases on <;> decide +kernel)
  refine ⟨hidden on eLaunch, eLaunch, f, hands _ _ _ (by cases on <;> decide +kernel), by decide +kernel, ?_, hf, of_decide_eq_true hx⟩
  unfold SubmitNamed
  cases on <;> decide +kernel

/-- A copy of row 1 of two, to or from object 2. -/
def hcopy (toHost : Bool) : HostCopy := { fn := 0, toHost := toHost, obj := 2 * 2 ^ 40 + 64, haddr := 0x50000, rows := 2, next := 1, doneObj := 0, note := true, hseq := 1,
                                          req := none, heldBy := none }
def hmoving (toHost : Bool) : State := { hs with host := { hs.host with copies := [hcopy toHost] }, ev := { flag := true, idx := 1 } }

theorem test_meets_HostQueueEvents_copies :
    (∀ toHost : Bool, ∃ (s : State) (e : Row), HandsOver s s.ev.fn e ∧ heOp e = (if toHost then 3 else 2) ∧ s.ev.flag = false ∧
      ∀ o, ¬CopyFits (advanceAck s s.ev.fn) s.ev.fn e o) ∧
    (∀ toHost : Bool, ∃ (s : State) (e : Row) (o : ObjEnt), HandsOver s s.ev.fn e ∧ heOp e = (if toHost then 3 else 2) ∧ s.ev.flag = false ∧
      CopyFits (advanceAck s s.ev.fn) s.ev.fn e o ∧ refOff (heObj e) + 64 * heRows e = o.size) ∧
    (∀ toHost : Bool, ∃ (s s1 : State) (h : HostCopy) (a : Acc), s.ev.flag = true ∧ s.ev.fn = h.fn ∧
      s.host.copies.find? (fun x => decide (x.fn = h.fn) && decide (x.hseq = s.ev.idx) && decide (x.toHost = h.toHost)) = some h ∧
      h.heldBy = none ∧ h.req = none ∧ h.toHost = toHost ∧
      portAccess s (agentDie s (fnTenant s h.fn)) (fnTenant s h.fn) 4 (refObj h.obj.toNat) none (refOff h.obj.toNat + 64 * h.next)
        (if h.toHost then kCopyR else kCopyW) true = (s1, .ok a) ∧ a.tgt ≠ 10 ∧ a.remote = false ∧ s.host.linkUp = true ∧
        givenAway s1 (fnTenant s h.fn) (if a.tgt = 0 then some a.key else none) = none ∧ isPoisoned s1 a.key = false) ∧
    ∀ toHost : Bool, ∃ (s : State) (e : Row) (f : XFail), HandsOver s s.ev.fn e ∧ heOp e = (if toHost then 3 else 2) ∧ s.ev.flag = false ∧
      CopyNamed (advanceAck s s.ev.fn) s.ev.fn e ∧ lookupObj (advanceAck s s.ev.fn) (fnTenant (advanceAck s s.ev.fn) s.ev.fn) (refObj (heObj e)) = .error f ∧
      f.cause = 0x06 := by
  have port (s : State) (die tenant obj off : Nat) (k : AccKind)
      (h : (match portAccess s die tenant 4 obj none off k true with
        | (s1, .ok a) => decide (a.tgt ≠ 10) && !a.remote && s.host.linkUp && (givenAway s1 tenant (if a.tgt = 0 then some a.key else none)).isNone && !isPoisoned s1 a.key
        | _ => false) = true) :
      ∃ s1 a, portAccess s die tenant 4 obj none off k true = (s1, .ok a) ∧ a.tgt ≠ 10 ∧ a.remote = false ∧ s.host.linkUp = true ∧
        givenAway s1 tenant (if a.tgt = 0 then some a.key else none) = none ∧ isPoisoned s1 a.key = false := by
    split at h
    · rename_i s1 a heq
      simp only [Bool.and_eq_true, decide_eq_true_eq, Bool.not_eq_true'] at h
      exact ⟨s1, a, heq, h.1.1.1.1, h.1.1.1.2, h.1.1.2, Option.isNone_iff_eq_none.mp h.1.2, h.2⟩
    · cases h
  refine ⟨?_, ?_, ?_, fun toHost => ?_⟩
  · intro toHost
    cases toHost
    · exact ⟨posted hs 0 (eCopy 2 0), _, hands _ _ _ (by decide +kernel), (by decide +kernel), rfl,
        fun o h => absurd h.2.2.2.2.1 (by decide +kernel)⟩
    · exact ⟨posted hs 0 (eCopy 3 0), _, hands _ _ _ (by decide +kernel), by decide +kernel, rfl,
        fun o h => absurd h.2.2.2.2.1 (by decide +kernel)⟩
  · have one (op : Nat) (p : ObjEnt → Bool) (h : ((objOf? (advanceAck (posted hs 0 (eCopy op 255)) 0) (fnTenant (advanceAck (posted hs 0 (eCopy op 255)) 0) 0)
        (refObj (heObj (eCopy op 255)))).any p) = true) := exists_some p h
    intro toHost
    cases toHost
    · obtain ⟨o, ho, h⟩ := one 2 (fun o => decide (refOff (heObj (eCopy 2 255)) + 64 * heRows (eCopy 2 255) = o.size)) (by decide +kernel)
      simp only [decide_eq_true_eq] at h
      exact ⟨posted hs 0 (eCopy 2 255), _, o, hands _ _ _ (by decide +kernel), by decide +kernel, rfl,
        ⟨ho, Nat.le_of_eq h, (by decide +kernel), by decide +kernel, by decide +kernel, (by decide +kernel), by decide +kernel, by decide +kernel⟩, h⟩
    · obtain ⟨o, ho, h⟩ := one 3 (fun o => decide (refOff (heObj (eCopy 3 255)) + 64 * heRows (eCopy 3 255) = o.size)) (by decide +kernel)
      simp only [decide_eq_true_eq] at h
      exact ⟨posted hs 0 (eCopy 3 255), _, o, hands _ _ _ (by decide +kernel), (by decide +kernel), rfl,
        ⟨ho, Nat.le_of_eq h, by decide +kernel, by decide +kernel, (by decide +kernel), by decide +kernel, by decide +kernel, (by decide +kernel)⟩, h⟩
  · intro toHost
    cases toHost
    · obtain ⟨s1, a, h⟩ := port (hmoving false) (agentDie (hmoving false) 0) 0 2 128 kCopyW (by decide +kernel)
      exact ⟨hmoving false, s1, hcopy false, a, rfl, rfl, by rfl, rfl, rfl, rfl, h⟩
    · obtain ⟨s1, a, h⟩ := port (hmoving true) (agentDie (hmoving true) 0) 0 2 128 kCopyR (by decide +kernel)
      exact ⟨hmoving true, s1, hcopy true, a, rfl, rfl, by rfl, rfl, rfl, rfl, h⟩
  · have one (op : Nat) (h : (match lookupObj (advanceAck (hidden true (eCopy op 1)) (hidden true (eCopy op 1)).ev.fn)
          (fnTenant (advanceAck (hidden true (eCopy op 1)) (hidden true (eCopy op 1)).ev.fn) (hidden true (eCopy op 1)).ev.fn) (refObj (heObj (eCopy op 1))) with
        | .error f => decide (f.cause = 0x06)
        | .ok _ => false) = true) : ∃ f : XFail, lookupObj (advanceAck (hidden true (eCopy op 1)) (hidden true (eCopy op 1)).ev.fn)
          (fnTenant (advanceAck (hidden true (eCopy op 1)) (hidden true (eCopy op 1)).ev.fn) (hidden true (eCopy op 1)).ev.fn) (refObj (heObj (eCopy op 1))) =
          .error f ∧ f.cause = 0x06 := by
      split at h
      · exact ⟨_, ‹_›, of_decide_eq_true h⟩
      · cases h
    cases toHost
    · obtain ⟨f, h, hf⟩ := one 2 (by decide +kernel)
      exact ⟨hidden true (eCopy 2 1), eCopy 2 1, f, hands _ _ _ (by decide +kernel), by decide +kernel, rfl, by unfold CopyNamed; decide +kernel, h, hf⟩
    · obtain ⟨f, h, hf⟩ := one 3 (by decide +kernel)
      exact ⟨hidden true (eCopy 3 1), eCopy 3 1, f, hands _ _ _ (by decide +kernel), by decide +kernel, rfl, by unfold CopyNamed; decide +kernel, h, hf⟩

/-- An event waits; its ring has room, or is off. -/
def eventful (s : State) : State := { s with host := { s.host with events := [⟨0, 1, 0, 1, 0⟩] } }
def heldFault : PageFault := ⟨1, 0, 0, 1, 1, 3, 0, 0, 16384, false, false⟩

theorem test_meets_HostQueueEvents_registers :
    (∃ s : State, deqRoom s s.ev.fn = false) ∧
    (∃ (s : State) (e : DevEvent) (l : List DevEvent), deqRoom s s.ev.fn = true ∧ takeEvent s.ev.fn s.host.events = some (e, l)) ∧
    (∃ (s : State) (i : Instr), regsAnswer s = false ∧ WritesRegister i) ∧
    (∃ s : State, regsAnswer s = true ∧ seqAbove (regGet s s.ev.fn rHSQACK).toNat (fld s.ev.v 0 32) = true) ∧
    (∃ (s : State) (d : Nat) (r : Row), regsAnswer s = true ∧ s.host.written = [(s.ev.fn, d, r)] ∧ seqAbove (regGet s s.ev.fn rDEQACK).toNat d = true) ∧
    (∃ s : State, regsAnswer s = true ∧ s.xlat.faults = []) ∧
    (∃ (s : State) (p : PageFault), regsAnswer s = true ∧ s.xlat.faults = [p] ∧ p.pager = s.ev.fn ∧ p.written = false ∧ p.pull = false ∧
      regEn (regSet s s.ev.fn rFQHEAD (s.ev.v &&& 0xFFFF_FFFF#64)) s.ev.fn rFQCFG = true ∧
      fqRoom (regSet s s.ev.fn rFQHEAD (s.ev.v &&& 0xFFFF_FFFF#64)) s.ev.fn = true) :=
  ⟨⟨pk tc, (by decide +kernel)⟩, ⟨eventful (regSet (pk tc) 0 rDEQCFG (2 ^ 31)), _, [], by decide +kernel, by rfl⟩,
   ⟨{ pk tc with power := .off }, .hsqdb, by decide +kernel, .inl rfl⟩, ⟨{ pk tc with ev := { v := 1 } }, (by decide +kernel), by decide +kernel⟩,
   ⟨{ pk tc with host := { (pk tc).host with written := [(0, 1, 5)] } }, 1, 5, by decide +kernel, rfl, (by decide +kernel)⟩,
   ⟨pk tc, by decide +kernel, rfl⟩,
   ⟨regSet { pk tc with xlat := { (pk tc).xlat with faults := [heldFault] } } 0 rFQCFG (2 ^ 31), heldFault, by decide +kernel, by rfl, (by decide +kernel), rfl, rfl,
     by decide +kernel, by decide +kernel⟩⟩


/-! The command ports: a row latched and running at a port; an image of a table entry in its upper half. -/

def ported (s : State) (id : Nat) (r : Row) : State := putPort s ⟨id, 0, r, true, false, 0, 0, false⟩
def cmdRow (op index : Nat) (upper : Nat := 0) : Row := BitVec.ofNat 512 (op + put index 2 3 + upper * 2 ^ 256)
def okWith {α : Type} (o : Except XFail α) (p : α → Bool) : Bool := match o with | .ok x => p x | .error _ => false
theorem ok_with {α : Type} {o : Except XFail α} (p : α → Bool) (h : okWith o p = true) : ∃ x, o = .ok x ∧ p x = true := by
  cases o with
  | ok x => exact ⟨x, rfl, h⟩
  | error => cases h

/-- An entry's image: words 0 and 1 as `size` bytes with rights, extents from `list`. -/
def image4 (flags rights size w1 w2 : Nat) : Nat := (flags * 2 ^ 60 + rights * 2 ^ 50 + size) + w1 * 2 ^ 64 + w2 * 2 ^ 128
def good4 : Nat := image4 9 3 16384 0 (2 ^ 56 + 0x1080)
/-- Object 1 is the text of a launch in use. -/
def textInUse (s : State) : State := { s with mem := memSet s.mem 46 1 }
/-- The tables of both kinds; no launch. -/
def us : State := withWindow (withObjects { State.reset with sched := { State.reset.sched with launches := [] } })

/-- What a SET finds in the table, and the code it answers. -/
def setCase (s : State) (host : Bool) (r : Row) (p : ObjEnt → Bool) : Bool :=
  let s := ported s 0 r
  decide (fnState s s.ev.fn ≠ 0 ∧ cmdIndex r < tableCount s (fnTenant s s.ev.fn) host) && regsAnswer s && (portOf s 0).run && decide ((portOf s 0).latched = r) &&
    okWith (rdEntry s (fnTenant s s.ev.fn) (entryAddr s (fnTenant s s.ev.fn) host (cmdIndex r))) p
theorem set_case {s : State} {host : Bool} {r : Row} {p : ObjEnt → Bool} (op : Nat) (ho : cmdOp r = op) (hf : (ported s 0 r).ev.fn = 0) (h : setCase s host r p = true) :
    ∃ (t : State) (old : ObjEnt), Commands t t.ev.fn op r ∧ fnState t t.ev.fn ≠ 0 ∧ cmdIndex r < tableCount t (fnTenant t t.ev.fn) host ∧
      rdEntry t (fnTenant t t.ev.fn) (entryAddr t (fnTenant t t.ev.fn) host (cmdIndex r)) = .ok old ∧ t = ported s 0 r ∧ p old = true := by
  unfold setCase at h
  simp only [Bool.and_eq_true, decide_eq_true_eq] at h
  obtain ⟨⟨⟨⟨h1, h2⟩, h3⟩, h4⟩, h5⟩ := h
  obtain ⟨old, he, hp⟩ := ok_with p h5
  exact ⟨_, old, ⟨by rw [hf]; exact h3, by rw [hf]; exact h4, ho, h2⟩, h1.1, h1.2, he, rfl, hp⟩

/-- What the SET of `UpdatePortsAndFrames` asks, with a premise `p` on the old and the new entry and the code. -/
def SetMeets (host : Bool) (p : State → ObjEnt → ObjEnt → Nat → Prop) : Prop :=
  ∃ (t : State) (r : Row) (old : ObjEnt), Commands t t.ev.fn (if host then 3 else 1) r ∧ fnState t t.ev.fn ≠ 0 ∧
    cmdIndex r < tableCount t (fnTenant t t.ev.fn) host ∧
    rdEntry t (fnTenant t t.ev.fn) (entryAddr t (fnTenant t t.ev.fn) host (cmdIndex r)) = .ok old ∧
    (host = false → (cmdImage r).paged = false → listMiss t (fnTenant t t.ev.fn) (cmdImage r).xlist (cmdImage r).count = none) ∧
    p t old (keepRO old (cmdImage r)) (setCode t (fnTenant t t.ev.fn) host old (cmdImage r))
theorem set_meets {host : Bool} {p : State → ObjEnt → ObjEnt → Nat → Prop} (s : State) (r : Row) (q : ObjEnt → Bool)
    (ho : cmdOp r = if host then 3 else 1) (hf : (ported s 0 r).ev.fn = 0) (h : setCase s host r q = true)
    (hm : listMiss (ported s 0 r) (fnTenant (ported s 0 r) (ported s 0 r).ev.fn) (cmdImage r).xlist (cmdImage r).count = none)
    (hp : ∀ old, q old = true → p (ported s 0 r) old (keepRO old (cmdImage r))
      (setCode (ported s 0 r) (fnTenant (ported s 0 r) (ported s 0 r).ev.fn) host old (cmdImage r))) : SetMeets host p := by
  obtain ⟨t, old, h1, h2, h3, h4, rfl, h6⟩ := set_case _ ho hf h
  exact ⟨_, r, old, h1, h2, h3, h4, fun _ _ => hm, hp old h6⟩

def newOf (r : Row) (old : ObjEnt) : ObjEnt := keepRO old (cmdImage r)
def codeOf (s : State) (host : Bool) (r : Row) (old : ObjEnt) : Nat :=
  setCode (ported s 0 r) (fnTenant (ported s 0 r) (ported s 0 r).ev.fn) host old (cmdImage r)
/-- Images: object 2 shorter; object 1 with W while it is text; object 4 paged beyond the address space, with no extent
list, and well formed; window 0. -/
def rShort : Row := cmdRow 1 2 (image4 9 3 64 0 (2 ^ 56 + 0x1080))
def rText : Row := cmdRow 1 1 (image4 9 7 16384 0 (2 ^ 56 + 0x1040))
def rPaged : Row := cmdRow 1 4 (image4 12 3 (2 ^ 40) 0 (2 ^ 48 - 2 ^ 14))
def rNone : Row := cmdRow 1 4 (image4 9 3 16384 0 (2 ^ 56 + 0x3000))
def rGood : Row := cmdRow 1 4 good4
def rHost : Row := cmdRow 3 0 (image4 8 3 16384 0 0x10000)

/-- A SET of object 2 that names another generation. -/
def rGen : Row := cmdRow 1 2 (image4 9 0xFB 16384 7 (2 ^ 56 + 0x1080))
def GenMeets : Prop :=
  ∃ (t : State) (r : Row) (old : ObjEnt), Commands t t.ev.fn 1 r ∧ fnState t t.ev.fn ≠ 0 ∧ cmdIndex r < tableCount t (fnTenant t t.ev.fn) false ∧
    rdEntry t (fnTenant t t.ev.fn) (entryAddr t (fnTenant t t.ev.fn) false (cmdIndex r)) = .ok old ∧
    ((cmdImage r).paged = false → listMiss t (fnTenant t t.ev.fn) (cmdImage r).xlist (cmdImage r).count = none) ∧
    old.valid = true ∧ (cmdImage r).gen ≠ old.gen
theorem gen_meets : GenMeets := by
  obtain ⟨t, old, h1, h2, h3, h4, rfl, h6⟩ := set_case (s := us) (host := false) (r := rGen) (p := fun old => old.valid && decide ((cmdImage rGen).gen ≠ old.gen))
    1 (by decide +kernel) rfl (by decide +kernel)
  simp only [Bool.and_eq_true, decide_eq_true_eq] at h6
  exact ⟨_, rGen, old, h1, h2, h3, h4, fun _ => by decide +kernel, h6.1, h6.2⟩

/-- A second stage of tenant 0 whose one page maps the extent list's frame. -/
def staged : State :=
  let w (m : Memory) (a x : Nat) : Memory := memWriteN m (((hbmPlace us a).map fun p => hbmKey p.1 p.2).getD 0) x 8
  regSet { us with mem := [(0x160000, 0x168001), (0x168000, 0x170001), (0x170000, 0x1F)].foldl (fun m p => w m p.1 p.2) us.mem } 0 (rSSROOTf 0)
    0x8000_0000_0016_0000
theorem test_meets_UpdatePortsAndFrames_held : ∃ (s : State) (new : ObjEnt) (l : List (Nat × Nat)), new.paged = false ∧
    ssEnabled s (fnTenant s s.ev.fn) = true ∧ extentList s (fnTenant s s.ev.fn) new.xlist new.count = some l ∧ ∃ x ∈ l, 1 ≤ x.2 := by
  obtain ⟨l, h, hl⟩ := exists_some (o := extentList staged 0 (cmdImage rGood).xlist (cmdImage rGood).count) (fun l => l.any fun x => decide (1 ≤ x.2)) (by decide +kernel)
  obtain ⟨x, hx, h1⟩ := List.any_eq_true.mp hl
  exact ⟨staged, cmdImage rGood, l, (by decide +kernel), by decide +kernel, h, x, hx, of_decide_eq_true h1⟩

theorem test_meets_UpdatePortsAndFrames_set :
    SetMeets false (fun _ old new _ => old.valid = true ∧ new.size < old.size) ∧ GenMeets ∧
    SetMeets false (fun _ old new _ => old.textuse ≠ 0 ∧ hasRights new.rights rightW = true) ∧
    SetMeets false (fun _ _ new _ => new.paged = true ∧ 2 ^ 48 < new.vbase * 16384 + new.size) ∧
    SetMeets false (fun t _ new _ => new.paged = false ∧ extentsGood t (fnTenant t t.ev.fn) new = false) ∧
    SetMeets false (fun _ _ _ code => code = 0) ∧ SetMeets true (fun _ _ _ code => code = 0) ∧
    (∃ (s : State) (r : Row), Commands s s.ev.fn 1 r ∧ fnState s s.ev.fn = 0) ∧
    (∃ (s : State) (r : Row), Commands s s.ev.fn 1 r ∧ tableCount s (fnTenant s s.ev.fn) false = cmdIndex r) := by
  refine ⟨set_meets us rShort (fun old => old.valid && decide ((newOf rShort old).size < old.size)) (by decide +kernel) rfl (by decide +kernel) (by decide +kernel) ?_,
    gen_meets,
    set_meets (textInUse us) rText (fun old => decide (old.textuse ≠ 0) && hasRights (newOf rText old).rights rightW) (by decide +kernel) rfl (by decide +kernel) (by decide +kernel) ?_,
    set_meets us rPaged (fun old => (newOf rPaged old).paged && decide (2 ^ 48 < (newOf rPaged old).vbase * 16384 + (newOf rPaged old).size)) (by decide +kernel)
      rfl (by decide +kernel) (by decide +kernel) ?_,
    set_meets us rNone (fun old => !(newOf rNone old).paged && !extentsGood (ported us 0 rNone) (fnTenant (ported us 0 rNone) (ported us 0 rNone).ev.fn) (newOf rNone old)) (by decide +kernel)
      rfl (by decide +kernel) (by decide +kernel) ?_,
    set_meets us rGood (fun old => decide (codeOf us false rGood old = 0)) (by decide +kernel) rfl (by decide +kernel) (by decide +kernel) ?_,
    set_meets us rHost (fun old => decide (codeOf us true rHost old = 0)) (by decide +kernel) rfl (by decide +kernel) (by decide +kernel) ?_,
    ⟨ported { us with ev := { fn := 1 } } 1 rGood, rGood, by unfold Commands; decide +kernel⟩, ⟨ported us 0 (cmdRow 1 8), cmdRow 1 8, by unfold Commands; decide +kernel⟩⟩
  · intro old h
    simp only [Bool.and_eq_true, decide_eq_true_eq] at h
    exact h
  · intro old h
    simp only [Bool.and_eq_true, decide_eq_true_eq] at h
    exact h
  · intro old h
    simp only [Bool.and_eq_true, decide_eq_true_eq] at h
    exact h
  · intro old h
    simp only [Bool.and_eq_true, Bool.not_eq_true'] at h
    exact h
  · intro old h
    exact of_decide_eq_true h
  · intro old h
    exact of_decide_eq_true h

/-- What an INVAL finds. -/
def InvalMeets (host : Bool) (p : State → Nat → ObjEnt → Prop) : Prop :=
  ∃ (t : State) (r : Row) (old : ObjEnt), Commands t t.ev.fn (if host then 4 else 2) r ∧ fnState t t.ev.fn ≠ 0 ∧
    cmdIndex r < tableCount t (fnTenant t t.ev.fn) host ∧
    rdEntry t (fnTenant t t.ev.fn) (entryAddr t (fnTenant t t.ev.fn) host (cmdIndex r)) = .ok old ∧ p t (cmdIndex r) old
theorem inval_meets {host : Bool} {p : State → Nat → ObjEnt → Prop} (s : State) (r : Row) (q : ObjEnt → Bool) (ho : cmdOp r = if host then 4 else 2)
    (hf : (ported s 0 r).ev.fn = 0) (h : setCase s host r q = true) (hp : ∀ old, q old = true → p (ported s 0 r) (cmdIndex r) old) : InvalMeets host p := by
  obtain ⟨t, old, h1, h2, h3, h4, rfl, h6⟩ := set_case _ ho hf h
  exact ⟨_, r, old, h1, h2, h3, h4, hp old h6⟩
def faultFor (p : PageFault) (how : Nat) : State := ported { pk tc with xlat := { (pk tc).xlat with faults := [p] } } 0 (cmdRow 5 0 (how) + 2 ^ 48)
def answerable : PageFault := { heldFault with written := true }

theorem test_meets_UpdatePortsAndFrames_inval :
    InvalMeets false (fun _ _ old => old.valid = false) ∧
    InvalMeets false (fun t i old => old.valid = true ∧ ∃ l ∈ t.sched.launches, l.tenant = fnTenant t t.ev.fn ∧ l.completed = false ∧ l.text = i) ∧
    InvalMeets false (fun t i old => old.valid = true ∧ ∃ h ∈ t.xlat.handlers, h.tenant = fnTenant t t.ev.fn ∧ h.text = i) ∧
    InvalMeets false (fun t i old => old.valid = true ∧ objectBusy t (fnTenant t t.ev.fn) i = false) ∧
    InvalMeets true (fun _ _ old => old.valid = true) ∧
    (∃ (s : State) (r : Row), Commands s s.ev.fn 5 r ∧ s.xlat.faults ≠ [] ∧
      ∀ p ∈ s.xlat.faults, p.tag = fld r 48 16 → p.pager ≠ s.ev.fn ∨ p.written = false ∨ p.pull = true) ∧
    (∀ how < 3, ∃ (s : State) (r : Row) (p : PageFault), Commands s s.ev.fn 5 r ∧
      s.xlat.faults.find? (fun p => decide (p.tag = fld r 48 16) && decide (p.pager = s.ev.fn) && p.written && !p.pull) = some p ∧ (rowByte r 32).toNat = how) := by
  refine ⟨inval_meets us (cmdRow 2 4) (fun old => !old.valid) (by decide +kernel) rfl (by decide +kernel) ?_,
    inval_meets { us with sched := { us.sched with launches := [tl] } } (cmdRow 2 1) (fun old => old.valid) (by decide +kernel) rfl (by decide +kernel) ?_,
    inval_meets (handled us 0x0B) (cmdRow 2 1) (fun old => old.valid) (by decide +kernel) rfl (by decide +kernel) ?_,
    inval_meets us (cmdRow 2 2) (fun old => old.valid) (by decide +kernel) rfl (by decide +kernel) ?_,
    inval_meets us (cmdRow 4 1) (fun old => old.valid) (by decide +kernel) rfl (by decide +kernel) ?_,
    ⟨faultFor heldFault 0, cmdRow 5 0 0 + 2 ^ 48, by unfold Commands; decide +kernel⟩, ?_⟩
  · intro old h; simpa using h
  · intro old h; exact ⟨h, tl, List.mem_singleton.mpr rfl, by decide +kernel, rfl, (by decide +kernel)⟩
  · intro old h; exact ⟨h, _, List.mem_singleton.mpr rfl, by decide +kernel, by decide +kernel⟩
  · intro old h; exact ⟨h, (by decide +kernel)⟩
  · intro old h; exact h
  · intro how h
    obtain rfl | rfl | rfl : how = 0 ∨ how = 1 ∨ how = 2 := by omega
    · exact ⟨faultFor answerable 0, cmdRow 5 0 0 + 2 ^ 48, answerable, by unfold Commands; decide +kernel⟩
    · exact ⟨faultFor answerable 1, cmdRow 5 0 1 + 2 ^ 48, answerable, by unfold Commands; decide +kernel⟩
    · exact ⟨faultFor answerable 2, cmdRow 5 0 2 + 2 ^ 48, answerable, by unfold Commands; decide +kernel⟩

/-- A command of quarter 0's scrubber on one frame, its owner 3. -/
def frameCmd (op addr : Nat) : Row := cmdRow op 0 (addr + 2 ^ 64 + 3 * 2 ^ 96)
def frameState (op addr : Nat) (st : Nat) : State :=
  ported { us with xlat := { us.xlat with frames := if st = 0 then [] else (List.range 384).map fun b => (b / 32 * 2 ^ 24 + b % 32, BitVec.ofNat 32 st) } } 33 (frameCmd op addr)
def FramesMeet (op : Nat) (p : State → List (Nat × List (Nat × Nat)) → Prop) : Prop := ∃ (s : State) (r : Row) (l : List (Nat × List (Nat × Nat))), OnFrames s op r l ∧ p s l
theorem frames_meet {p : State → List (Nat × List (Nat × Nat)) → Prop} (op addr st : Nat) (q : List (Nat × List (Nat × Nat)) → Bool)
    (h : (decide ((frameState op addr st).ev.idx = 0) && (portOf (frameState op addr st) 33).run && decide ((portOf (frameState op addr st) 33).latched = frameCmd op addr) &&
      decide (cmdOp (frameCmd op addr) = op) && regsAnswer (frameState op addr st)) = true)
    (h2 : (cmdFrames (frameState op addr st) 0 (scAddr (frameCmd op addr)) (scCount (frameCmd op addr))).any q = true)
    (hp : ∀ l, q l = true → p (frameState op addr st) l) : FramesMeet op p := by
  simp only [Bool.and_eq_true, decide_eq_true_eq] at h
  obtain ⟨⟨⟨⟨h0, h3⟩, h4⟩, h5⟩, h6⟩ := h
  obtain ⟨l, hl, hq⟩ := exists_some q h2
  exact ⟨_, _, l, ⟨by rw [h0]; decide, by rw [h0]; exact ⟨h3, h4, h5, h6⟩, by rw [h0]; exact hl⟩, hp l hq⟩

def blocksAre (l : List (Nat × List (Nat × Nat))) (p : Nat × Nat → Bool) : Bool := ((l.map (·.2)).flatten).all p
theorem blocks_are {l : List (Nat × List (Nat × Nat))} {p : Nat × Nat → Bool} (h : blocksAre l p = true) :
    ∀ b ∈ (l.map (·.2)).flatten, p b = true := List.all_eq_true.mp h
theorem block_is {l : List (Nat × List (Nat × Nat))} {p : Nat × Nat → Bool} (h : (((l.map (·.2)).flatten).any p) = true) :
    ∃ b ∈ (l.map (·.2)).flatten, p b = true := by
  obtain ⟨b, hb, h⟩ := List.any_eq_true.mp h
  exact ⟨b, hb, h⟩

theorem test_meets_UpdatePortsAndFrames_frames :
    (∃ (s : State) (r : Row) (op : Nat), op = 1 ∧ s.ev.idx < 4 ∧ Commands s (33 + s.ev.idx) op r ∧ cmdFrames s s.ev.idx (scAddr r) (scCount r) = none) ∧
    FramesMeet 1 (fun s l => ∃ b ∈ (l.map (·.2)).flatten, blkState s b ≠ 0) ∧
    FramesMeet 1 (fun s l => ∀ b ∈ (l.map (·.2)).flatten, blkState s b = 0) ∧
    FramesMeet 2 (fun s l => ∃ b ∈ (l.map (·.2)).flatten, blkState s b ≠ 1) ∧
    FramesMeet 2 (fun s l => (∀ b ∈ (l.map (·.2)).flatten, blkState s b = 1 ∧ ∀ w ∈ s.host.withdrawn, ¬(w.1 = b.1 ∧ w.2.1 = b.2)) ∧
      ∃ x ∈ l, ∃ b ∈ x.2, frameInExtent s (blkOwner s b) x.1 = true) ∧
    FramesMeet 2 (fun s l => (∀ b ∈ (l.map (·.2)).flatten, blkState s b = 1 ∧ ∀ w ∈ s.host.withdrawn, ¬(w.1 = b.1 ∧ w.2.1 = b.2)) ∧
      ∀ x ∈ l, ∀ b ∈ x.2, frameInExtent s (blkOwner s b) x.1 = false) ∧
    FramesMeet 3 (fun s l => ∃ b ∈ (l.map (·.2)).flatten, blkState s b ≠ 1) ∧
    FramesMeet 3 (fun s l => ∀ b ∈ (l.map (·.2)).flatten, blkState s b = 1) ∧ FramesMeet 4 (fun _ l => l ≠ []) ∧
    (∀ st < 4, ∃ s : State, blkState s (s.ev.kind, s.ev.unit) = st ∧ s.keyed = []) := by
  refine ⟨⟨ported us 33 (frameCmd 1 64), frameCmd 1 64, 1, rfl, by decide, by unfold Commands; decide +kernel, by decide +kernel⟩,
    frames_meet 1 0x8000 1 (fun l => ((l.map (·.2)).flatten).any fun b => decide (blkState (frameState 1 0x8000 1) b ≠ 0)) (by decide +kernel) (by decide +kernel) ?_,
    frames_meet 1 0x8000 0 (fun l => blocksAre l fun b => decide (blkState (frameState 1 0x8000 0) b = 0)) (by decide +kernel) (by decide +kernel) ?_,
    frames_meet 2 0x8000 0 (fun l => ((l.map (·.2)).flatten).any fun b => decide (blkState (frameState 2 0x8000 0) b ≠ 1)) (by decide +kernel) (by decide +kernel) ?_,
    frames_meet 2 0x8000 1 (fun l => (blocksAre l fun b => decide (blkState (frameState 2 0x8000 1) b = 1)) &&
      l.any fun x => x.2.any fun b => frameInExtent (frameState 2 0x8000 1) (blkOwner (frameState 2 0x8000 1) b) x.1) (by decide +kernel) (by decide +kernel) ?_,
    frames_meet 2 0xC000 1 (fun l => (blocksAre l fun b => decide (blkState (frameState 2 0xC000 1) b = 1)) &&
      l.all fun x => x.2.all fun b => !frameInExtent (frameState 2 0xC000 1) (blkOwner (frameState 2 0xC000 1) b) x.1) (by decide +kernel) (by decide +kernel) ?_,
    frames_meet 3 0x8000 2 (fun l => ((l.map (·.2)).flatten).any fun b => decide (blkState (frameState 3 0x8000 2) b ≠ 1)) (by decide +kernel) (by decide +kernel) ?_,
    frames_meet 3 0x8000 1 (fun l => blocksAre l fun b => decide (blkState (frameState 3 0x8000 1) b = 1)) (by decide +kernel) (by decide +kernel) ?_,
    frames_meet 4 0x8000 1 (fun l => decide (l ≠ [])) (by decide +kernel) (by decide +kernel) ?_, ?_⟩
  · intro l h; simpa using block_is h
  · intro l h; simpa using blocks_are h
  · intro l h; simpa using block_is h
  · intro l h
    simp only [Bool.and_eq_true] at h
    refine ⟨fun b hb => ⟨by simpa using blocks_are h.1 b hb, by intro w hw; cases hw⟩, ?_⟩
    obtain ⟨x, hx, h2⟩ := List.any_eq_true.mp h.2
    obtain ⟨b, hb, h3⟩ := List.any_eq_true.mp h2
    exact ⟨x, hx, b, hb, h3⟩
  · intro l h
    simp only [Bool.and_eq_true] at h
    refine ⟨fun b hb => ⟨by simpa using blocks_are h.1 b hb, by intro w hw; cases hw⟩, ?_⟩
    intro x hx b hb
    simpa using List.all_eq_true.mp (List.all_eq_true.mp h.2 x hx) b hb
  · intro l h; simpa using block_is h
  · intro l h; simpa using blocks_are h
  · intro l h; simpa using h
  · intro st h
    refine ⟨setFrameRec (pk tc) 0 0 (BitVec.ofNat 32 st), ?_, rfl⟩
    obtain rfl | rfl | rfl | rfl : st = 0 ∨ st = 1 ∨ st = 2 ∨ st = 3 := by omega
    · decide +kernel
    · decide +kernel
    · decide +kernel
    · decide +kernel


/-! The tenant port: function 1 of tenant 5 in each state, alone or with a crew; and a live move seen from either end. -/

/-- Function 1 in a state, its partition the whole package. -/
def fn1 (s : State) (st : Nat) : State := regSet s 0 (rTENCFG 1) (BitVec.ofNat 64 (st * 2 ^ 30 + 15 * 2 ^ 32 + 5 * 256))
def idle : State := { State.reset with sched := { State.reset.sched with launches := [] } }
def tcmd (s : State) (op : Nat) : State := ported s 32 (cmdRow op 1)
/-- A resident crew of tenant 5. -/
def crewed (s : State) : State := { s with crews := [(0, { tc with tenant := 5 })], sched := { s.sched with launches := [{ tl with tenant := 5, fn := 1 }] } }
def aMove (target transferred resumed : Bool) (pulls : List (Nat × Nat × Bool)) (stubs : List Nat) : Move :=
  { fn := 1, peerDev := 2, peerFn := 3, target := target, pulls := pulls, transferred := transferred, resumed := resumed, stubs := stubs, newCid := 0 }
def inMove (s : State) (v : Move) : State := { s with host := { s.host with moves := [v] } }
/-- An exchange of the crew's launch is open. -/
def exchanging (s : State) : State := { s with fabric := { s.fabric with exchanges := [ox] } }
/-- A context of the launch saved as frozen. -/
def frozen (s : State) : State :=
  { s with sched := { s.sched with launches := [{ tl with tenant := 5, fn := 1 }], saved := [{ yx with kind := 6 }] } }

theorem command_of (s : State) (op : Nat) (h : (decide (cmdOp (cmdRow op 1) = op) && decide (cmdFn (cmdRow op 1) = 1) && regsAnswer (tcmd s op) &&
    decide (portOf (tcmd s op) 32 = ⟨32, 0, cmdRow op 1, true, false, 0, 0, false⟩)) = true) : TenantCommand (tcmd s op) op 1 (cmdRow op 1) := by
  simp only [Bool.and_eq_true, decide_eq_true_eq] at h
  obtain ⟨⟨⟨h1, h2⟩, h3⟩, h4⟩ := h
  exact ⟨⟨by rw [h4], by rw [h4], h1, h3⟩, by rw [h4], h2⟩

theorem test_meets_TenantPortAndMoves_start :
    (∃ (s : State) (f : Nat) (r : Row), TenantCommand s 1 f r ∧ mayActivate s f = true) ∧
    (∃ (s : State) (f : Nat) (r : Row), TenantCommand s 1 f r ∧ mayActivate s f = false ∧ fnState s f ≠ 0) ∧
    (∃ (s : State) (f : Nat) (r : Row), TenantCommand s 1 f r ∧ fnState s f = 0 ∧ ∃ g, g < 32 ∧ g ≠ f ∧ fnState s g ≠ 0 ∧ fnTenant s g = fnTenant s f) ∧
    (∀ op ∈ [2, 3], ∀ st < 4, ∃ (s : State) (f : Nat) (r : Row), TenantCommand s op f r ∧ fnState s f = st) ∧
    (∃ (s : State) (f : Nat) (r : Row), TenantCommand s 5 f r ∧ mayActivate s f = true) ∧
    (∃ (s : State) (f : Nat) (r : Row), TenantCommand s 5 f r ∧ mayActivate s f = false) := by
  refine ⟨⟨_, 1, _, command_of (fn1 idle 0) 1 (by decide +kernel), by decide +kernel⟩, ⟨_, 1, _, command_of (fn1 idle 3) 1 (by decide +kernel), (by decide +kernel)⟩,
    ⟨_, 1, _, command_of (regSet (fn1 idle 0) 0 (rTENCFG 1) (15 * 2 ^ 32)) 1 (by decide +kernel), by decide +kernel, 0, by decide +kernel⟩, ?_,
    ⟨_, 1, _, command_of (fn1 idle 0) 5 (by decide +kernel), (by decide +kernel)⟩, ⟨_, 1, _, command_of (fn1 idle 2) 5 (by decide +kernel), by decide +kernel⟩⟩
  intro op hop st hst
  simp only [List.mem_cons, List.not_mem_nil, or_false] at hop
  obtain rfl | rfl := hop
  · obtain rfl | rfl | rfl | rfl : st = 0 ∨ st = 1 ∨ st = 2 ∨ st = 3 := by omega
    · exact ⟨_, 1, _, command_of (fn1 idle 0) 2 (by decide +kernel), by decide +kernel⟩
    · exact ⟨_, 1, _, command_of (fn1 (crewed idle) 1) 2 (by decide +kernel), (by decide +kernel)⟩
    · exact ⟨_, 1, _, command_of (fn1 idle 2) 2 (by decide +kernel), by decide +kernel⟩
    · exact ⟨_, 1, _, command_of (fn1 (frozen idle) 3) 2 (by decide +kernel), by decide +kernel⟩
  · obtain rfl | rfl | rfl | rfl : st = 0 ∨ st = 1 ∨ st = 2 ∨ st = 3 := by omega
    · exact ⟨_, 1, _, command_of (fn1 idle 0) 3 (by decide +kernel), (by decide +kernel)⟩
    · exact ⟨_, 1, _, command_of (fn1 idle 1) 3 (by decide +kernel), by decide +kernel⟩
    · exact ⟨_, 1, _, command_of (fn1 idle 2) 3 (by decide +kernel), by decide +kernel⟩
    · exact ⟨_, 1, _, command_of (fn1 idle 3) 3 (by decide +kernel), (by decide +kernel)⟩

theorem test_meets_TenantPortAndMoves_freeze :
    (∃ (s : State) (f : Nat) (r : Row), TenantCommand s 4 f r ∧ fnState s f ≠ 1) ∧
    (∃ (s : State) (f : Nat) (r : Row) (v : Move), TenantCommand s 4 f r ∧ fnState s f = 1 ∧ moveOf s f true = some v ∧ allPulled v = false) ∧
    (∃ (s : State) (f : Nat) (r : Row), TenantCommand s 4 f r ∧ fnState s f = 1 ∧ moveOf s f true = none ∧ ∀ p ∈ s.crews, p.2.tenant ≠ fnTenant s f) ∧
    (∃ (s : State) (f : Nat) (r : Row), TenantCommand s 4 f r ∧ fnState s f = 1 ∧ moveOf s f true = none ∧ (∃ p ∈ s.crews, p.2.tenant = fnTenant s f) ∧
      exchangesClosed s (fnTenant s f) = false) ∧
    (∃ (s : State) (f : Nat) (r : Row), TenantCommand s 6 f r ∧ fnState s f ≠ 3) ∧
    (∃ (s : State) (f : Nat) (r : Row) (v : Move), TenantCommand s 6 f r ∧ fnState s f = 3 ∧ moveOf s f false = some v ∧ v.transferred = true ∧
      allPulled v = true ∧ v.stubs ≠ []) ∧
    (∃ (s : State) (f : Nat) (r : Row) (v : Move), TenantCommand s 6 f r ∧ fnState s f = 3 ∧ moveOf s f false = some v ∧ v.transferred = true ∧
      allPulled v = true ∧ v.stubs = []) ∧
    (∃ (s : State) (f : Nat) (r : Row) (v : Move), TenantCommand s 7 f r ∧ fnState s f = 3 ∧ moveOf s f false = some v ∧ v.resumed = true) ∧
    (∃ (s : State) (f : Nat) (r : Row), TenantCommand s 7 f r ∧ fnState s f = 3 ∧ (∀ v, moveOf s f false = some v → v.resumed = false) ∧
      frozenLeft s (fnTenant s f) = false) ∧
    (∃ (s : State) (f : Nat) (r : Row), TenantCommand s 7 f r ∧ fnState s f = 3 ∧ (∀ v, moveOf s f false = some v → v.resumed = false) ∧
      frozenLeft s (fnTenant s f) = true) :=
  ⟨⟨_, 1, _, command_of (fn1 idle 3) 4 (by decide +kernel), by decide +kernel⟩,
   ⟨_, 1, _, _, command_of (inMove (fn1 idle 1) (aMove true true false [(0, 0, false)] [])) 4 (by decide +kernel), by decide +kernel, by rfl, by decide⟩,
   ⟨_, 1, _, command_of (fn1 idle 1) 4 (by decide +kernel), (by decide +kernel), by rfl, by intro p hp; cases hp⟩,
   ⟨_, 1, _, command_of (exchanging (fn1 (crewed idle) 1)) 4 (by decide +kernel), by decide +kernel, by rfl, ⟨_, List.mem_singleton.mpr rfl, by decide +kernel⟩,
     (by decide +kernel)⟩,
   ⟨_, 1, _, command_of (fn1 idle 1) 6 (by decide +kernel), by decide +kernel⟩,
   ⟨_, 1, _, _, command_of (inMove (fn1 idle 3) (aMove false true false [(0, 0, true)] [7])) 6 (by decide +kernel), by decide +kernel, by rfl, rfl, by decide, by decide⟩,
   ⟨_, 1, _, _, command_of (inMove (fn1 idle 3) (aMove false true false [(0, 0, true)] [])) 6 (by decide +kernel), (by decide +kernel), by rfl, rfl, by decide, rfl⟩,
   ⟨_, 1, _, _, command_of (inMove (fn1 idle 3) (aMove false true true [] [])) 7 (by decide +kernel), by decide +kernel, by rfl, rfl⟩,
   ⟨_, 1, _, command_of (fn1 idle 3) 7 (by decide +kernel), by decide +kernel, (by intro v h; cases h), (by decide +kernel)⟩,
   ⟨_, 1, _, command_of (fn1 (frozen idle) 3) 7 (by decide +kernel), by decide +kernel, (by intro v h; cases h), by decide +kernel⟩⟩

/-- A port command of function 1 under way. -/
def begun (s : State) (op : Nat) : State := { portBegin (tcmd s op) 32 with ev := { fn := 1 } }
def noImage : MoveImage := ⟨[{ tl with id := 0 }], [], [yx], [], [], [], [], [(0x4000, 0x8000)], 9, [], []⟩

theorem test_meets_TenantPortAndMoves_moves :
    (∃ s : State, fnState s s.ev.fn = 1) ∧ (∃ s : State, fnState s s.ev.fn = 2 ∧ drained s (cidOf s (fnTenant s s.ev.fn)) = false) ∧
    (∀ op ∈ [2, 3, 6], ∃ s : State, fnState s s.ev.fn = 2 ∧ drained s (cidOf s (fnTenant s s.ev.fn)) = true ∧ portOpFor s s.ev.fn = op) ∧
    (∃ s : State, fnState s s.ev.fn = 2 ∧ drained s (cidOf s (fnTenant s s.ev.fn)) = true ∧ portOpFor s s.ev.fn = 0) ∧
    (∃ (s : State) (v : Move) (x : MoveImage), moveOf s s.ev.fn true = none ∧ moveOf s s.ev.fn false = some v ∧ s.ev.flag = false ∧ s.ev.image = some x ∧
      v.transferred = false ∧ ∀ p ∈ s.crews, p.2.tenant ≠ fnTenant s s.ev.fn) ∧
    (∃ (s : State) (v : Move), moveOf s s.ev.fn true = none ∧ moveOf s s.ev.fn false = some v ∧ s.ev.flag = true ∧ v.transferred = true ∧ v.resumed = false) ∧
    (∀ g : Bool, ∃ (s : State) (v : Move) (a b : Nat), moveOf s s.ev.fn true = none ∧ moveOf s s.ev.fn false = some v ∧ v.transferred = true ∧
      v.pulls[s.ev.idx]? = some (a, b, g) ∧ ∀ x ∈ s.resting, ∀ y ∈ (frameBlocks s b).getD [], inBlock y x.key = false) ∧
    (∃ (s : State) (v : Move) (x : MoveImage), moveOf s s.ev.fn true = some v ∧ s.ev.image = some x ∧ v.transferred = false) ∧
    (∀ flag : Bool, ∃ (s : State) (v : Move) (a b : Nat), moveOf s s.ev.fn true = some v ∧ v.pulls[s.ev.idx]? = some (a, b, false) ∧
      (∀ p ∈ v.pulls.take s.ev.idx, p.2.2 = true) ∧ s.ev.flag = flag ∧ s.xlat.faults = [] ∧ s.sched.late = [] ∧ s.sched.textLate = [] ∧ s.keyed = [] ∧ v.image = none) ∧
    (∀ wanted : Bool, ∃ (s : State) (v : Move) (a b : Nat), moveOf s s.ev.fn true = some v ∧ v.pulls[s.ev.idx]? = some (a, b, false) ∧
      (∃ p ∈ v.pulls.take s.ev.idx, p.2.2 = false) ∧ frameWanted s a = wanted) := by
  refine ⟨⟨{ fn1 idle 1 with ev := { fn := 1 } }, (by decide +kernel)⟩,
    ⟨{ withMsg (fn1 idle 2) { askMsg 0 1 with cid := 0x500 } with ev := { fn := 1 } }, by decide +kernel⟩, ?_,
    ⟨{ fn1 idle 2 with ev := { fn := 1 } }, by decide +kernel⟩,
    ⟨{ inMove (fn1 idle 3) (aMove false false false [] [7]) with ev := { fn := 1, image := some noImage } }, _, _, by rfl, by rfl, rfl, rfl, rfl, by intro p hp; cases hp⟩,
    ⟨{ inMove (fn1 idle 3) (aMove false true false [] [7]) with ev := { fn := 1, flag := true } }, _, by rfl, by rfl, rfl, rfl, rfl⟩,
    fun g => ⟨{ inMove (fn1 idle 3) (aMove false true false [(4, 8, g)] [7]) with ev := { fn := 1 } }, _, 4, 8, by rfl, by rfl, rfl, rfl, by intro x hx; cases hx⟩,
    ⟨{ inMove (fn1 idle 1) (aMove true false false [] []) with ev := { fn := 1, image := some noImage } }, _, _, by rfl, rfl, rfl⟩,
    fun flag => ⟨{ inMove (fn1 idle 1) (aMove true true false [(0x4000, 8, false)] []) with ev := { fn := 1, flag := flag } }, _, 0x4000, 8, by rfl, rfl,
      (by intro p hp; cases hp), rfl, rfl, rfl, rfl, rfl, rfl⟩,
    fun wanted => ⟨{ inMove (fn1 { idle with xlat := { idle.xlat with faults := if wanted then [{ heldFault with addr := 0x8000, pull := true }] else [] } } 1)
      (aMove true true false [(0x4000, 8, false), (0x8000, 16, false)] []) with ev := { fn := 1, idx := 1 } }, _, 0x8000, 16, by rfl, rfl,
      ⟨_, List.mem_singleton.mpr rfl, rfl⟩, by cases wanted <;> decide +kernel⟩⟩
  intro op hop
  simp only [List.mem_cons, List.not_mem_nil, or_false] at hop
  obtain rfl | rfl | rfl := hop
  · exact ⟨begun (fn1 idle 2) 2, (by decide +kernel)⟩
  · exact ⟨begun (fn1 idle 2) 3, by decide +kernel⟩
  · exact ⟨begun (fn1 idle 2) 6, by decide +kernel⟩

def group7 (resting : List Nat) : Group :=
  { num := 7, gen := 1, tenant := 5, kind := 0, members := [4, 5], dones := [0, 0], live := true, steps := 0, performed := [], resting := resting, kept := [],
    withdrawn := false, gone := [] }
def grouped (s : State) (resting : List Nat) (a : EvArgs := {}) : State := { s with fabric := { s.fabric with groups := [group7 resting] }, ev := a }

theorem test_meets_TenantPortAndMoves_groups :
    (∃ (s : State) (r : Row), Commands s 37 1 r) ∧
    (∃ (s : State) (r : Row), Commands s 37 2 r ∧ s.fabric.groups ≠ [] ∧ ∀ g ∈ s.fabric.groups, g.num = cmdIndex r → g.live = false) ∧
    (∃ (s : State) (r : Row) (g : Group), Commands s 37 2 r ∧ s.fabric.groups.find? (fun g => decide (g.num = cmdIndex r) && g.live) = some g ∧
      ∃ m ∈ s.fabric.msgs, m.peer.testBit 62 = true ∧ bitsOf m.peer 4 12 = g.num) ∧
    (∃ (s : State) (r : Row) (g : Group), Commands s 37 2 r ∧ s.fabric.groups.find? (fun g => decide (g.num = cmdIndex r) && g.live) = some g ∧
      (∀ m ∈ s.fabric.msgs, ¬(m.peer.testBit 62 = true ∧ bitsOf m.peer 4 12 = g.num)) ∧ g.kept = []) ∧
    (∃ s : State, s.fabric.groups ≠ [] ∧ ∀ g ∈ s.fabric.groups, ¬(g.live = true ∧ s.ev.idx ∈ g.resting ∧ s.ev.idx ∈ g.members)) ∧
    (∃ (s : State) (g : Group), g.live = true ∧ s.ev.idx ∈ g.resting ∧ s.ev.idx ∈ g.members ∧
      s.fabric.groups.filter (fun g => g.live && g.resting.contains s.ev.idx && g.members.contains s.ev.idx) = [g]) ∧
    (∃ s : State, s.ev.fn = 31 ∧ (portOf s (40 + s.ev.fn)).run = true ∧ regsAnswer s = true) :=
  ⟨⟨ported idle 37 (cmdRow 1 0), cmdRow 1 0, by unfold Commands; decide +kernel⟩,
   ⟨ported (grouped idle []) 37 (cmdRow 2 6), cmdRow 2 6, by unfold Commands; decide +kernel⟩,
   ⟨ported { grouped idle [] with fabric := { (grouped idle []).fabric with msgs := [{ askMsg 0 1 with peer := 2 ^ 62 + 7 * 16 + 1 }] } } 37 (cmdRow 2 7), cmdRow 2 7, group7 [],
     by unfold Commands; decide +kernel, (by decide +kernel), _, List.mem_singleton.mpr rfl, by decide +kernel, by decide +kernel⟩,
   ⟨ported (grouped idle []) 37 (cmdRow 2 7), cmdRow 2 7, group7 [], by unfold Commands; decide +kernel, (by decide +kernel), (by intro m hm; cases hm), rfl⟩,
   ⟨grouped idle [4] { idx := 5 }, by decide +kernel⟩, ⟨grouped idle [4] { idx := 4 }, group7 [4], rfl, by decide, by decide, by rfl⟩,
   ⟨{ ported idle 71 0 with ev := { fn := 31 } }, rfl, by decide +kernel, (by decide +kernel)⟩⟩


/-! Register writes, power states, errors: a package with these operands of the event. -/

def evs (a : EvArgs) (s : State := idle) : State := { s with ev := a }
def powered (p : Power) (a : EvArgs := {}) : State := { idle with power := p, ev := a }

theorem test_meets_RegisterWrites_block :
    (∃ s : State, s.ev.off % 8 ≠ 0) ∧ (∃ s : State, s.ev.fn = 32 ∧ s.ev.off % 8 = 0) ∧
    (∃ s : State, s.ev.off % 8 = 0 ∧ s.ev.fn < 32 ∧ regsAnswer s = false ∧ ¬(s.power = .bootstrap ∧ s.ev.fn = 0 ∧ (s.ev.off = rBOOTADDR ∨ s.ev.off = rBOOTLEN))) ∧
    (∃ s : State, s.ev.off % 8 = 0 ∧ s.ev.fn < 32 ∧ s.power = .bootstrap ∧ s.ev.fn = 0 ∧ s.ev.off = rBOOTLEN ∧ portAt s.ev.fn s.ev.off = none ∧ s.ev.off ≠ rDEQACK) ∧
    (∃ (s : State) (m : Word), s.ev.off % 8 = 0 ∧ s.ev.fn = 31 ∧ regsAnswer s = true ∧ portAt s.ev.fn s.ev.off = none ∧ s.ev.off ≠ rDEQACK ∧
      plainMask s.ev.fn s.ev.off = some m ∧ s.ev.off < 2 ^ 16) ∧
    (∃ s : State, s.ev.off % 8 = 0 ∧ s.ev.fn < 32 ∧ regsAnswer s = true ∧ portAt s.ev.fn s.ev.off = none ∧ s.ev.off ≠ rDEQACK ∧ plainMask s.ev.fn s.ev.off = none) ∧
    (∃ s : State, s.ev.off = rDEQACK ∧ s.ev.fn < 32 ∧ regsAnswer s = true) ∧
    (∃ (s : State) (id b : Nat), s.ev.off % 8 = 0 ∧ s.ev.fn < 32 ∧ regsAnswer s = true ∧ portAt s.ev.fn s.ev.off = some (id, b) ∧ b = 56) ∧
    (∃ (s : State) (id b : Nat), s.ev.off % 8 = 0 ∧ s.ev.fn < 32 ∧ regsAnswer s = true ∧ portAt s.ev.fn s.ev.off = some (id, b) ∧ b = 0 ∧ (portOf s id).run = true) ∧
    (∃ (s : State) (id b : Nat), s.ev.off % 8 = 0 ∧ s.ev.fn < 32 ∧ regsAnswer s = true ∧ portAt s.ev.fn s.ev.off = some (id, b) ∧ b = 0 ∧
      (portOf s id).run = false ∧ portEvent id (cmdOp (setFld (portOf s id).staged 0 64 s.ev.v.toNat)) = none) ∧
    (∃ (s : State) (id b : Nat) (i : Instr) (a : EvArgs), s.ev.off % 8 = 0 ∧ s.ev.fn < 32 ∧ regsAnswer s = true ∧ portAt s.ev.fn s.ev.off = some (id, b) ∧ b = 0 ∧
      (portOf s id).run = false ∧ portEvent id (cmdOp (setFld (portOf s id).staged 0 64 s.ev.v.toNat)) = some (i, a)) :=
  ⟨⟨evs { off := 4 }, by decide⟩, ⟨evs { fn := 32 }, rfl, rfl⟩,
   ⟨powered .off, rfl, by decide, by decide +kernel, by unfold powered; decide⟩, ⟨powered .bootstrap { off := rBOOTLEN }, by decide +kernel⟩,
   ⟨evs { fn := 31, off := rFABPOL }, 0xF_FF00, (by decide +kernel)⟩, ⟨evs { off := 0xFF8 }, by decide +kernel⟩, ⟨evs { off := rDEQACK }, by decide +kernel⟩,
   ⟨evs { fn := 3, off := 0x438 }, 3, 56, (by decide +kernel)⟩, ⟨evs { fn := 1, off := 0x400 } (ported idle 1 (cmdRow 1 0)), 1, 0, by decide +kernel⟩,
   ⟨evs { fn := 1, off := 0x400, v := 9 }, 1, 0, by decide +kernel⟩, ⟨evs { fn := 1, off := 0x400, v := 2 }, 1, 0, .invalObject, { fn := 1 }, (by decide +kernel)⟩⟩

theorem test_meets_RegisterWrites_masks :
    (∀ x ∈ [0, 600, 2800], ∃ s : State, regsAnswer s = true ∧ s.ev.v.toNat % 2 ^ 16 = x) ∧
    (∀ x ∈ [1, 599, 2801], ∃ s : State, regsAnswer s = true ∧ s.ev.v.toNat % 2 ^ 16 = x) ∧
    (∃ s : State, regsAnswer s = true ∧ s.ev.queue = 63 ∧ s.host.retValid = 15) ∧ (∃ s : State, regsAnswer s = true ∧ s.ev.queue = 63 ∧ s.host.retValid ≠ 15) ∧
    (∃ s : State, regsAnswer s = true ∧ s.ev.idx = 3) ∧ (∃ s : State, regsAnswer s = true ∧ s.ev.core = 255) ∧
    (∃ s : State, regsAnswer s = true ∧ s.ev.die = 7 ∧ s.ev.idx = 7 ∧ s.ev.v.getLsbD 8 = true) ∧
    (∃ s : State, regsAnswer s = true ∧ s.ev.die = 7 ∧ s.ev.idx = 7 ∧ s.ev.v.getLsbD 8 = false ∧ (regGet s 0 (rSPSLICE s.ev.die s.ev.idx)).getLsbD 8 = true) ∧
    (∀ off ∈ [rOTBASE, rFSROOT, rRMBASE, rHTBASE, rBDBASE], ∃ s : State, regsAnswer s = true ∧ s.ev.off = off ∧ s.ev.fn = 31) ∧
    (∃ s : State, regsAnswer s = true ∧ s.ev.fn = 0 ∧ s.ev.off = rSSROOTf 31) ∧ (∃ s : State, regsAnswer s = true ∧ s.ev.fn = 31) ∧
    (∃ s : State, s.ev.die = 0 ∧ s.ev.kind = 2 ∧ ∃ p ∈ s.crews, dieOf (p.1 / 2) = s.ev.die) ∧
    (∀ k < 3, ∃ s : State, s.ev.die = 7 ∧ s.ev.kind = k ∧ s.crews ≠ [] ∧ ∀ p ∈ s.crews, dieOf (p.1 / 2) ≠ s.ev.die) := by
  refine ⟨?_, ?_, ⟨{ evs { queue := 63 } with host := { idle.host with retValid := 15 } }, by decide +kernel⟩, ⟨evs { queue := 63 }, by decide +kernel⟩,
    ⟨evs { idx := 3 }, (by decide +kernel)⟩, ⟨evs { core := 255 }, by decide +kernel⟩, ⟨evs { die := 7, idx := 7, v := 0x100 }, by decide +kernel⟩,
    ⟨evs { die := 7, idx := 7, v := 5 } (regSet idle 0 (rSPSLICE 7 7) 0x100), (by decide +kernel)⟩, fun off _ => ⟨evs { off := off, fn := 31 }, rfl, rfl, rfl⟩,
    ⟨evs { off := rSSROOTf 31 }, by decide +kernel⟩, ⟨evs { fn := 31 }, rfl, rfl⟩, ⟨evs { kind := 2 } (pk tc), rfl, rfl, _, List.mem_singleton.mpr rfl, by decide +kernel⟩,
    fun k _ => ⟨evs { die := 7, kind := k } (pk tc), rfl, rfl, (by intro h; cases h), ?_⟩⟩
  · intro x h
    simp only [List.mem_cons, List.not_mem_nil, or_false] at h
    obtain rfl | rfl | rfl := h
    · exact ⟨evs {}, rfl, rfl⟩
    · exact ⟨evs { v := 600 }, rfl, rfl⟩
    · exact ⟨evs { v := 2800 }, rfl, rfl⟩
  · intro x h
    simp only [List.mem_cons, List.not_mem_nil, or_false] at h
    obtain rfl | rfl | rfl := h
    · exact ⟨evs { v := 1 }, rfl, rfl⟩
    · exact ⟨evs { v := 599 }, rfl, rfl⟩
    · exact ⟨evs { v := 2801 }, rfl, rfl⟩
  · intro p hp
    obtain rfl := List.mem_singleton.mp hp
    show dieOf (0 / 2) ≠ 7
    decide

theorem test_meets_PowerAndErrors_power :
    (∃ s : State, s.power ≠ .bootstrap) ∧ (∃ s : State, s.power = .bootstrap ∧ regGet s 0 rBOOTLEN = 0) ∧
    (∃ s : State, s.power = .bootstrap ∧ regGet s 0 rBOOTLEN ≠ 0 ∧ s.ev.flag = true) ∧ (∃ s : State, s.power = .bootstrap ∧ regGet s 0 rBOOTLEN ≠ 0 ∧ s.ev.flag = false) ∧
    (∃ s : State, s.power ≠ .run) ∧ (∃ s : State, s.power = .run ∧ s.crews ≠ []) ∧
    (∃ (s : State) (p : Nat) (w : Option (Nat × Nat)), s.power = .suspending p w ∧ s.crews ≠ []) ∧
    (∃ (s : State) (p : Nat) (w : Option (Nat × Nat)), s.power = .suspending p w ∧ s.crews = [] ∧ fabricQuiet s = false) ∧
    (∃ (s : State) (p : Nat) (w : Option (Nat × Nat)), s.power = .suspending p w ∧ s.crews = [] ∧ fabricQuiet s = true) ∧
    (∃ s : State, s.power ≠ .retention) ∧ (∃ s : State, s.power = .retention) ∧ (∃ s : State, s.power = .off) ∧ (∃ s : State, s.power ≠ .off) ∧
    (∃ s : State, regsAnswer s = false ∧ s.ev.fn < 32) ∧ (∃ s : State, regsAnswer s = true ∧ s.ev.fn = 32) ∧
    (∀ st < 4, ∃ s : State, regsAnswer s = true ∧ s.ev.fn = 1 ∧ fnState s s.ev.fn = st) ∧ (∃ s : State, regsAnswer s = true ∧ s.ev.fn = 0) := by
  refine ⟨⟨idle, by decide⟩, ⟨powered .bootstrap, rfl, rfl⟩, ⟨powered .bootstrap { flag := true } |> fun s => regSet s 0 rBOOTLEN 64, (by decide +kernel)⟩,
    ⟨regSet (powered .bootstrap) 0 rBOOTLEN 64, by decide +kernel⟩, ⟨powered .off, by decide⟩, ⟨pk tc, rfl, by intro h; cases h⟩,
    ⟨{ pk tc with power := .suspending 0 none }, 0, none, rfl, by intro h; cases h⟩, ⟨withMsg (powered (.suspending 0 none)) (askMsg 0 0), 0, none, by decide +kernel⟩,
    ⟨powered (.suspending 0 none), 0, none, (by decide +kernel)⟩, ⟨idle, by decide⟩, ⟨powered .retention, rfl⟩, ⟨powered .off, rfl⟩, ⟨idle, by decide⟩,
    ⟨powered .off, by decide +kernel⟩, ⟨evs { fn := 32 }, rfl, rfl⟩, ?_, ⟨idle, rfl, rfl⟩⟩
  intro st h
  obtain rfl | rfl | rfl | rfl : st = 0 ∨ st = 1 ∨ st = 2 ∨ st = 3 := by omega
  · exact ⟨evs { fn := 1 } (fn1 idle 0), by decide +kernel⟩
  · exact ⟨evs { fn := 1 } (fn1 idle 1), (by decide +kernel)⟩
  · exact ⟨evs { fn := 1 } (fn1 idle 2), by decide +kernel⟩
  · exact ⟨evs { fn := 1 } (fn1 idle 3), by decide +kernel⟩

def retire0 (q : BitVec 4) (crews : List (Nat × Crew)) : State :=
  { idle with host := { idle.host with retiring := [(2, 100)] }, sched := { idle.sched with quiesce := q }, crews := crews, ev := { die := 2, unit := 100 } }

theorem test_meets_PowerAndErrors_errors :
    (∃ s : State, s.ev.flag = true) ∧ (∀ k < 8, ∃ s : State, s.ev.flag = false ∧ regsAnswer s = true ∧ s.ev.kind = k ∧ s.ev.idx = 0) ∧
    (∃ (s : State) (k : Nat) (c : Crew), s.ev.flag = false ∧ regsAnswer s = true ∧ s.ev.kind = 3 ∧ s.ev.idx = k + 1 ∧ crewAt s s.ev.core s.ev.slot = some c) ∧
    (∃ (s : State) (c : Crew), s.ev.flag = false ∧ regsAnswer s = true ∧ s.ev.kind = 4 ∧ crewAt s s.ev.core s.ev.slot = some c) ∧
    (∀ u ∈ [0, 7, 10, 16, 19], ∃ s : State, regsAnswer s = true ∧ s.ev.unit = u) ∧
    (∃ s : State, regsAnswer s = true ∧ s.ev.flag = false ∧ s.ev.idx = 1) ∧
    (∀ k < 8, ∃ s : State, regsAnswer s = true ∧ s.ev.flag = true ∧ s.ev.kind = k ∧ s.ev.v.getLsbD 0 = false) ∧
    (∀ k < 4, ∃ s : State, regsAnswer s = true ∧ s.ev.flag = true ∧ s.ev.kind = k ∧ s.ev.v.getLsbD 0 = true ∧ s.ev.slots ≠ [] ∧
      crewAt s s.ev.core 0 = none ∧ crewAt s s.ev.core 1 = none) ∧
    (∃ s : State, (s.ev.die, s.ev.unit) ∉ s.host.retiring ∧ s.host.retiring ≠ []) ∧
    (∃ s : State, (s.ev.die, s.ev.unit) ∈ s.host.retiring ∧ s.sched.quiesce.getLsbD (s.ev.die / 2) = true ∧ crewsIn s (s.ev.die / 2) = [] ∧ s.ev.unit < 128) :=
  ⟨⟨evs { flag := true }, rfl⟩, fun k _ => ⟨evs { kind := k }, rfl, rfl, rfl, rfl⟩, ⟨evs { kind := 3, idx := 3 } (pk tc), 2, tc, (by decide +kernel)⟩,
   ⟨evs { kind := 4 } (pk tc), tc, by decide +kernel⟩, fun u _ => ⟨evs { unit := u }, rfl, rfl⟩, ⟨evs { idx := 1 }, rfl, rfl, rfl⟩,
   fun k _ => ⟨evs { flag := true, kind := k }, rfl, rfl, rfl, show (0#64).getLsbD 0 = false by decide⟩, fun k _ => ⟨evs { flag := true, kind := k, v := 1, slots := [(1, 2)] }, rfl, rfl, rfl, show (1#64).getLsbD 0 = true by decide, (by intro h; cases h), rfl, rfl⟩,
   ⟨{ retire0 2 [] with ev := {} }, by decide +kernel⟩, ⟨retire0 2 [(0, tc)], (by decide +kernel)⟩⟩


/-! ### The spec's worked examples, one step each: the word the spec writes, decoded and executed, and the value it gives -/

/-- Does the step of the decoded word answer a next state whose crew meets the condition? -/
def after (s : State) (nbits w : Nat) (p : Crew → Bool) : Bool :=
  match decodeTableWord nbits w with
  | none => false
  | some i => match exec i s with
    | .next t => (crewAt t 0 0).any p
    | .fault _ => false
    | .refused _ => false

def sr (c : Crew) (e : Eng) (r : BitVec 5) : Nat := (sRead c e r).toNat
/-- s5 and s6 of the scalar example (section 06). -/
def c56 : Crew := withC (withC tc 5 0x7FC0_0000) 6 0x8000_0000_0000_0000

/-- R108 and section 06, scalardemo: LIU shifts its field in. -/
theorem test_liu : after (at_ (withC tc 5 0x7FC00) .c) 32 0x003E_5000 (fun c => decide (sr c .c 5 = 0x7FC0_0000)) = true := by
  decide +kernel
/-- R104 and scalardemo: SHLI by 63. -/
theorem test_shli : after (at_ (withC tc 6 1) .c) 32 0x0038_633F (fun c => decide (sr c .c 6 = 2 ^ 63)) = true := by decide +kernel
/-- R107 and scalardemo: the unsigned and the signed compare of s6 and s5. -/
theorem test_compares :
    after (at_ c56 .c) 32 0x00D0_48C5 (fun c => !pRead c .c 1 && pRead c .c 2) = true ∧
    after (at_ c56 .c) 32 0x00C8_D0C5 (fun c => pRead c .c 3 && !pRead c .c 4) = true := by decide +kernel
/-- R104 and scalardemo: SEL takes its second source where the predicate is false. -/
theorem test_sel : after (at_ c56 .c) 32 0x0062_7314 (fun c => decide (sr c .c 7 = 0x7FC0_0000)) = true := by decide +kernel
/-- R106 and scalardemo: a zero divisor gives all ones and IDZ alone. -/
theorem test_div_zero :
    after (at_ c56 .c) 32 0x000A_8300 (fun c => decide (sr c .c 8 = 2 ^ 64 - 1) && decide (c.fstat = flIDZ)) = true := by
  decide +kernel
/-- R106's table: −7 by 2, and the most negative value by −1. -/
theorem test_div_table :
    (sRead ((fun c => match exec (.div 0 0 0 8 6 5 0) (at_ c .c) with | .next t => (crewAt t 0 0).getD c | _ => c)
      (withC (withC tc 6 (-7)) 5 2)) .c 8 = -3) ∧
    (sRead ((fun c => match exec (.rem 0 0 0 8 6 5 0) (at_ c .c) with | .next t => (crewAt t 0 0).getD c | _ => c)
      (withC (withC tc 6 (-7)) 5 2)) .c 8 = -1) ∧
    (sRead ((fun c => match exec (.div 0 0 0 8 6 5 0) (at_ c .c) with | .next t => (crewAt t 0 0).getD c | _ => c)
      (withC (withC tc 6 (2 ^ 63)) 5 (-1))) .c 8 = 2 ^ 63) := by
  decide +kernel

/-- k2 of the capability example (section 06), and k3 narrowed. -/
def ck : Crew := withK (withK tc 2 (mkCap 4 0x3B 0x123 5 0x10000 0)) 3 (mkCap 4 1 0x123 5 0x500 0x400)
/-- R121 and capdemo: KOFF moves the cursor; a second step past the limit raises 0x03. -/
theorem test_koff :
    after (at_ (withA ck 4 0x400) .a) 32 0x2082_3110 (fun c => decide (kRead c 3 = mkCap 4 0x3B 0x123 5 0x10000 0x400)) = true ∧
    after (handled (at_ (withA ck 4 0x400) .a) 3) 32 0x2082_3190 (fun c => c.trap.inHandler) = true := by decide +kernel
/-- R123 and capdemo: the fields KTEST writes. -/
theorem test_ktest : after (at_ (withA ck 8 0x2_0001) .a) 32 0x208E_71A0 (fun c => decide (sr c .a 7 = 0x0001_0000_0123_0184)) = true := by
  decide +kernel

/-- The ring of section 07's ringdemo: four slots, the counters at 6. -/
def ring6 : Row := 0x0002_0001_0000000000000000_00000000_00000006_00000006_00000006
/-- R143 and ringdemo: RCLAIM of 2 answers slot 6. -/
theorem test_rclaim :
    after (writeUnit (at_ (withA (withK tc 2 (mkCap 1 0xFF 0 0 0x10000 0)) 4 2) .a) (spadKey 0 0 0 0) 64 ring6.toNat) 32 0x20A4_5110
      (fun c => decide (sr c .a 5 = 6)) = true := by decide +kernel

/-- R237 and section 12's example: TRAP 5 saves TCAUSE and the address after it. -/
theorem test_trap :
    after (handled (at_ { tc with strC := { tc.strC with pc := 0x40 } } .c) 0x15) 32 0x00A4_0005
      (fun c => c.trap.inHandler && decide (c.trap.tcause = 0x0014_0015) && decide (c.trap.tpc = 0x44)) = true := by decide +kernel

/-- A row of 16 FP32 lanes from its first two. -/
def lanes (x y : Nat) : Row := BitVec.ofNat 512 (x + 2 ^ 32 * y)
def lane (c : Crew) (r i : Nat) : Nat := (vRead c r).toNat / 2 ^ (32 * i) % 2 ^ 32
/-- R26's example: a product of a NaN is the canonical NaN. -/
theorem test_vmul_nan :
    (match exec (.vmul va) (at_ (vWrite (vWrite tc 2 (lanes 0xFFC0_1234 0)) 3 (lanes 0x3F80_0000 0)) .v) with
     | .next t => (crewAt t 0 0).any fun c => decide (lane c 1 0 = 0x7FC0_0000)
     | _ => false) = true := by decide +kernel
/-- R27's example: 460, 464 and 470 to E4M3, plain, saturating and truncated. -/
theorem test_e4m3 :
    (convert 0 false 8 11 0x43E6_0000).bits = 0x7E ∧ (convert 0 false 8 11 0x43E8_0000).bits = 0x7E ∧
    (convert 0 false 8 11 0x43EB_0000).bits = 0x7F ∧ (convert 0 true 8 11 0x43EB_0000).bits = 0x7E ∧
    (convert 1 false 8 11 0x43EB_0000).bits = 0x7E := by decide +kernel
/-- R31's example: code 0x1 under σ = 255 and S = 0.5, rounded to BF16. -/
theorem test_qn4 : qnLevel 1 = -178 ∧ qnLevel 14 = 185 ∧ (enc 0 false (fmtOf 9) (.fin true (178 * 255) (-9))).bits = 0xC2B1 := by decide +kernel
/-- R170's example: two values to BF16, the first a tie. -/
theorem test_bf16 :
    (convert 0 false 8 9 0x3F80_8000) = ⟨0x3F80, flNX⟩ ∧ (convert 0 false 8 9 0x3F80_8080) = ⟨0x3F81, flNX⟩ ∧
    (convert 0 false 8 9 0x43EB_0000) = ⟨0x43EB, 0⟩ ∧ (convert 0 false 8 9 0x8000_0000) = ⟨0x8000, 0⟩ := by decide +kernel

/-- A row whose byte b is base + b. -/
def bytesFrom (base : Nat) : Row := BitVec.ofNat 512 ((List.range 64).foldl (fun a b => a + (base + b) * 2 ^ (8 * b)) 0)
/-- R166's example: VROTM.z8 by 5 over two repeats. -/
theorem test_vrotm :
    after (at_ (vWrite (vWrite (vWrite tc 20 (bytesFrom 0)) 21 (bytesFrom 0x40)) 22 (bytesFrom 0x80)) .v) 96
      (0x4012_C802 + 2 ^ 32 * 0x1404_0281 + 2 ^ 64 * 0x0030_1400)
      (fun c => decide (vRead c 10 = bytesFrom 5) && decide (vRead c 11 = bytesFrom 0x45)) = true := by decide +kernel

/-- R47's example: one FP8 group into an accumulator of 0.5. -/
theorem test_group :
    accUpdate ⟨16, 12, false⟩ 0 ([(0x38, 0x78), (0x38, 0xF8), (0x03, 0x20), (0x38, 0x38)].map fun p => (matVal 11 p.1, matVal 11 p.2)) 0
      (.fin false 1 0) 0x3F00_0000 = ⟨0x3FC0_0000, flNX⟩ := by decide +kernel
/-- R186's example: the QN4 element with σ = 3 and S = 0.25. -/
theorem test_qn4_group :
    accUpdate ⟨16, 12, true⟩ 0 [(matVal 11 0x38, matVal 13 0xF), (matVal 11 0x40, matVal 13 1)] 3 (fval fF32 0x3E80_0000) 0 =
      ⟨0xBE96_0000, 0⟩ := by decide +kernel
/-- R53 and section 10's example: combine of (2, 0.25) and (0.5, 3). -/
theorem test_combine :
    (let e := combineChan 0 ⟨[0x3E80_0000], [[0x4000_0000]], 0⟩ ⟨[0x4040_0000], [[0x3F00_0000]], 0⟩
     e.b.head? = some 0x4048_0000 ∧ (e.a.getD 0 []).head? = some 0x3F80_0000 ∧ e.fl = 0) := by
  decide +kernel

/-- The operands of section 11's example, with two lanes. -/
def crev : Crew :=
  vWrite (vWrite { tc with strV := { tc.strV with n := spSet tc.strV.n 2 2 } } 5 (lanes 0x3F80_0001 0x40A0_0000)) 6 (lanes 0x3F80_0001 0x3F00_0000)
/-- R229 and the example: RMUL pushes the error row, UNMUL restores the operands. -/
theorem test_rmul :
    after (at_ crev .v) 96 (0x4040_1081 + 2 ^ 32 * 0x0500_0140 + 2 ^ 64 * 0x1800)
      (fun c => decide (lane c 5 0 = 0x3F80_0002) && decide (lane c 5 1 = 0x4020_0000) && decide (c.rem.rdepth = 1)
        && decide (spGet c.rem.row 0 = lanes 0x2880_0000 0) && decide (spGet c.rem.tag 0 = 0x3008) && decide (c.fstat = flNX)) = true := by
  decide +kernel
theorem test_unmul :
    after (at_ { vWrite crev 5 (lanes 0x3F80_0002 0x4020_0000) with
        rem := { crev.rem with rdepth := 1, row := spSet [] 0 (lanes 0x2880_0000 0), tag := spSet [] 0 0x3008 } } .v) 96
      (0x4042_1081 + 2 ^ 32 * 0x0500_0140 + 2 ^ 64 * 0x1800)
      (fun c => decide (lane c 5 0 = 0x3F80_0001) && decide (lane c 5 1 = 0x40A0_0000) && decide (c.rem.rdepth = 0)) = true := by
  decide +kernel

/-- R33: words of exponent 127 but for word 3, whose exponent 0 escapes; base in byte 0, the escape in byte 55. -/
def oneEscape : Row := rowOf 32 16 fun i => if i = 3 then 0x8000_0001 else 0x3F80_0000 + i
theorem test_record_compressed :
    (encodeRecord oneEscape).desc = 0x81 ∧ (encodeRecord oneEscape).payload.length = 56 ∧ (encodeRecord oneEscape).payload.getD 0 0 = 0x7F ∧
    (encodeRecord oneEscape).payload.getD 2 0 = 0x0E ∧ (encodeRecord oneEscape).payload.getD 7 0 = 8 ∧
    decodeRecord (encodeRecord oneEscape) = some oneEscape := by decide +kernel
/-- R33 and R34: nine escapes leave the row raw; a reserved bit, too many escapes and a raw record with escapes are malformed. -/
def manyEscapes : Row := rowOf 32 16 fun i => if i < 9 then i else 0x7F80_0000
theorem test_record_raw : (encodeRecord manyEscapes).desc = 0 ∧ (encodeRecord manyEscapes).payload.length = 64 ∧
    decodeRecord (encodeRecord manyEscapes) = some manyEscapes ∧ decodeRecord { encodeRecord oneEscape with desc := 0xA1 } = none ∧
    decodeRecord { encodeRecord oneEscape with desc := 0x82 } = none ∧ decodeRecord { encodeRecord manyEscapes with desc := 9 } = none := by decide +kernel
/-- R369 and R32: a packet's header in its bytes, and what a receiver reads from the wire; a damaged one is not read. -/
def wirePacket : CarryPacket := { lastPacket with kind := 4, cid := 0x1234, exch := 9, entry := 3, cause := 0x18, launch := 0x0102, rows := [oneEscape, manyEscapes], seq := 77 }
theorem test_wire : (readPacket (wireOf wirePacket)).any (fun p => decide (p.rows = wirePacket.rows) &&
    decide ({ p with rows := []} = { wirePacket with rows := []})) = true ∧ (packetHeader wirePacket).toNat / 2 ^ 104 % 256 = 0x18 ∧
    (packetHeader wirePacket).toNat / 2 ^ 352 % 2 ^ 32 = 77 ∧ readPacket { wireOf wirePacket with bad := true } = none :=
  ⟨by decide +kernel, by decide +kernel, (by decide +kernel), by decide +kernel⟩

end Sys2Proof.Tests
end

section
/-!
SUPPORT. The scalar block (R104, R108, R109): the words that the model computes are the numbers of the manual's tables, and
every guarded word is a meaning behind the test of its guard, which alone decides whether it does more than retire.
-/
namespace Sys2Proof.Proofs.Scalar
open Sys2Proof Sys2Proof.Machine Sys2Proof.Safety Sys2Proof.Laws

/-! ### Words as the numbers of the table (R104) -/

theorem add_eq_wrap64 (x y : Word) : x + y = wrap64 (x.toInt + y.toInt) := by
  simp [wrap64, BitVec.ofInt_add]

theorem sub_eq_wrap64 (x y : Word) : x - y = wrap64 (x.toInt - y.toInt) := by
  apply BitVec.eq_of_toInt_eq
  simp [wrap64, BitVec.toInt_sub]

theorem mul_eq_wrap64 (x y : Word) : x * y = wrap64 (x.toInt * y.toInt) := by
  simp [wrap64, BitVec.ofInt_mul]

theorem shiftLeft_eq_wrap64 (x : Word) (k : Nat) : x <<< k = wrap64 (x.toNat * 2 ^ k) := by
  have h : wrap64 (x.toNat * 2 ^ k) = BitVec.ofNat 64 (x.toNat * 2 ^ k) := by
    rw [wrap64, ← BitVec.ofInt_natCast]; norm_cast
  apply BitVec.eq_of_toNat_eq
  rw [h, BitVec.toNat_shiftLeft, BitVec.toNat_ofNat, Nat.shiftLeft_eq]

theorem ushiftRight_eq_ofNat_div (x : Word) (k : Nat) : x >>> k = BitVec.ofNat 64 (x.toNat / 2 ^ k) := by
  apply BitVec.eq_of_toNat_eq
  have h : x.toNat / 2 ^ k < 2 ^ 64 := Nat.lt_of_le_of_lt (Nat.div_le_self _ _) x.isLt
  rw [BitVec.toNat_ushiftRight, BitVec.toNat_ofNat, Nat.mod_eq_of_lt h, Nat.shiftRight_eq_div_pow]

theorem sshiftRight_eq_wrap64 (x : Word) (k : Nat) : x.sshiftRight k = wrap64 (x.toInt / 2 ^ k) := by
  rw [BitVec.sshiftRight_eq, Int.shiftRight_eq_div_pow, wrap64]; norm_cast

theorem rotateRight_eq_rotated (x : Word) {k : Nat} (hk : k < 64) : x.rotateRight k = rotated x k := by
  have hl : x <<< (64 - k) = BitVec.ofNat 64 (x.toNat <<< (64 - k)) := by
    apply BitVec.eq_of_toNat_eq
    rw [BitVec.toNat_shiftLeft, BitVec.toNat_ofNat]
  rw [BitVec.rotateRight_def, Nat.mod_eq_of_lt hk, ushiftRight_eq_ofNat_div, hl, rotated, Nat.shiftRight_eq_div_pow]

/-- The model tests which operand is strictly beyond the other, the table which is not. -/
theorem ite_slt_eq (x y u v : Word) : (if BitVec.slt x y then u else v) = if y.toInt ≤ x.toInt then v else u := by
  simp only [BitVec.slt_iff_toInt_lt, ← Int.not_le, ite_not]

theorem ite_ult_eq (x y u v : Word) : (if BitVec.ult x y then u else v) = if y.toNat ≤ x.toNat then v else u := by
  simp only [BitVec.ult_iff_toNat_lt, ← Nat.not_le, ite_not]

/-- The positions from `m` on, of 64. -/
theorem countBits_from (m : Nat) : countBits (fun i => decide (m ≤ i)) = 64 - m := by
  rw [countBits, ← List.Ico.zero_bot, List.Ico.filter_le, List.Ico.length, Nat.zero_max]

/-- A bit position whose power exceeds `x` is a leading zero of `x`. -/
theorem leadingZeros_eq_countBits (x : Nat) : leadingZeros x = countBits fun i => decide (x < 2 ^ i) := by
  unfold leadingZeros
  by_cases hx : x = 0
  · subst hx
    simpa using (countBits_from 0).symm
  · have h : (fun i => decide (x < 2 ^ i)) = fun i => decide (x.log2 + 1 ≤ i) := by
      funext i
      rw [decide_eq_decide, ← Nat.log2_lt hx, Nat.succ_le_iff]
    rw [if_neg hx, h, countBits_from]
    omega

theorem popCount_eq_length_filter (x n : Nat) : popCount x n = ((List.range n).filter x.testBit).length := by
  induction n with
  | zero => rfl
  | succ n ih =>
    rw [popCount, ih, List.range_succ, List.filter_append, List.length_append]
    cases h : x.testBit n <;> simp [h]

theorem popCount_eq_countBits (x : Word) : popCount x.toNat 64 = countBits fun i => x.getLsbD i :=
  popCount_eq_length_filter x.toNat 64

/-! ### The forms of the table -/

/-- Each row of R104's table is a meaning behind the test of its guard, which writes the table's number to sd. -/
theorem exec_aluForm {c : Crew} {i : Instr} {f : ScalarForm} (s : State) (h : AluForm c i f) :
    ∃ act, exec i s = guarded s f.eng f.inv f.grd act ∧ act c = writeDone s c f.eng f.dst f.val := by
  cases h with
  | add => exact ⟨_, rfl, congrArg (writeDone s c _ _) (add_eq_wrap64 _ _)⟩
  | sub => exact ⟨_, rfl, congrArg (writeDone s c _ _) (sub_eq_wrap64 _ _)⟩
  | mul => exact ⟨_, rfl, congrArg (writeDone s c _ _) (mul_eq_wrap64 _ _)⟩
  | and => exact ⟨_, rfl, rfl⟩
  | or => exact ⟨_, rfl, rfl⟩
  | xor => exact ⟨_, rfl, rfl⟩
  | andn => exact ⟨_, rfl, rfl⟩
  | shl => exact ⟨_, rfl, congrArg (writeDone s c _ _) (shiftLeft_eq_wrap64 _ _)⟩
  | shr => exact ⟨_, rfl, congrArg (writeDone s c _ _) (ushiftRight_eq_ofNat_div _ _)⟩
  | sra => exact ⟨_, rfl, congrArg (writeDone s c _ _) (sshiftRight_eq_wrap64 _ _)⟩
  | rot => exact ⟨_, rfl, congrArg (writeDone s c _ _) (rotateRight_eq_rotated _ (Nat.mod_lt _ (by decide)))⟩
  | min => exact ⟨_, rfl, congrArg (writeDone s c _ _) (ite_slt_eq _ _ _ _)⟩
  | max => exact ⟨_, rfl, congrArg (writeDone s c _ _) (ite_slt_eq _ _ _ _)⟩
  | minz => exact ⟨_, rfl, congrArg (writeDone s c _ _) (ite_ult_eq _ _ _ _)⟩
  | maxz => exact ⟨_, rfl, congrArg (writeDone s c _ _) (ite_ult_eq _ _ _ _)⟩
  | clz => exact ⟨_, rfl, congrArg (writeDone s c _ _) (congrArg (BitVec.ofNat 64) (leadingZeros_eq_countBits _))⟩
  | popc => exact ⟨_, rfl, congrArg (writeDone s c _ _) (congrArg (BitVec.ofNat 64) (popCount_eq_countBits _))⟩
  | sel => exact ⟨_, rfl, rfl⟩

/-! ### Compares (R68, R108) -/

theorem guard_eq_decide_enabled (c : Crew) (e : Eng) (n : BitVec 1) (g : BitVec 4) :
    Sys2Proof.Machine.guard c e n g = decide (Enabled c e n g) := by
  by_cases h : Enabled c e n g
  · rw [guard_of_enabled h, decide_eq_true h]
  · have hd : Disabled c e n g := by
      unfold Enabled at h
      unfold Disabled
      rw [decide_not]
      exact Bool.eq_not_of_ne h
    rw [guard_of_disabled hd, decide_eq_false h]

theorem not_slt_eq_decide_le (x y : Word) : (!BitVec.slt x y) = decide (y.toInt ≤ x.toInt) := by
  rw [BitVec.slt_eq_decide, ← decide_not, decide_eq_decide, Int.not_lt]

theorem not_ult_eq_decide_le (x y : Word) : (!BitVec.ult x y) = decide (y.toNat ≤ x.toNat) := by
  rw [BitVec.ult_eq_decide, ← decide_not, decide_eq_decide, Nat.not_lt]

theorem condHolds_eq_condition (cc : BitVec 3) (x y : Word) : condHolds cc x y = condition cc.toNat x y := by
  unfold condHolds condition
  generalize cc.toNat = k
  match k with
  | 0 | 1 | 6 | _ + 7 => rfl
  | 2 => exact BitVec.slt_eq_decide
  | 3 => exact not_slt_eq_decide_le x y
  | 4 => exact BitVec.ult_eq_decide
  | 5 => exact not_ult_eq_decide_le x y

theorem compare_eq {s : State} {c : Crew} {t : BitVec 1} (n : BitVec 1) (g : BitVec 4) (cc : BitVec 3) (d p : BitVec 4)
    (a : BitVec 5) (rhs : Crew → Word) (hr : Runs s (engOf t) c) :
    Sys2Proof.Machine.compare t n g cc d p a rhs s = .next (retired s
      (compared c (engOf t) (decide (Enabled c (engOf t) n g)) (condition cc.toNat (sRead c (engOf t) a) (rhs c)) d p)
      (engOf t) 4) := by
  obtain ⟨hcrew, hactive⟩ := hr
  rw [Sys2Proof.Machine.compare, onCrew_eq _ hcrew hactive]
  simp only [guard_eq_decide_enabled, condHolds_eq_condition]
  rfl

/-! ### Predicate logic (R109) -/

theorem execPlogic_enabled {s : State} {c : Crew} {t n : BitVec 1} {g : BitVec 4} (d a b f : BitVec 4)
    (hr : Runs s (engOf t) c) (hg : Enabled c (engOf t) n g) :
    execPlogic t n g d a b f s = .next (retired s
      (pWrite c (engOf t) d
        (f.getLsbD (2 * (if pRead c (engOf t) a then 1 else 0) + (if pRead c (engOf t) b then 1 else 0))))
      (engOf t) 4) := by
  rw [execPlogic, guarded_enabled _ hr hg, ← Bool.cond_eq_ite, ← Bool.cond_eq_ite]
  rfl

/-! ### One shape of the guarded and of the privileged words -/

/-- Every word of `Guarded` is a meaning behind the test of its guard: no part of it stands before that test. -/
theorem exec_guarded {i : Instr} {e : Eng} {n : BitVec 1} {g : BitVec 4} (s : State) (h : Guarded i e n g) :
    ∃ act, exec i s = guarded s e n g act := by
  cases h <;> exact ⟨_, rfl⟩

/-- Every privileged word is a meaning behind the test of privilege and then of its guard (R89). -/
theorem exec_privileged {i : Instr} {n : BitVec 1} {g : BitVec 4} (s : State) (h : Privileged i n g) :
    ∃ act, exec i s = privileged s n g act := by
  cases h <;> exact ⟨_, rfl⟩

theorem privileged_disabled {s : State} {c : Crew} {n : BitVec 1} {g : BitVec 4} (act : Crew → Out) (hr : Runs s .c c)
    (hp : c.flags.getLsbD 0 = true) (hg : Disabled c .c n g) : privileged s n g act = .next (retired s c .c 4) := by
  obtain ⟨hcrew, hactive⟩ := hr
  have hpriv : isPriv c = true := hp
  rw [privileged_eq n g act hcrew hactive, hpriv, guard_of_disabled hg]
  rfl

theorem execTrapret_disabled {s : State} {c : Crew} {n : BitVec 1} {g : BitVec 4} (hr : Runs s .c c)
    (hh : c.trap.inHandler = true) (hg : Disabled c .c n g) :
    execTrapret n g s = .next (retired s c .c 4) := by
  obtain ⟨hcrew, hactive⟩ := hr
  rw [execTrapret, onCrew_eq _ hcrew hactive, hh, guard_of_disabled hg]
  rfl

/-! ### The obligations -/

/-- Settles O14: each row of R104's table stands behind its guard, and the word that the model computes is the table's
number. -/
theorem aluResult : Obligations.AluResult := by
  unfold Obligations.AluResult
  intro s c i f hf hr hg
  obtain ⟨act, hexec, hact⟩ := exec_aluForm s hf
  rw [hexec, guarded_enabled act hr hg, hact]
  rfl

/-- Settles O17: the compares read their guard as data, PLOGIC stands behind it, and so does every word of `Guarded`, every
privileged word behind its privilege and TRAPRET behind the handler mode. -/
theorem comparesAndFalseGuards : Obligations.ComparesAndFalseGuards := by
  unfold Obligations.ComparesAndFalseGuards
  refine ⟨fun s c t n g hr => ⟨?cmp, ?cmpi, ?plogic⟩, fun s c i e n g hi hr hg => ⟨?guarded, ?privileged, ?trapret⟩⟩
  case cmp => exact fun cc d p a b => compare_eq n g cc d p a _ hr
  case cmpi => exact fun cc d p a i => compare_eq n g cc d p a _ hr
  case plogic => exact fun hg d a b f => execPlogic_enabled d a b f hr hg
  case guarded =>
    obtain ⟨act, hexec⟩ := exec_guarded s hi
    rw [hexec, guarded_disabled act hr hg]
  case privileged =>
    rintro j hj rfl hp
    obtain ⟨act, hexec⟩ := exec_privileged s hj
    rw [hexec, privileged_disabled act hr hp hg]
  case trapret =>
    rintro rfl hh
    exact execTrapret_disabled hr hh hg

end Sys2Proof.Proofs.Scalar
end
